-- ==== Sys2Proof/Word.lean ====
section
/-! DEFINITION. The plain number and word types every other file uses (R1, R190). A coordinate or
a scan distance is an `Int` in whole micrometres (R1); an instant of cell time or a duration is a `Nat` in microseconds
(R9). -/

namespace Sys2Proof

/-- One character of a cell link, or one byte of a payload (R177, R190). -/
abbrev Byte := BitVec 8

/-- A 32-bit register: raw edge count, trim value, trim accumulator, scan number (R3, R6, R78). -/
abbrev Word32 := BitVec 32

/-- A set of the eight spray sectors, sector k at bit k (R27, R190). -/
abbrev SectorMask := BitVec 8

/-- A position of one zone bank (R26, R27). -/
abbrev ZonePos := Fin 64

/-- A recipe slot (R39). -/
abbrev SlotNo := Fin 16

/-- One of AX0 to AX7 (R163). -/
abbrev LineNo := Fin 8

/-- One of the four position marks (R170). -/
abbrev MarkNo := Fin 4

end Sys2Proof
end

