-- ==== Sys2Proof/Syntax.lean ====
section
/-! DEFINITION. The commands the part takes: one constructor of `Instr` for each row of the table of operations and
events, with the operands its rule gives it. A request's fields stand as the frame's codes, since several rules hold
or judge a value outside its accepted range (R29, R30, R190). -/

namespace Sys2Proof

/-- The four cell links (00_scope.md). -/
inductive Port where
  | s | p | m | q
  deriving DecidableEq, Repr

/-- The payload of a frame of known kind: its fields, or a payload whose length is not the one the layout gives
(R181). -/
inductive Payload (α : Type) where
  | fields (f : α)
  | wrongLength
  deriving DecidableEq, Repr

/-- The cell control word as a CONTROL frame carries it (R183, R191). -/
structure ControlWord where
  holdS : Bool
  holdP : Bool
  holdM : Bool
  holdQ : Bool
  abort : Bool
  run : Bool
  faultClear : Bool
  keepOn : Bool
  deriving DecidableEq, Repr

/-- Header fields 1 to 20 (R26, R185), as written. Codes of enumerations stand as sent (R190). -/
structure HeaderPart1 where
  identifier : Nat
  directionCode : Nat
  pitch : Nat
  offsetD : Nat
  pMax : Nat
  qMax : Nat
  vMin : Nat
  vMax : Nat
  seekSpeed : Nat
  approachSpeed : Nat
  runoutSpeed : Nat
  runIn : Nat
  latencyP : Nat
  latencyQ : Nat
  prewet : Nat
  postQuenchTime : Nat
  floodTime : Nat
  floodFlow : Nat
  reversalTol : Nat
  energyTol : Nat
  deriving DecidableEq, Repr

/-- Header fields 21 to 31 (R26, R185), as written. -/
structure HeaderPart2 where
  datumModeCode : Nat
  datumCoord : Int
  originCoord : Int
  seekLimit : Nat
  datumTol : Nat
  nMax : Nat
  nBase : Nat
  pressureMin : Nat
  windowLow : Int
  windowHigh : Int
  endProbeCode : Nat
  deriving DecidableEq, Repr

/-- What a WRITE_HEADER carries: part 1, part 2, or a part number that is neither (R185). -/
inductive HeaderWrite where
  | part1 (h : HeaderPart1)
  | part2 (h : HeaderPart2)
  | otherPart (n : Nat)
  deriving DecidableEq, Repr

/-- A WRITE_ZONE payload (R30, R192). Kind code 0 is the empty marker; a field sent as absent is `none`. -/
structure ZoneWrite where
  position : Nat
  kindCode : Nat
  startX : Nat
  energy : Option Nat
  zoneSpeed : Option Nat
  dwellPower : Option Nat
  dwellTime : Option Nat
  mask : SectorMask
  flow : Nat
  windowMin : Option Nat
  windowMax : Option Nat
  helix : Option Nat
  deriving DecidableEq, Repr

/-- A READ_ZONE payload: bank code (ACTIVE 1, SHADOW 2), position (`none`: the header), part number (R31, R192). -/
structure ZoneRead where
  bankCode : Nat
  position : Option Nat
  part : Nat
  deriving DecidableEq, Repr

/-- A WRITE_POSITION_CONFIG payload: the fields the presence flags name (R7, R192). -/
structure PositionWrite where
  scaleK : Option Nat
  trim : Option (Word32 × Nat)
  edgeModeCode : Option Nat
  invertCode : Option Nat
  lower : Option Int
  upper : Option Int
  deriving DecidableEq, Repr

/-- A WRITE_LINE_CONFIG payload (R163, R164, R192); a field sent as absent is `none`. -/
structure LineWrite where
  line : Nat
  directionCode : Nat
  pullUpCode : Nat
  edgeCode : Option Nat
  filter : Option Nat
  latency : Option Nat
  inputCode : Option Nat
  captureCode : Option Nat
  outputCode : Option Nat
  deriving DecidableEq, Repr

/-- A WRITE_MARK payload (R170, R192). -/
structure MarkWrite where
  mark : Nat
  enableCode : Nat
  target : Int
  modeCode : Nat
  addValue : Option Nat
  width : Nat
  stampCode : Nat
  deriving DecidableEq, Repr

/-- A WRITE_OPTIONS payload; a start-up load of `none` is NONE (R46, R192). -/
structure OptionsWrite where
  protectedCount : Nat
  lossCode : Nat
  startUp : Option Nat
  deriving DecidableEq, Repr

/-- The contents of a POWER_REPORT (R156). -/
structure PowerReport where
  power : Nat
  interval : Nat
  stateCode : Nat
  deriving DecidableEq, Repr

/-- The contents of a QUENCH_REPORT (R159). -/
structure QuenchReport where
  pressure : Nat
  flow : Nat
  temperature : Int
  deriving DecidableEq, Repr

/-- What the outside does to a line's pin: drives it high or low, or leaves it undriven (R163). -/
inductive PinDrive where
  | high | low | undriven
  deriving DecidableEq, Repr

/-- The levels outside the part as a power-on reset ends: the rail, the encoder lines and the pins (R24, R138, R176). -/
structure ResetEnd where
  railMv : Nat
  encA : Bool
  encB : Bool
  pins : Vector PinDrive 8
  deriving DecidableEq, Repr

/-- The commands: one constructor for each row of the table of operations and events. -/
inductive Instr where
  /-- ENCODER_TRANSITION (R3): the new levels of lines A and B. -/
  | encoderTransition (a b : Bool)
  /-- INDEX_RISING_EDGE (R5). -/
  | indexRisingEdge
  /-- UPDATE_EXPIRY (R49). -/
  | updateExpiry
  /-- HOLD_REQUEST (R121): a CONTROL frame that carries the hold field of port `field` set. -/
  | holdRequest (port : Port) (tag : Byte) (field : Port) (word : ControlWord)
  /-- ABORT (R137): a CONTROL frame that carries abort set. -/
  | abort (port : Port) (tag : Byte) (word : ControlWord)
  /-- QUENCH_KEEP_ON (R91): a CONTROL frame that carries the keep-on field at level `on`. -/
  | quenchKeepOn (port : Port) (tag : Byte) (on : Bool) (word : ControlWord)
  /-- FAULT_CLEAR (R143): a CONTROL frame from the S-port that carries fault clear set. -/
  | faultClear (tag : Byte) (word : ControlWord)
  /-- RUN (R75): a CONTROL frame from the S-port that carries run set. -/
  | run (tag : Byte) (word : ControlWord)
  /-- READ_STATUS (R187), part number. -/
  | readStatus (tag : Byte) (p : Payload Nat)
  /-- WRITE_HEADER (R185). -/
  | writeHeader (tag : Byte) (p : Payload HeaderWrite)
  /-- WRITE_ZONE (R30). -/
  | writeZone (tag : Byte) (p : Payload ZoneWrite)
  /-- READ_ZONE (R31). -/
  | readZone (tag : Byte) (p : Payload ZoneRead)
  /-- COMMIT (R32). -/
  | commit (tag : Byte) (p : Payload Unit)
  /-- DISARM (R74). -/
  | disarm (tag : Byte) (p : Payload Unit)
  /-- LOAD_RECIPE (R41), slot. -/
  | loadRecipe (tag : Byte) (p : Payload Nat)
  /-- STORE_RECIPE (R42), slot. -/
  | storeRecipe (tag : Byte) (p : Payload Nat)
  /-- ERASE_RECIPE (R43), slot. -/
  | eraseRecipe (tag : Byte) (p : Payload Nat)
  /-- READ_SUMMARY (R118), part number. -/
  | readSummary (tag : Byte) (p : Payload Nat)
  /-- READ_EXCEPTION (R113). -/
  | readException (tag : Byte) (p : Payload Unit)
  /-- READ_CAPTURE (R22). -/
  | readCapture (tag : Byte) (p : Payload Unit)
  /-- READ_FAULT (R140). -/
  | readFault (tag : Byte) (p : Payload Unit)
  /-- WRITE_POSITION_CONFIG (R7). -/
  | writePositionConfig (tag : Byte) (p : Payload PositionWrite)
  /-- WRITE_LINE_CONFIG (R164). -/
  | writeLineConfig (tag : Byte) (p : Payload LineWrite)
  /-- WRITE_LINE (R169): a latch level for each named line. -/
  | writeLine (tag : Byte) (p : Payload (List (Nat × Bool)))
  /-- READ_LINES (R169). -/
  | readLines (tag : Byte) (p : Payload Unit)
  /-- WRITE_MARK (R170). -/
  | writeMark (tag : Byte) (p : Payload MarkWrite)
  /-- WRITE_OPTIONS (R46). -/
  | writeOptions (tag : Byte) (p : Payload OptionsWrite)
  /-- RESET (R188). -/
  | reset (tag : Byte) (p : Payload Unit)
  /-- ANSWERED_ROLE (R181): a kind not permitted on the S-port. -/
  | answeredRole (tag : Byte)
  /-- FRAME_DISCARD (R179): the frame in progress on a port is discarded. -/
  | frameDiscard (port : Port)
  /-- INTER_CHARACTER_TIMEOUT (R179). -/
  | interCharacterTimeout (port : Port)
  /-- POWER_REPORT (R156), on the P-port. -/
  | powerReport (p : Payload PowerReport)
  /-- DRIVE_STATUS (R158), on the M-port: the drive state's code. -/
  | driveStatus (p : Payload Nat)
  /-- QUENCH_REPORT (R159), on the Q-port. -/
  | quenchReport (p : Payload QuenchReport)
  /-- LIVENESS_EXPIRY (R148). -/
  | livenessExpiry (port : Port)
  /-- TRANSMIT_COMPLETE (R150). -/
  | transmitComplete (port : Port)
  /-- POWER_SEND_EXPIRY (R152). -/
  | powerSendExpiry
  /-- QUENCH_SEND_EXPIRY (R154). -/
  | quenchSendExpiry
  /-- WARM_RESET (R188). -/
  | warmReset
  /-- POWER_ON_RESET (R24), with the levels as the reset ends. -/
  | powerOnReset (levels : ResetEnd)
  /-- SUPPLY (R138): the rail has fallen to this level, in mV. -/
  | supply (railMv : Nat)
  /-- SUPPLY_RESTORED (R138): the rail has risen to this level, in mV. -/
  | supplyRestored (railMv : Nat)
  /-- LOAD_COMPLETE (R41). -/
  | loadComplete
  /-- STORE_COMPLETE (R42). -/
  | storeComplete
  /-- ERASE_COMPLETE (R43). -/
  | eraseComplete
  /-- OPTION_WRITE_COMPLETE (R46). -/
  | optionWriteComplete
  /-- APPROACH_WAIT_EXPIRY (R82). -/
  | approachWaitExpiry
  /-- DWELL_TIMER_EXPIRY (R86). -/
  | dwellTimerExpiry
  /-- POST_QUENCH_EXPIRY (R88). -/
  | postQuenchExpiry
  /-- FLOOD_EXPIRY (R142). -/
  | floodExpiry
  /-- INDEX_WATCH_EXPIRY (R133). -/
  | indexWatchExpiry
  /-- PRESSURE_WATCH_EXPIRY (R134). -/
  | pressureWatchExpiry
  /-- AUX_PIN_CHANGE (R166): what the outside now does to the line's pin. -/
  | auxPinChange (line : LineNo) (drive : PinDrive)
  /-- FILTER_EXPIRY (R166). -/
  | filterExpiry (line : LineNo)
  /-- MARK_PULSE_EXPIRY (R172). -/
  | markPulseExpiry (mark : MarkNo)
  /-- WITHDRAWAL_EXPIRY (R173). -/
  | withdrawalExpiry
  /-- HOLD_FIELD_CLEARED (R184): a CONTROL frame that carries the hold field of port `field` clear. -/
  | holdFieldCleared (port : Port) (tag : Byte) (field : Port) (word : ControlWord)
  /-- DISCARDED_KIND_ARRIVAL (R181). -/
  | discardedKindArrival (port : Port)
  /-- CHARACTER_RECEIVED (R179): the eight bits and the stop bit's level. -/
  | characterReceived (port : Port) (char : Byte) (stopHigh : Bool)
  deriving DecidableEq, Repr

end Sys2Proof
end

