-- ==== Sys2Proof/Decode.lean ====
section
/-! DEFINITION. The commands that a word spells by the bits of the table of operations and events: that table gives no
row any bits, so no word spells a command (assumption 33). The frames of the cell links, which do spell commands by
their characters, are read in Machine/Operands.lean and Machine/Link.lean. -/

namespace Sys2Proof

/-- The command that the word w of nbits bits spells: none, for no row has bits. -/
def decodeTableWord (_nbits _w : Nat) : Option Instr := none

end Sys2Proof
end

