-- ==== Sys2Proof/Machine/Bank.lean ====
section
/-! DEFINITION. What a bank, and a recipe slot's image, hold: a header and 64 zone positions
(02_zone_tables_and_the_recipe_store.md). -/

namespace Sys2Proof.Machine

/-- A full recipe header: the 31 fields of R26. -/
structure RecipeHeader extends HeaderPart1, HeaderPart2 where
  deriving DecidableEq, Repr

inductive ZoneKind where
  | heat | ramp | dwell | gap | finish
  deriving DecidableEq, Repr

/-- A zone entry (R27): the kind (`finish` is END) and the fields; one the kind does not apply, or that was sent as
absent, is `none`. -/
structure ZoneEntry where
  kind : ZoneKind
  startX : Nat
  energy : Option Nat
  zoneSpeed : Option Nat
  dwellPower : Option Nat
  dwellTime : Option Nat
  mask : SectorMask
  flow : Nat
  windowMin : Option Nat
  windowMax : Option Nat
  helix : Option Nat
  deriving DecidableEq, Repr

/-- A bank, or a slot's image: a header, empty or full, and 64 zone positions (R26, R28, R39). -/
structure Bank where
  header : Option RecipeHeader
  zones : Vector (Option ZoneEntry) 64
  deriving DecidableEq, Repr, Inhabited

/-- The empty bank, also the empty image (R43, R48). -/
def Bank.empty : Bank where
  header := none
  zones := Vector.replicate 64 none

end Sys2Proof.Machine
end

