-- ==== Sys2Proof/Config.lean ====
section
/-! DEFINITION. What the part fixes (durations and bounds the rules state) and the free values: what the rules leave
open. A free value has no body, so no proof can see what it is. -/

namespace Sys2Proof.Config

/-- Period of the update timer, 250 us (R49). -/
def updatePeriod : Nat := 250
/-- The approach wait, 2,000 ms (R26, R81). -/
def approachWait : Nat := 2000000
/-- The pressure watch, 50 ms (R134). -/
def pressureWatch : Nat := 50000
/-- The power send timer, 10 ms (R152). -/
def powerSend : Nat := 10000
/-- The quench send timer, 5 ms (R154). -/
def quenchSend : Nat := 5000
/-- The gap after which a frame in progress is discarded, 20 us (R179). -/
def characterGap : Nat := 20
/-- Duration of a load, 1 ms (R40). -/
def loadTime : Nat := 1000
/-- Fixed part of a store's duration, 10 ms (R40). -/
def storeTime : Nat := 10000
/-- A store's duration for each filled zone position, 0.25 ms (R40). -/
def storeTimePerZone : Nat := 250
/-- Duration of an erase, 5 ms (R40). -/
def eraseTime : Nat := 5000
/-- Duration of an option write, 5 ms (R40). -/
def optionTime : Nat := 5000
/-- Standstill after which the speed estimate is 0, 100 ms (R12). -/
def standstill : Nat := 100000
/-- Bound of the speed estimate (R12). -/
def speedBound : Int := 65535
/-- Bound of the coordinate in micrometres (R17). -/
def coordBound : Int := 2000000
/-- Bound of a mark's target in scan distance (R170, R171). -/
def targetBound : Int := 4000000
/-- Distance beyond the drained end at which an undrained track is a fault (R87, R123). -/
def drainBound : Int := 50000
/-- Greatest power in W (R1, R156). -/
def powerBound : Nat := 800000
/-- Greatest slice energy in mJ (R1, R104). -/
def energyBound : Nat := 2 ^ 48 - 1
/-- Greatest count of a summary (R115). -/
def countBound : Nat := 2 ^ 32 - 1
/-- Stamps the edge-stamp ring holds (R10). -/
def ringDepth : Nat := 9
/-- Stamps the capture queue holds (R21). -/
def captureDepth : Nat := 16
/-- Records the exception queue holds (R112). -/
def exceptionDepth : Nat := 32
/-- Answers the ACK place holds (R182). -/
def ackDepth : Nat := 8
/-- Notices a port's STATE_NOTICE queue holds (R150). -/
def noticeDepth : Nat := 4
/-- Greatest payload length (R179). -/
def payloadBound : Nat := 48
/-- Supply-low threshold, in mV: the indication is set below it (R138). -/
def supplyLowBelow : Nat := 4500
/-- Supply-restored threshold, in mV: the indication is cleared at or above it (R138). -/
def supplyGoodFrom : Nat := 4600

/-- Free value (R9, R144, R149 and the other "either may be taken first" rules): which of the expiries due at one
instant is taken next, for the n-th draw. Assumption 2. -/
opaque freeOrder : Nat → Nat

/-- Free value (R156): whether the sequencer takes the fault of a TRIPPED report before the slice tracker takes its
energy, for the n-th draw. Assumption 9. -/
opaque freeFaultFirst : Nat → Bool

/-- Free value (R138): the supply-low indication after a reset that ends with the rail from 4.5 V up to, but not
including, 4.6 V, for the n-th draw. Assumption 13. -/
opaque freeSupplyLow : Nat → Bool

/-- Free value (R39): the 32-bit cyclic check of an image. The rules give neither its polynomial nor the order in which
it takes the image. Assumption 35. -/
opaque freeImageCheck : Machine.Bank → Word32

/-- Free value (R45): the partly written image that an interrupted store or erase leaves, for the n-th draw.
Assumption 35. -/
opaque freeTornImage : Nat → Machine.Bank

/-- Free value (R45): the check found with such an image, for the n-th draw. Assumption 35. -/
opaque freeTornCheck : Nat → Word32

end Sys2Proof.Config
end

