-- ==== Sys2Proof/Machine/Blocks.lean ====
section
/-! DEFINITION. The state each block of the part owns, block by block (00_scope.md), and each block's values after a
reset. `State` (Machine/State.lean) puts the blocks together. -/

namespace Sys2Proof.Machine

/-! ## Coordinate unit -/

/-- The phases of the two-bit Gray code of lines A and B (R3). -/
inductive EncPhase where
  | p0 | p1 | p2 | p3
  deriving DecidableEq, Repr

inductive EdgeMode where
  | x1 | x2 | x4
  deriving DecidableEq, Repr

inductive TrimDir where
  | faster | slower
  deriving DecidableEq, Repr

inductive Direction where
  | plus | minus
  deriving DecidableEq, Repr

/-- One stamp of the edge-stamp ring (R10); the coordinate is in units of 2^-16 um. -/
structure EdgeStamp where
  time : Nat
  coord : Int
  deriving DecidableEq, Repr

/-- The index record (R5). -/
structure IndexRecord where
  count : Word32
  time : Nat
  deriving DecidableEq, Repr

inductive LineEdge where
  | rise | fall
  deriving DecidableEq, Repr

inductive CaptureSource where
  | line (n : LineNo)
  | mark (n : MarkNo)
  deriving DecidableEq, Repr

/-- A capture stamp (R21). -/
structure CaptureStamp where
  source : CaptureSource
  edge : Option LineEdge
  time : Nat
  coord : Int
  deriving DecidableEq, Repr

/-- The coordinate unit (R24 lists its state). `coord` is the fixed-point coordinate in units of 2^-16 um; the ring
holds its newest stamp first, the capture queue its oldest first. -/
structure Cu where
  cellTime : Nat
  phase : EncPhase
  rawCount : Word32
  indexRecord : Option IndexRecord
  encoderError : Bool
  coord : Int
  scaleK : Nat
  trimC : Word32
  trimDir : TrimDir
  trimAcc : Word32
  edgeMode : EdgeMode
  invert : Bool
  lower : Int
  upper : Int
  ring : List EdgeStamp
  origin : Int
  direction : Direction
  frontier : Int
  datumTaken : Bool
  captures : List CaptureStamp
  overrun : Bool
  deriving DecidableEq, Repr

/-- The values of R24; cell time and the phase found at the end of the reset are given. -/
def Cu.resetValue (time : Nat) (phase : EncPhase) : Cu where
  cellTime := time
  phase := phase
  rawCount := 0
  indexRecord := none
  encoderError := false
  coord := 0
  scaleK := 65536
  trimC := 0
  trimDir := .faster
  trimAcc := 0
  edgeMode := .x4
  invert := false
  lower := -2000000
  upper := 2000000
  ring := []
  origin := 0
  direction := .plus
  frontier := 0
  datumTaken := false
  captures := []
  overrun := false

/-! ## Zone table and recipe store -/

inductive BankId where
  | a | b
  deriving DecidableEq, Repr

/-- The zone table: two banks and the marking of the active one (R28). -/
structure Zt where
  bankA : Bank
  bankB : Bank
  active : BankId
  deriving DecidableEq, Repr

/-- The values of R48. Which bank is marked is the model's choice (assumption 10). -/
def Zt.resetValue : Zt where
  bankA := Bank.empty
  bankB := Bank.empty
  active := .a

/-- The conditions of a slot (R39). -/
inductive SlotCondition where
  | valid | empty | corrupt
  deriving DecidableEq, Repr

/-- A recipe slot (R39): its image, the 32-bit check written with the image, and the condition that the store keeps
(assumption 35). -/
structure RecipeSlot where
  image : Bank
  check : Word32
  condition : SlotCondition
  deriving DecidableEq, Repr

/-- The condition of an image whose check agrees: VALID, or EMPTY for an empty header (R39). -/
def Bank.condition (b : Bank) : SlotCondition := if b.header.isSome then .valid else .empty

/-- A slot as a completed store or erase leaves it: the image, a fresh check, and the condition (R39, R42, R43). -/
def RecipeSlot.written (image : Bank) : RecipeSlot where
  image := image
  check := Config.freeImageCheck image
  condition := image.condition

inductive LossPolicy where
  | hold | none
  deriving DecidableEq, Repr

/-- The three settings of an option block (R46). -/
structure OptionBlock where
  protectedCount : Nat
  loss : LossPolicy
  startUp : Option SlotNo
  deriving DecidableEq, Repr

/-- The defaults of R46. -/
def OptionBlock.default : OptionBlock where
  protectedCount := 0
  loss := .hold
  startUp := none

/-- A stored copy of the option block: settings, write number, and whether its check agrees (R46). -/
structure OptionCopy where
  options : OptionBlock
  writeNumber : Word32
  checkAgrees : Bool
  deriving DecidableEq, Repr

/-- The operations of the recipe store (R40); a store names the bank it copies from (R42). -/
inductive RsOp where
  | load (slot : SlotNo)
  | store (slot : SlotNo) (source : BankId)
  | erase (slot : SlotNo)
  | options (o : OptionBlock)
  deriving DecidableEq, Repr

/-- The in-flight record: the operation and the cell time at which it completes (R40). -/
structure InFlight where
  op : RsOp
  completes : Nat
  deriving DecidableEq, Repr

/-- The start-up status (R47); the zone index is absent where the failed check gives none. -/
inductive StartUpStatus where
  | none | loading | autoloaded | autoloadFailed
  | autoloadInvalid (field : Nat) (zone : Option Nat)
  deriving DecidableEq, Repr

/-- The recipe store (R39, R40, R46, R47). -/
structure Rs where
  slots : Vector RecipeSlot 16
  copy1 : OptionCopy
  copy2 : OptionCopy
  inForce : OptionBlock
  inFlight : Option InFlight
  startUp : StartUpStatus
  deriving DecidableEq, Repr

/-- The store as the part is delivered: the option copies of R46, sixteen EMPTY slots (assumption 10). -/
def Rs.delivered : Rs where
  slots := Vector.replicate 16 (RecipeSlot.written Bank.empty)
  copy1 := { options := OptionBlock.default, writeNumber := 0, checkAgrees := true }
  copy2 := { options := OptionBlock.default, writeNumber := 1, checkAgrees := true }
  inForce := OptionBlock.default
  inFlight := none
  startUp := .none

/-! ## Profile engine -/

/-- The profile engine's held results, its latch and its update timer (R51, R65, R70). `readFrontier` is the frontier
of the set-point record. -/
structure Pe where
  nextUpdate : Nat
  power : Nat
  enable : Bool
  heatingZone : Option Nat
  powerLimited : Bool
  speed : Nat
  stop : Bool
  spindle : Nat
  mask : SectorMask
  flow : Nat
  flood : Bool
  quenchZone : Option Nat
  latch : Bool
  readFrontier : Int
  deriving DecidableEq, Repr

/-- The values of R70; the timer restarts at the end of the reset. The record's frontier is assumption 14. -/
def Pe.resetValue (time : Nat) : Pe where
  nextUpdate := time + Config.updatePeriod
  power := 0
  enable := false
  heatingZone := none
  powerLimited := false
  speed := 0
  stop := true
  spindle := 0
  mask := 0
  flow := 0
  flood := false
  quenchZone := none
  latch := false
  readFrontier := 0

/-! ## Scan sequencer -/

inductive ApproachPhase where
  | travel | wait
  deriving DecidableEq, Repr

inductive DwellPhase where
  | settling | timing
  deriving DecidableEq, Repr

inductive RunPhase where
  | travel | postQuench
  deriving DecidableEq, Repr

inductive FaultPhase where
  | flood | standing
  deriving DecidableEq, Repr

/-- The eleven sequence states, each with the phases that divide it (R71). -/
inductive SeqState where
  | idle
  | armed
  | seek
  | approach (ph : ApproachPhase)
  | heating
  | dwell (ph : DwellPhase)
  | runout (ph : RunPhase)
  | done
  | quenchout (ph : RunPhase)
  | held
  | fault (ph : FaultPhase)
  deriving DecidableEq, Repr

/-- The sixteen fault codes (R130 to R138, R190). -/
inductive FaultCode where
  | encoder | overtravel | reversal | datum | partLength | spiral | inverter | drive | quenchPressure | coolant
  | interlock | linkP | linkM | linkQ | supply | aborted
  deriving DecidableEq, Repr

/-- What a fault report names as its source (R130, R140). -/
inductive FaultSource where
  | cu | sq | lu
  | port (w : Port)
  deriving DecidableEq, Repr

/-- The fault record (R140). -/
structure FaultRecord where
  code : FaultCode
  source : FaultSource
  coord : Int
  time : Nat
  state : SeqState
  deriving DecidableEq, Repr

/-- The latest secondary fault (R141). -/
structure SecondaryFault where
  code : FaultCode
  source : FaultSource
  time : Nat
  deriving DecidableEq, Repr

/-- The state a scan is held from (R124); the break frontier is present for HEATING and DWELL alone. -/
inductive HeldFrom where
  | seek
  | approach
  | heating (brk : Int)
  | dwell (brk : Int)
  deriving DecidableEq, Repr

/-- The start-condition record (R71, R82). The expiry of the wait is `Sq.approachWait`. -/
structure StartRecord where
  spindle : Bool
  inverter : Bool
  coolant : Bool
  waitExpired : Bool
  deriving DecidableEq, Repr

def StartRecord.cleared : StartRecord where
  spindle := false
  inverter := false
  coolant := false
  waitExpired := false

/-- The scan sequencer (R71, R93, R145). A timer is the cell time at which it expires, or `none` when stopped. -/
structure Sq where
  st : SeqState
  scanNumber : Word32
  seekStart : Option Int
  nextDwell : Option Nat
  dwellZone : Option Nat
  startRecord : StartRecord
  approachWait : Option Nat
  dwellTimer : Option Nat
  postQuench : Option Nat
  floodTimer : Option Nat
  heldFrom : Option HeldFrom
  faultRecord : Option FaultRecord
  secondaryCount : Nat
  latestSecondary : Option SecondaryFault
  overPitch : Nat
  firstRevolution : Bool
  indexWatch : Option Nat
  pressureWatch : Option Nat
  railMv : Nat
  supplyLow : Bool
  deriving DecidableEq, Repr

/-- The values of R93 and R145; the scan number, the rail and the indication judged from it are given. -/
def Sq.resetValue (scanNumber : Word32) (railMv : Nat) (supplyLow : Bool) : Sq where
  st := .idle
  scanNumber := scanNumber
  seekStart := none
  nextDwell := none
  dwellZone := none
  startRecord := StartRecord.cleared
  approachWait := none
  dwellTimer := none
  postQuench := none
  floodTimer := none
  heldFrom := none
  faultRecord := none
  secondaryCount := 0
  latestSecondary := none
  overPitch := 0
  firstRevolution := false
  indexWatch := none
  pressureWatch := none
  railMv := railMv
  supplyLow := supplyLow

/-! ## Slice tracker -/

inductive SliceKind where
  | heated | gap
  deriving DecidableEq, Repr

/-- The flags of a slice record (R96). -/
structure SliceFlags where
  powerLimited : Bool
  holdBreak : Bool
  seam : Bool
  dwell : Bool
  quenchant : Bool
  quenchLow : Bool
  deriving DecidableEq, Repr

def SliceFlags.empty : SliceFlags where
  powerLimited := false
  holdBreak := false
  seam := false
  dwell := false
  quenchant := false
  quenchLow := false

/-- A slice record (R96). It is OPEN while its close time is absent. -/
structure SliceRecord where
  index : Nat
  kind : SliceKind
  zone : Nat
  energy : Nat
  target : Option Nat
  closeTime : Option Nat
  flags : SliceFlags
  deriving DecidableEq, Repr

/-- A reason set (R110). -/
structure Reasons where
  underEnergy : Bool
  overEnergy : Bool
  earlyQuench : Bool
  lateQuench : Bool
  powerLimited : Bool
  holdBreak : Bool
  seam : Bool
  quenchant : Bool
  quenchLow : Bool
  flooded : Bool
  deriving DecidableEq, Repr

/-- An exception record (R112). -/
structure ExceptionRecord where
  index : Nat
  zone : Nat
  reasons : Reasons
  energy : Nat
  target : Option Nat
  interval : Option Nat
  closeTime : Nat
  deriving DecidableEq, Repr

inductive SummaryStatus where
  | opened | complete | aborted | faulted | abandoned
  deriving DecidableEq, Repr

/-- The eleven reason counts of the summary (R114): the ten reasons of R110 and the slices with the DWELL flag. -/
structure ReasonCounts where
  underEnergy : Nat
  overEnergy : Nat
  earlyQuench : Nat
  lateQuench : Nat
  powerLimited : Nat
  holdBreak : Nat
  seam : Nat
  quenchant : Nat
  quenchLow : Nat
  flooded : Nat
  dwell : Nat
  deriving DecidableEq, Repr

def ReasonCounts.zero : ReasonCounts where
  underEnergy := 0
  overEnergy := 0
  earlyQuench := 0
  lateQuench := 0
  powerLimited := 0
  holdBreak := 0
  seam := 0
  quenchant := 0
  quenchLow := 0
  flooded := 0
  dwell := 0

/-- The shaft summary (R114). A minimum and its maximum are present together. -/
structure Summary where
  scanNumber : Word32
  identifier : Nat
  status : SummaryStatus
  total : Nat
  conforming : Nat
  nonconforming : Nat
  counts : ReasonCounts
  firstNonconforming : Option Nat
  ratio : Option (Nat × Nat)
  interval : Option (Nat × Nat)
  skipped : Nat
  unassigned : Nat
  drift : Option Nat
  datumDrift : Bool
  faultCode : Option FaultCode
  detailIncomplete : Bool
  delivered : Nat
  read : Bool
  deriving DecidableEq, Repr

/-- The opening column of R114. -/
def Summary.opening (scanNumber : Word32) (identifier : Nat) : Summary where
  scanNumber := scanNumber
  identifier := identifier
  status := .opened
  total := 0
  conforming := 0
  nonconforming := 0
  counts := ReasonCounts.zero
  firstNonconforming := none
  ratio := none
  interval := none
  skipped := 0
  unassigned := 0
  drift := none
  datumDrift := false
  faultCode := none
  detailIncomplete := false
  delivered := 0
  read := false

/-- The slice tracker: the three collections and the working state (R97, R120). The track and the exception queue
hold their oldest entry first; the dwell account is a slice index and an energy. -/
structure Stk where
  track : List SliceRecord
  heating : Bool
  highWater : Option Nat
  seam : Option Nat
  dwellAccount : Option (Nat × Nat)
  exceptions : List ExceptionRecord
  summary : Option Summary
  deriving DecidableEq, Repr

/-- The values of R120. -/
def Stk.resetValue : Stk where
  track := []
  heating := false
  highWater := none
  seam := none
  dwellAccount := none
  exceptions := []
  summary := none

/-! ## Line unit -/

inductive EdgeSetting where
  | rise | fall | both
  deriving DecidableEq, Repr

inductive InputFn where
  | datum | endProbe | spindleIndex | coilWater | interlock | general
  deriving DecidableEq, Repr

inductive OutputFn where
  | mark (k : MarkNo)
  | heatMirror | quenchOn | fault | done | general
  deriving DecidableEq, Repr

/-- The fields of an IN line, or of an OUT line (R163). -/
inductive LineRole where
  | input (edge : EdgeSetting) (filter latency : Nat) (fn : InputFn) (capture : Bool)
  | output (fn : OutputFn)
  deriving DecidableEq, Repr

/-- One auxiliary line: its configuration, its latch, what the outside does to its pin, and its filter (R163, R166,
R169). The filtered level and the filter timer are those of an IN line. -/
structure Line where
  pullUp : Bool
  role : LineRole
  latch : Bool
  drive : PinDrive
  filtered : Bool
  filterTimer : Option Nat
  deriving DecidableEq, Repr

/-- The level an IN line's pin reads (R163). -/
def pinReads (pullUp : Bool) : PinDrive → Bool
  | .high => true
  | .low => false
  | .undriven => pullUp

/-- The values of R176 for a line whose pin the outside drives so at the end of the reset. -/
def Line.resetValue (drive : PinDrive) : Line where
  pullUp := false
  role := .input .rise 0 0 .general false
  latch := false
  drive := drive
  filtered := pinReads false drive
  filterTimer := none

/-- ONCE, or REPEAT with its add value (R170). -/
inductive MarkMode where
  | once
  | repeating (add : Nat)
  deriving DecidableEq, Repr

/-- A position mark and its pulse timer (R170, R172). -/
structure Mark where
  enable : Bool
  target : Int
  mode : MarkMode
  width : Nat
  stamp : Bool
  pulse : Option Nat
  deriving DecidableEq, Repr

/-- The values of R176 for a mark. -/
def Mark.resetValue : Mark where
  enable := false
  target := 0
  mode := .once
  width := 1
  stamp := false
  pulse := none

/-- The line unit (R163, R170, R173, R90). -/
structure Lu where
  lines : Vector Line 8
  marks : Vector Mark 4
  prevIndexTime : Option Nat
  indexFrontier : Option Int
  rpm : Option Nat
  travel : Option Int
  withdrawal : Option Nat
  heatEnable : Bool
  deriving DecidableEq, Repr

/-- The values of R176. -/
def Lu.resetValue (pins : Vector PinDrive 8) : Lu where
  lines := pins.map Line.resetValue
  marks := Vector.replicate 4 Mark.resetValue
  prevIndexTime := none
  indexFrontier := none
  rpm := none
  travel := none
  withdrawal := none
  heatEnable := false

/-! ## Link ports -/

inductive LinkState where
  | down | online | lost
  deriving DecidableEq, Repr

/-- A STATE_NOTICE (R155). -/
structure StateNotice where
  state : SeqState
  code : Option FaultCode
  frontier : Int
  scanNumber : Word32
  deriving DecidableEq, Repr

/-- The ACK status codes (R191). -/
inductive Status where
  | ok | busy | scanning | role | invalid | protect | resultPending | empty | holdActive | conditionPresent | notArmed
  | startBlocked | slotInvalid
  deriving DecidableEq, Repr

/-- An answer to a request: status, the two detail bytes and the answer data (R182, R191). -/
structure Answer where
  status : Status
  detail1 : Byte
  detail2 : Byte
  data : List Byte
  deriving DecidableEq, Repr

/-- An answer with the tag of its request (R180, R182). -/
structure Ack where
  tag : Byte
  answer : Answer
  deriving DecidableEq, Repr

/-- The frames the part sends; all but an ACK carry the port's send count as tag (R180). -/
inductive TxFrame where
  | notice (tag : Byte) (n : StateNotice)
  | ack (a : Ack)
  | powerSet (tag : Byte) (power : Nat) (enable : Bool) (heatingZone : Option Nat) (frontier : Int)
  | motionSet (tag : Byte) (speed : Int) (spindle : Nat) (stop : Bool) (frontier : Int)
  | quenchSet (tag : Byte) (mask : SectorMask) (flow : Nat) (flood : Bool) (quenchZone : Option Nat)
  deriving DecidableEq, Repr

/-- A frame in transmission, with the end of its transmission in half microseconds of cell time (R150). -/
structure TxJob where
  frame : TxFrame
  endsAt2 : Nat
  deriving DecidableEq, Repr

/-- The receiver's phase with the characters it has taken of the frame in progress (R179). -/
inductive RxPhase where
  | hunt
  | header (got : List Byte)
  | payload (kind tag : Byte) (length : Nat) (got : List Byte)
  | check (kind tag : Byte) (body : List Byte) (first : Option Byte)
  deriving DecidableEq, Repr

/-- What each port keeps (R146, R147, R150, R179, R180). `setDue` is the set-point place of an actuator port. -/
structure PortState where
  link : LinkState
  lastArrival : Nat
  rx : RxPhase
  gap : Option Nat
  tx : Option TxJob
  notices : List StateNotice
  setDue : Bool
  sendCount : Byte
  deriving DecidableEq, Repr

/-- The values of R162 and R189. -/
def PortState.resetValue : PortState where
  link := .down
  lastArrival := 0
  rx := .hunt
  gap := none
  tx := none
  notices := []
  setDue := false
  sendCount := 0

/-- The kept fields of the cell control word (R183). -/
structure Control where
  holdS : Bool
  holdP : Bool
  holdM : Bool
  holdQ : Bool
  keepOn : Bool
  deriving DecidableEq, Repr

def Control.clear : Control where
  holdS := false
  holdP := false
  holdM := false
  holdQ := false
  keepOn := false

inductive InverterState where
  | ready | running | limiting | tripped
  deriving DecidableEq, Repr

inductive DriveState where
  | ready | enabled | faulted
  deriving DecidableEq, Repr

/-- The kept POWER_REPORT with its arrival's cell time (R156). -/
structure KeptPower where
  power : Nat
  interval : Nat
  state : InverterState
  time : Nat
  deriving DecidableEq, Repr

/-- Which request the answer buffer's contents answer (R186). -/
inductive BufferKind where
  | status
  | summary
  | zone (bankCode : Nat) (position : Option Nat)
  deriving DecidableEq, Repr

/-- The answer buffer: the parts of one answer (R186). -/
structure AnswerBuffer where
  kind : BufferKind
  parts : List (List Byte)
  deriving DecidableEq, Repr

/-- The power and enable of the last POWER_SET sent (R152). -/
structure SentPower where
  power : Nat
  enable : Bool
  deriving DecidableEq, Repr

/-- The four fields of the last QUENCH_SET sent (R154). -/
structure SentQuench where
  mask : SectorMask
  flow : Nat
  flood : Bool
  quenchZone : Option Nat
  deriving DecidableEq, Repr

/-- The link ports. `acks` is the S-port's ACK place, oldest first. -/
structure Lp where
  portS : PortState
  portP : PortState
  portM : PortState
  portQ : PortState
  acks : List Ack
  control : Control
  power : Option KeptPower
  drive : Option DriveState
  quench : Option QuenchReport
  pressureLow : Bool
  quenchantOut : Bool
  powerSend : Option Nat
  quenchSend : Option Nat
  sentPower : Option SentPower
  sentQuench : Option SentQuench
  staging : Option HeaderPart1
  buffer : Option AnswerBuffer
  pendingReset : Bool
  deriving DecidableEq, Repr

/-- The values of R162 and R189. -/
def Lp.resetValue : Lp where
  portS := PortState.resetValue
  portP := PortState.resetValue
  portM := PortState.resetValue
  portQ := PortState.resetValue
  acks := []
  control := Control.clear
  power := none
  drive := none
  quench := none
  pressureLow := false
  quenchantOut := false
  powerSend := none
  quenchSend := none
  sentPower := none
  sentQuench := none
  staging := none
  buffer := none
  pendingReset := false

end Sys2Proof.Machine
end

