-- ==== Sys2Proof/Machine/State.lean ====
section
/-! DEFINITION. The whole state, what can stop a step, and the state after reset. -/

namespace Sys2Proof.Machine

/-- What stops the machine with a fault: nothing. The spec's faults are state (the fault record of R140), and no rule
gives a command that stops the part, so this type has no constructor (assumption 31). -/
inductive Fault : Type
  deriving DecidableEq, Repr

/-- What a step can refuse. -/
inductive Refusal where
  /-- The command has no meaning yet. Safe: nothing is claimed of it. No arm of `exec` answers it. -/
  | notModelled (mnemonic : String)
  deriving DecidableEq, Repr

/-- The part, and the commands waiting for it, first in, first out. `freeCount` is the model's own: it numbers the
draws of free values (assumption 36). -/
structure State where
  pending : List Instr
  cu : Cu
  zt : Zt
  rs : Rs
  pe : Pe
  sq : Sq
  stk : Stk
  lu : Lu
  lp : Lp
  freeCount : Nat
  deriving DecidableEq, Repr

namespace State

def setCu (s : State) (v : Cu) : State := { s with cu := v }
def setZt (s : State) (v : Zt) : State := { s with zt := v }
def setRs (s : State) (v : Rs) : State := { s with rs := v }
def setPe (s : State) (v : Pe) : State := { s with pe := v }
def setSq (s : State) (v : Sq) : State := { s with sq := v }
def setStk (s : State) (v : Stk) : State := { s with stk := v }
def setLu (s : State) (v : Lu) : State := { s with lu := v }
def setLp (s : State) (v : Lp) : State := { s with lp := v }
/-- One draw of a free value has been made. -/
def drawn (s : State) : State := { s with freeCount := s.freeCount + 1 }
def setPending (s : State) (v : List Instr) : State := { s with pending := v }

/-- Right after the first power-on reset of a delivered part: the values of R24, R48, R70, R93, R120, R145, R162, R176
and R189. The encoder lines rest low, the pins are undriven and the rail is at 5 V (assumption 11). -/
def reset : State where
  pending := []
  cu := Cu.resetValue 0 .p0
  zt := Zt.resetValue
  rs := Rs.delivered
  pe := Pe.resetValue 0
  sq := Sq.resetValue 0 5000 false
  stk := Stk.resetValue
  lu := Lu.resetValue (Vector.replicate 8 .undriven)
  lp := Lp.resetValue
  freeCount := 0

end State

end Sys2Proof.Machine
end

