-- ==== Sys2Proof/Machine/Flags.lean ====
section
/-! DEFINITION. The codes of every enumeration and flag byte (R190, R191, R192), and their reading back. -/

namespace Sys2Proof

/-- The port's place in the order S, P, M, Q (R190, R191). -/
def Port.number : Port → Nat
  | .s => 0
  | .p => 1
  | .m => 2
  | .q => 3

/-- Whether a port is an actuator's (07_actuator_exchanges.md). -/
def Port.isActuator : Port → Bool
  | .s => false
  | .p => true
  | .m => true
  | .q => true

/-- Whether a port may change the hold field of port `field` (R183). -/
def Port.mayHold (port field : Port) : Bool := port == .s || port == field

/-- Whether a port may change the quench keep-on field (R183). -/
def Port.mayKeepOn (port : Port) : Bool := port == .s || port == .q

/-- A CONTROL payload's byte read as a control word (R191). -/
def ControlWord.ofByte (b : Byte) : ControlWord where
  holdS := b.getLsbD 0
  holdP := b.getLsbD 1
  holdM := b.getLsbD 2
  holdQ := b.getLsbD 3
  abort := b.getLsbD 4
  run := b.getLsbD 5
  faultClear := b.getLsbD 6
  keepOn := b.getLsbD 7

def ControlWord.hold (w : ControlWord) : Port → Bool
  | .s => w.holdS
  | .p => w.holdP
  | .m => w.holdM
  | .q => w.holdQ

def ControlWord.setHold (w : ControlWord) (v : Bool) : Port → ControlWord
  | .s => { w with holdS := v }
  | .p => { w with holdP := v }
  | .m => { w with holdM := v }
  | .q => { w with holdQ := v }

/-- The scan direction a header carries (R26, R190). -/
def HeaderPart1.direction (h : HeaderPart1) : Machine.Direction := if h.directionCode = 2 then .minus else .plus

/-- Datum mode PROBE (R26, R190). -/
def HeaderPart2.datumProbe (h : HeaderPart2) : Bool := h.datumModeCode == 1

/-- End-probe check ON (R26, R190). -/
def HeaderPart2.endProbeOn (h : HeaderPart2) : Bool := h.endProbeCode == 1

end Sys2Proof

namespace Sys2Proof.Machine

/-- Bits from the least significant upward (R190: item k at bit k). -/
def bitsToNat : List Bool → Nat
  | [] => 0
  | b :: rest => b.toNat + 2 * bitsToNat rest

def SeqState.code : SeqState → Nat
  | .idle => 1
  | .armed => 2
  | .seek => 3
  | .approach _ => 4
  | .heating => 5
  | .dwell _ => 6
  | .runout _ => 7
  | .done => 8
  | .quenchout _ => 9
  | .held => 10
  | .fault _ => 11

def SeqState.phaseCode : SeqState → Nat
  | .approach .travel => 1
  | .approach .wait => 2
  | .dwell .settling => 3
  | .dwell .timing => 4
  | .runout .travel => 1
  | .runout .postQuench => 5
  | .quenchout .travel => 1
  | .quenchout .postQuench => 5
  | .fault .flood => 6
  | .fault .standing => 7
  | .idle => 0
  | .armed => 0
  | .seek => 0
  | .heating => 0
  | .done => 0
  | .held => 0

/-- The motion states (R2). -/
def SeqState.isMotion : SeqState → Bool
  | .seek => true
  | .approach _ => true
  | .heating => true
  | .dwell _ => true
  | .runout _ => true
  | .quenchout _ => true
  | .idle => false
  | .armed => false
  | .done => false
  | .held => false
  | .fault _ => false

/-- HEATING or DWELL, the states in which heat-enable is asserted (R90). -/
def SeqState.isHeat : SeqState → Bool
  | .heating => true
  | .dwell _ => true
  | .idle => false
  | .armed => false
  | .seek => false
  | .approach _ => false
  | .runout _ => false
  | .done => false
  | .quenchout _ => false
  | .held => false
  | .fault _ => false

def SeqState.isFault : SeqState → Bool
  | .fault _ => true
  | .idle => false
  | .armed => false
  | .seek => false
  | .approach _ => false
  | .heating => false
  | .dwell _ => false
  | .runout _ => false
  | .done => false
  | .quenchout _ => false
  | .held => false

/-- The states whose summary is open (R139): a scan is in progress. -/
def SeqState.inScan (st : SeqState) : Bool := st.isMotion || st == .held

def FaultCode.code : FaultCode → Nat
  | .encoder => 1
  | .overtravel => 2
  | .reversal => 3
  | .datum => 4
  | .partLength => 5
  | .spiral => 6
  | .inverter => 7
  | .drive => 8
  | .quenchPressure => 9
  | .coolant => 10
  | .interlock => 11
  | .linkP => 12
  | .linkM => 13
  | .linkQ => 14
  | .supply => 15
  | .aborted => 16

def FaultSource.code : FaultSource → Nat
  | .cu => 1
  | .sq => 2
  | .lu => 3
  | .port w => 4 + w.number

/-- The reasons of START_BLOCKED and the conditions of CONDITION_PRESENT (R190). -/
inductive BlockReason where
  | linkP | linkM | linkQ | quenchant | coilWater | interlock | spindle | inverter | supply | drive
  deriving DecidableEq, Repr

def BlockReason.code : BlockReason → Nat
  | .linkP => 1
  | .linkM => 2
  | .linkQ => 3
  | .quenchant => 4
  | .coilWater => 5
  | .interlock => 6
  | .spindle => 7
  | .inverter => 8
  | .supply => 9
  | .drive => 10

def InverterState.code : InverterState → Nat
  | .ready => 1
  | .running => 2
  | .limiting => 3
  | .tripped => 4

def InverterState.ofCode (c : Nat) : Option InverterState :=
  if c = 1 then some .ready
  else if c = 2 then some .running
  else if c = 3 then some .limiting
  else if c = 4 then some .tripped
  else none

def DriveState.code : DriveState → Nat
  | .ready => 1
  | .enabled => 2
  | .faulted => 3

def DriveState.ofCode (c : Nat) : Option DriveState :=
  if c = 1 then some .ready
  else if c = 2 then some .enabled
  else if c = 3 then some .faulted
  else none

def LinkState.code : LinkState → Nat
  | .down => 0
  | .online => 1
  | .lost => 2

def ZoneKind.code : ZoneKind → Nat
  | .heat => 1
  | .ramp => 2
  | .dwell => 3
  | .gap => 4
  | .finish => 5

def ZoneKind.ofCode (c : Nat) : Option ZoneKind :=
  if c = 1 then some .heat
  else if c = 2 then some .ramp
  else if c = 3 then some .dwell
  else if c = 4 then some .gap
  else if c = 5 then some .finish
  else none

/-- The reason set in two bytes (R190). -/
def Reasons.word (r : Reasons) : Nat :=
  bitsToNat [r.underEnergy, r.overEnergy, r.earlyQuench, r.lateQuench, r.powerLimited, r.holdBreak, r.seam,
    r.quenchant, r.quenchLow, r.flooded]

/-- A slice with one or more reasons is nonconforming (R110). -/
def Reasons.any (r : Reasons) : Bool :=
  r.underEnergy || r.overEnergy || r.earlyQuench || r.lateQuench || r.powerLimited || r.holdBreak || r.seam ||
    r.quenchant || r.quenchLow || r.flooded

def SummaryStatus.code : SummaryStatus → Nat
  | .opened => 1
  | .complete => 2
  | .aborted => 3
  | .faulted => 4
  | .abandoned => 5

def LineEdge.code : LineEdge → Nat
  | .rise => 1
  | .fall => 2

def EdgeSetting.ofCode (c : Nat) : Option EdgeSetting :=
  if c = 1 then some .rise else if c = 2 then some .fall else if c = 3 then some .both else none

/-- Whether an edge setting names a change (R166). -/
def EdgeSetting.takes : EdgeSetting → LineEdge → Bool
  | .rise, .rise => true
  | .rise, .fall => false
  | .fall, .rise => false
  | .fall, .fall => true
  | .both, .rise => true
  | .both, .fall => true

def InputFn.code : InputFn → Nat
  | .datum => 1
  | .endProbe => 2
  | .spindleIndex => 3
  | .coilWater => 4
  | .interlock => 5
  | .general => 6

def InputFn.ofCode (c : Nat) : Option InputFn :=
  if c = 1 then some .datum
  else if c = 2 then some .endProbe
  else if c = 3 then some .spindleIndex
  else if c = 4 then some .coilWater
  else if c = 5 then some .interlock
  else if c = 6 then some .general
  else none

/-- The functions that one line at most may hold (R164). -/
def InputFn.exclusive : InputFn → Bool
  | .datum => true
  | .spindleIndex => true
  | .coilWater => true
  | .interlock => true
  | .endProbe => false
  | .general => false

def OutputFn.code : OutputFn → Nat
  | .mark k => 16 + k.val
  | .heatMirror => 20
  | .quenchOn => 21
  | .fault => 22
  | .done => 23
  | .general => 24

def OutputFn.ofCode (c : Nat) : Option OutputFn :=
  if c = 16 then some (.mark 0)
  else if c = 17 then some (.mark 1)
  else if c = 18 then some (.mark 2)
  else if c = 19 then some (.mark 3)
  else if c = 20 then some .heatMirror
  else if c = 21 then some .quenchOn
  else if c = 22 then some .fault
  else if c = 23 then some .done
  else if c = 24 then some .general
  else none

def LineRole.directionCode : LineRole → Nat
  | .input _ _ _ _ _ => 1
  | .output _ => 2

def LineRole.functionCode : LineRole → Nat
  | .input _ _ _ fn _ => fn.code
  | .output fn => fn.code

def TrimDir.ofCode (c : Nat) : Option TrimDir := if c = 1 then some .faster else if c = 2 then some .slower else none

def EdgeMode.ofCode (c : Nat) : Option EdgeMode :=
  if c = 1 then some .x1 else if c = 2 then some .x2 else if c = 4 then some .x4 else none

/-- A flag or an OFF/ON setting in one byte: 0 or 1 (R190). -/
def flagOfCode (c : Nat) : Option Bool := if c = 0 then some false else if c = 1 then some true else none

def LossPolicy.ofCode (c : Nat) : Option LossPolicy :=
  if c = 0 then some .none else if c = 1 then some .hold else Option.none

def SlotCondition.code : SlotCondition → Nat
  | .empty => 0
  | .valid => 1
  | .corrupt => 2

def RsOp.code : RsOp → Nat
  | .load _ => 1
  | .store _ _ => 2
  | .erase _ => 3
  | .options _ => 4

/-- The slot an operation names (R40: absent for OPTIONS). -/
def RsOp.slot : RsOp → Option Nat
  | .load n => some n.val
  | .store n _ => some n.val
  | .erase n => some n.val
  | .options _ => none

def StartUpStatus.code : StartUpStatus → Nat
  | .none => 0
  | .loading => 1
  | .autoloaded => 2
  | .autoloadFailed => 3
  | .autoloadInvalid _ _ => 4

def StartUpStatus.field : StartUpStatus → Option Nat
  | .autoloadInvalid f _ => some f
  | .none => Option.none
  | .loading => Option.none
  | .autoloaded => Option.none
  | .autoloadFailed => Option.none

def StartUpStatus.zone : StartUpStatus → Option Nat
  | .autoloadInvalid _ z => z
  | .none => Option.none
  | .loading => Option.none
  | .autoloaded => Option.none
  | .autoloadFailed => Option.none

def Status.code : Status → Nat
  | .ok => 0
  | .busy => 1
  | .scanning => 2
  | .role => 3
  | .invalid => 4
  | .protect => 5
  | .resultPending => 6
  | .empty => 7
  | .holdActive => 8
  | .conditionPresent => 9
  | .notArmed => 10
  | .startBlocked => 11
  | .slotInvalid => 12

def HeldFrom.stateCode : HeldFrom → Nat
  | .seek => 3
  | .approach => 4
  | .heating _ => 5
  | .dwell _ => 6

def HeldFrom.brk : HeldFrom → Option Int
  | .heating f => some f
  | .dwell f => some f
  | .seek => none
  | .approach => none

def CaptureSource.code : CaptureSource → Nat
  | .line n => n.val
  | .mark n => 8 + n.val

/-- The control word's byte; the self-clearing fields read clear (R183, R191). -/
def Control.byte (c : Control) : Nat :=
  bitsToNat [c.holdS, c.holdP, c.holdM, c.holdQ, false, false, false, c.keepOn]

/-- The hold field of a port (R183). -/
def Control.hold (c : Control) : Port → Bool
  | .s => c.holdS
  | .p => c.holdP
  | .m => c.holdM
  | .q => c.holdQ

def Control.setHold (c : Control) (v : Bool) : Port → Control
  | .s => { c with holdS := v }
  | .p => { c with holdP := v }
  | .m => { c with holdM := v }
  | .q => { c with holdQ := v }

/-- Whether any hold field is set (R76, R126). -/
def Control.anyHold (c : Control) : Bool := c.holdS || c.holdP || c.holdM || c.holdQ

end Sys2Proof.Machine
end

