-- ==== Sys2Proof/Machine/Coordinate.lean ====
section
/-! DEFINITION. The coordinate unit's own arithmetic: decoding, step, ring, speed, scan distance, frontier, limits,
latency and the capture queue (01_the_scan_coordinate.md). -/

namespace Sys2Proof.Machine

/-! ## Decoding (R3, R4) -/

/-- The phase of a pair of levels (the table before R3). -/
def EncPhase.ofLevels (a b : Bool) : EncPhase :=
  match a, b with
  | false, false => .p0
  | true, false => .p1
  | true, true => .p2
  | false, true => .p3

/-- The next phase in the forward sense. -/
def EncPhase.next : EncPhase → EncPhase
  | .p0 => .p1
  | .p1 => .p2
  | .p2 => .p3
  | .p3 => .p0

/-- How the decoder judges a change of levels against the held phase (R3, R4): no change, a legal transition forward or
backward, or an illegal one. -/
inductive Transition where
  | none | forward | backward | illegal
  deriving DecidableEq, Repr

def judgeTransition (held new : EncPhase) : Transition :=
  if new = held then .none
  else if new = held.next then .forward
  else if held = new.next then .backward
  else .illegal

/-- Whether a legal transition between two phases lies on a boundary the edge mode counts (R3). -/
def EdgeMode.counts (m : EdgeMode) (held new : EncPhase) : Bool :=
  let p01 := (held == .p0 && new == .p1) || (held == .p1 && new == .p0)
  let p23 := (held == .p2 && new == .p3) || (held == .p3 && new == .p2)
  match m with
  | .x1 => p01
  | .x2 => p01 || p23
  | .x4 => true

/-! ## Views -/

/-- The integer coordinate s: the coordinate rounded down (R6). -/
def Cu.s (c : Cu) : Int := c.coord / 65536

/-- The trim quantum J (R6). -/
def Cu.quantum (c : Cu) : Nat := c.scaleK / 1024

/-- The scan distance x (R14). -/
def Cu.x (c : Cu) : Int :=
  match c.direction with
  | .plus => c.s - c.origin
  | .minus => c.origin - c.s

/-! ## The step of a counted edge (R6, R10, R17) -/

/-- Whether the trim accumulator carries at the next counted edge (R6). -/
def Cu.carries (c : Cu) : Bool := 2 ^ 32 ≤ c.trimAcc.toNat + c.trimC.toNat

/-- The step magnitude of the next counted edge, in units of 2^-16 um (R6). -/
def Cu.stepSize (c : Cu) : Nat :=
  if c.carries then
    match c.trimDir with
    | .faster => c.scaleK + c.quantum
    | .slower => c.scaleK - c.quantum
  else c.scaleK

/-- The coordinate held within its range: the held value, and whether the bound acted (R17). -/
def holdCoord (v : Int) : Int × Bool :=
  if v < -(Config.coordBound * 65536) then (-(Config.coordBound * 65536), true)
  else if Config.coordBound * 65536 < v then (Config.coordBound * 65536, true)
  else (v, false)

/-- A stamp added to the ring, newest first; the oldest beyond nine is dropped (R10). -/
def pushStamp (ring : List EdgeStamp) (e : EdgeStamp) : List EdgeStamp := (e :: ring).take Config.ringDepth

/-- The step of a counted edge: accumulator, coordinate, raw count, then the stamp (R6, R10, R16). The second value
says whether the range bound acted (R17). -/
def Cu.stepEdge (up : Bool) (c : Cu) : Cu × Bool :=
  let moved := holdCoord (if up then c.coord + c.stepSize else c.coord - c.stepSize)
  ({ c with
      trimAcc := c.trimAcc + c.trimC
      coord := moved.1
      rawCount := if up then c.rawCount + 1 else c.rawCount - 1
      ring := pushStamp c.ring { time := c.cellTime, coord := moved.1 } }, moved.2)

/-- The frontier after a counted edge (R15). -/
def Cu.advanceFrontier (c : Cu) : Cu := if c.frontier < c.x then { c with frontier := c.x } else c

/-- The frontier set to the current x (R15). -/
def Cu.resetFrontier (c : Cu) : Cu := { c with frontier := c.x }

/-- Whether a travel-limit check finds s beyond the limits; a bounded step counts as beyond (R17). -/
def Cu.beyondLimits (c : Cu) (bounded : Bool) : Bool := bounded || c.s < c.lower || c.upper < c.s

/-! ## Speed (R11, R12) -/

/-- The unsigned-sense speed over the ring, before the direction is applied (R11). -/
def Cu.rawSpeed (c : Cu) : Int :=
  match c.ring.head?, c.ring.getLast? with
  | some newest, some oldest =>
    let dt := newest.time - oldest.time
    ((newest.coord - oldest.coord) * 1000000).tdiv (((if dt = 0 then 1 else dt) * 65536 : Nat) : Int)
  | _, _ => 0

/-- The edge estimate v_edge (R11). -/
def Cu.edgeSpeed (c : Cu) : Int :=
  if c.ring.length < 2 then 0
  else
    match c.direction with
    | .plus => c.rawSpeed
    | .minus => -c.rawSpeed

/-- The decay bound v_dec for a time ts since the newest stamp (R12). -/
def Cu.decaySpeed (c : Cu) (ts : Nat) : Nat := c.scaleK * 1000000 / (65536 * ts)

/-- A speed held within its bounds (R12). -/
def holdSpeed (v : Int) : Int := max (-Config.speedBound) (min Config.speedBound v)

/-- The smaller in magnitude of a signed speed and a bound, with the speed's sign (R12). -/
def limitMagnitude (v : Int) (bound : Nat) : Int :=
  if v.natAbs ≤ bound then v else if v < 0 then -(bound : Int) else (bound : Int)

/-- The speed estimate v at the present instant (R12). -/
def Cu.speed (c : Cu) : Int :=
  match c.ring with
  | newest :: second :: _ =>
    let ts := c.cellTime - newest.time
    let tl := newest.time - second.time
    if Config.standstill ≤ ts then 0
    else if tl < ts then holdSpeed (limitMagnitude c.edgeSpeed (c.decaySpeed ts))
    else holdSpeed c.edgeSpeed
  | _ => 0

/-- The forward speed v_pos (R14). -/
def Cu.forwardSpeed (c : Cu) : Nat := c.speed.toNat

/-! ## Latency, datum and captures (R18 to R22) -/

/-- The compensated coordinate for a latency in us (R18). -/
def Cu.compensated (c : Cu) (latency : Nat) : Int :=
  let run : Int := ((c.forwardSpeed * latency / 1000000 : Nat) : Int)
  match c.direction with
  | .plus => c.s - run
  | .minus => c.s + run

/-- Parts 1 to 3 and 5 of the datum step (R19): coordinate, stamps, frontier, datum-taken. The second value says
whether the range bound acted (R17). -/
def Cu.datumStep (step : Int) (c : Cu) : Cu × Bool :=
  let moved := holdCoord (c.coord + step * 65536)
  (Cu.resetFrontier
    { c with
      coord := moved.1
      ring := c.ring.map (fun e => { e with coord := e.coord + step * 65536 })
      datumTaken := true }, moved.2)

/-- A stamp handed to the capture queue (R21). -/
def Cu.capture (e : CaptureStamp) (c : Cu) : Cu :=
  if c.captures.length < Config.captureDepth then { c with captures := c.captures ++ [e] }
  else { c with overrun := true }

/-- The oldest stamp removed; the overrun is cleared when the queue is left empty (R22). -/
def Cu.dropCapture (c : Cu) : Cu :=
  let rest := c.captures.tail
  { c with captures := rest, overrun := if rest.isEmpty then false else c.overrun }

/-- Origin and direction taken at a commit, and the frontier reset (R13, R15, R38). -/
def Cu.takeHeader (h : RecipeHeader) (c : Cu) : Cu :=
  Cu.resetFrontier { c with origin := h.originCoord, direction := h.direction }

/-! ## Position configuration (R7, R8) -/

/-- The first failing check of R7, by field number. `pitch` is the active slice pitch in ARMED and DONE. -/
def Cu.positionFailure (c : Cu) (pitch : Option Nat) (w : PositionWrite) : Option Nat :=
  let kBad : Bool := match w.scaleK with
    | some k => !(4096 ≤ k && k ≤ 6553600)
    | none => false
  let kPitchBad : Bool := match w.scaleK, pitch with
    | some k, some p => p * 65536 < k
    | _, _ => false
  let trimBad : Bool := match w.trim with
    | some (_, d) => (TrimDir.ofCode d).isNone
    | none => false
  let modeBad : Bool := match w.edgeModeCode with
    | some m => (EdgeMode.ofCode m).isNone
    | none => false
  let invertBad : Bool := match w.invertCode with
    | some v => (flagOfCode v).isNone
    | none => false
  let limitBad (l : Option Int) : Bool := match l with
    | some v => !(-Config.coordBound ≤ v && v ≤ Config.coordBound)
    | none => false
  if kBad then some 60
  else if kPitchBad then some 60
  else if trimBad then some 61
  else if modeBad then some 62
  else if invertBad then some 65
  else if limitBad w.lower then some 63
  else if limitBad w.upper then some 64
  else if (w.upper.getD c.upper) ≤ (w.lower.getD c.lower) then some 64
  else none

/-- An accepted WRITE_POSITION_CONFIG (R8). -/
def Cu.writePosition (w : PositionWrite) (c : Cu) : Cu :=
  let k := w.scaleK.getD c.scaleK
  let mode := (w.edgeModeCode.bind EdgeMode.ofCode).getD c.edgeMode
  let inv := (w.invertCode.bind flagOfCode).getD c.invert
  { c with
    scaleK := k
    trimC := (w.trim.map (·.1)).getD c.trimC
    trimDir := (w.trim.bind (fun t => TrimDir.ofCode t.2)).getD c.trimDir
    edgeMode := mode
    invert := inv
    lower := w.lower.getD c.lower
    upper := w.upper.getD c.upper
    ring := if k = c.scaleK ∧ mode = c.edgeMode ∧ inv = c.invert then c.ring else []
    encoderError := false }

/-- Whether a request carries a field other than trim (R7). -/
def positionBeyondTrim (w : PositionWrite) : Bool :=
  w.scaleK.isSome || w.edgeModeCode.isSome || w.invertCode.isSome || w.lower.isSome || w.upper.isSome

end Sys2Proof.Machine
end

