-- ==== Sys2Proof/Machine/Recipe.lean ====
section
/-! DEFINITION. Banks, zones, commit validation and slots (02_zone_tables_and_the_recipe_store.md), and the zone
lookups that other blocks make in a bank (R53, R56). -/

namespace Sys2Proof.Machine

/-! ## Banks -/

def BankId.other : BankId → BankId
  | .a => .b
  | .b => .a

def Zt.bank (z : Zt) : BankId → Bank
  | .a => z.bankA
  | .b => z.bankB

def Zt.setBank (z : Zt) (v : Bank) : BankId → Zt
  | .a => { z with bankA := v }
  | .b => { z with bankB := v }

/-- The active bank (R28). -/
def Zt.activeBank (z : Zt) : Bank := z.bank z.active

/-- The shadow bank (R28). -/
def Zt.shadowBank (z : Zt) : Bank := z.bank z.active.other

def Zt.setShadow (z : Zt) (v : Bank) : Zt := z.setBank v z.active.other

/-- The marking exchanged; the contents do not move (R38). -/
def Zt.exchange (z : Zt) : Zt := { z with active := z.active.other }

/-- The zones from position 0 up to the first empty position: all of a validated bank's zones (R34). -/
def Bank.zoneList (b : Bank) : List ZoneEntry := (b.zones.toList.takeWhile (·.isSome)).filterMap id

/-- The number of filled positions (R27's zone count). -/
def Bank.zoneCount (b : Bank) : Nat := (b.zones.toList.filter (·.isSome)).length

/-! ## Looking up a scan distance (R53, R56) -/

/-- The highest-numbered zone from number i on whose start is at most y, or `best`. -/
def lastStarted (y : Int) : Nat → Option Nat → List ZoneEntry → Option Nat
  | _, best, [] => best
  | i, best, z :: rest => lastStarted y (i + 1) (if (z.startX : Int) ≤ y then some i else best) rest

/-- The zone that holds scan distance y: none below 0 (R53). -/
def findZone (zones : List ZoneEntry) (y : Int) : Option Nat := if y < 0 then none else lastStarted y 0 none zones

/-- x_end: the start of the last zone (R34). -/
def zonesEnd (zones : List ZoneEntry) : Nat := (zones.getLast?.map (·.startX)).getD 0

/-- Energy per length at y in zone number z, by the zone's kind, the ramp interpolated (R55, R56, R106). A GAP or END
zone gives 0. -/
def energyAt (zones : List ZoneEntry) (z : Nat) (y : Int) : Nat :=
  match zones[z]? with
  | none => 0
  | some zone =>
    let e := zone.energy.getD 0
    match zone.kind with
    | .heat => e
    | .dwell => e
    | .gap => 0
    | .finish => 0
    | .ramp =>
      match zones[z + 1]? with
      | none => e
      | some next =>
        let en : Int := ((next.energy.getD 0 : Nat) : Int)
        ((e : Int) + ((en - e) * (y - zone.startX)).tdiv ((next.startX : Int) - zone.startX)).toNat

/-- The lowest-numbered DWELL zone from number i on (R71, R84). -/
def nextDwellFrom (i : Nat) (zones : List ZoneEntry) : Option Nat :=
  ((zones.drop i).findIdx? (fun z => z.kind == .dwell)).map (· + i)

/-- The number of sectors in a mask (R67). -/
def sectorCount (m : SectorMask) : Nat := ((List.range 8).filter (fun k => m.getLsbD k)).length

/-- Quotient rounded up, for a positive divisor (R1's ceiling). -/
def ceilDiv (a b : Nat) : Nat := (a + b - 1) / b

/-! ## Validation at commit (R33 to R36) -/

/-- A failed check: the field number and, where the check gives one, the zone index (R37, R191). -/
structure CommitFailure where
  field : Nat
  zone : Option Nat
  deriving DecidableEq, Repr

def inRange (lo hi v : Nat) : Bool := lo ≤ v && v ≤ hi

def inRangeInt (lo hi v : Int) : Bool := lo ≤ v && v ≤ hi

/-- Check 2's judgements in the order of the header table, each with its field number (R26, R33). -/
def headerChecks (h : RecipeHeader) : List (Nat × Bool) :=
  [ (1, inRange 1 65535 h.identifier),
    (2, inRange 1 2 h.directionCode),
    (3, h.pitch == 250 || h.pitch == 500 || h.pitch == 1000 || h.pitch == 2000),
    (4, inRange 5000 60000 h.offsetD),
    (5, inRange 1000 800000 h.pMax),
    (6, inRange 10 20000 h.qMax),
    (7, inRange 500 50000 h.vMin),
    (8, inRange h.vMin 50000 h.vMax),
    (9, inRange 500 50000 h.seekSpeed),
    (10, inRange 500 50000 h.approachSpeed),
    (11, inRange 500 50000 h.runoutSpeed),
    (12, inRange 1000 50000 h.runIn),
    (13, inRange 0 5000 h.latencyP),
    (14, inRange 0 200000 h.latencyQ),
    (15, inRange 0 20000 h.prewet),
    (16, inRange 0 30000 h.postQuenchTime),
    (17, inRange 1000 30000 h.floodTime),
    (18, inRange 1 h.qMax h.floodFlow),
    (19, inRange 100 5000 h.reversalTol),
    (20, inRange 1 500 h.energyTol),
    (21, inRange 0 1 h.datumModeCode),
    (22, inRangeInt (-2000000) 2000000 h.datumCoord),
    (23, inRangeInt (-2000000) 2000000 h.originCoord),
    (24, inRange 1000 500000 h.seekLimit),
    (25, inRange 0 5000 h.datumTol),
    (26, inRange 1 1200 h.nMax),
    (27, inRange 1 h.nMax h.nBase),
    (28, inRange 0 2000 h.pressureMin),
    (29, inRangeInt (-500) 1500 h.windowLow && h.windowLow < h.windowHigh),
    (30, inRangeInt (-500) 1500 h.windowHigh),
    (31, inRange 0 1 h.endProbeCode) ]

/-- Checks 1 to 4 (R33). -/
def headerFailure (scaleK : Nat) : Option RecipeHeader → Option CommitFailure
  | none => some ⟨1, none⟩
  | some h =>
    match (headerChecks h).find? (fun c => !c.2) with
    | some c => some ⟨c.1, none⟩
    | none =>
      if 64 < ceilDiv h.offsetD h.pitch + 2 then some ⟨4, none⟩
      else if h.pitch * 65536 < scaleK then some ⟨3, none⟩
      else none

/-- The first empty position that has a filled one after it, from position i on (check 5, R34). -/
def firstGap (i : Nat) : List (Option ZoneEntry) → Option Nat
  | [] => none
  | none :: rest => if rest.any (·.isSome) then some i else none
  | some _ :: rest => firstGap (i + 1) rest

/-- The first zone, from number i on, that satisfies a condition on its number and itself. -/
def firstZone (bad : Nat → ZoneEntry → Bool) : Nat → List ZoneEntry → Option Nat
  | _, [] => none
  | i, z :: rest => if bad i z then some i else firstZone bad (i + 1) rest

/-- The first zone that breaks check 7, given the start before it (R34). -/
def startFailure : Nat → Option Nat → List ZoneEntry → Option Nat
  | _, _, [] => none
  | i, prev, z :: rest =>
    let good : Bool := match prev with
      | none => z.startX == 0
      | some p => p < z.startX
    if good && z.startX ≤ 1600000 then startFailure (i + 1) (some z.startX) rest else some i

/-- Checks 5 to 7 (R34). Where R34's wording allows two zones, assumptions 26 (check 5) and 53 (check 6) say which one is
named. -/
def layoutFailure (b : Bank) : Option CommitFailure :=
  let zones := b.zoneList
  let n := zones.length
  let isEnd (z : ZoneEntry) : Bool := z.kind == .finish
  if b.zoneCount < 2 then some ⟨50, none⟩
  else
    match firstGap 0 b.zones.toList with
    | some i => some ⟨50, some i⟩
    | none =>
      match firstZone (fun i z => isEnd z && i + 1 < n) 0 zones with
      | some i => some ⟨32, some i⟩
      | none =>
        if !((zones.getLast?.map isEnd).getD false) then some ⟨32, some (n - 1)⟩
        else
          match startFailure 0 none zones with
          | some i => some ⟨33, some i⟩
          | none => none

/-- Which fields a kind applies (R27). -/
def ZoneKind.hasEnergy : ZoneKind → Bool
  | .gap => false
  | .heat => true
  | .ramp => true
  | .dwell => true
  | .finish => true

def ZoneKind.hasSpeed : ZoneKind → Bool
  | .heat => true
  | .ramp => true
  | .gap => true
  | .dwell => false
  | .finish => false

def ZoneKind.hasWindow : ZoneKind → Bool
  | .heat => true
  | .ramp => true
  | .dwell => true
  | .gap => false
  | .finish => false

def ZoneKind.hasHelix : ZoneKind → Bool
  | .heat => true
  | .ramp => true
  | .dwell => true
  | .gap => true
  | .finish => false

def ZoneKind.isDwell : ZoneKind → Bool
  | .dwell => true
  | .heat => false
  | .ramp => false
  | .gap => false
  | .finish => false

/-- A field judged: passed over when the kind does not apply it, and failing when it is absent (R35). -/
def fieldOk (applies : Bool) (v : Option Nat) (ok : Nat → Bool) : Bool :=
  !applies || (match v with
    | some n => ok n
    | none => false)

/-- Check 8's judgements of one zone in R35's order, each with its field number. -/
def zoneChecks (h : RecipeHeader) (z : ZoneEntry) : List (Nat × Bool) :=
  [ (34, fieldOk z.kind.hasEnergy z.energy (inRange 0 65535)),
    (35, fieldOk z.kind.hasSpeed z.zoneSpeed (inRange h.vMin h.vMax)),
    (36, fieldOk z.kind.isDwell z.dwellPower (inRange 1 h.pMax)),
    (37, fieldOk z.kind.isDwell z.dwellTime (inRange 1 60000)),
    (39, inRange 0 2500 z.flow),
    (40, fieldOk z.kind.hasWindow z.windowMin (inRange 0 30000)),
    (41, fieldOk z.kind.hasWindow z.windowMax (fun m => inRange 0 30000 m && z.windowMin.getD 0 < m)),
    (42, fieldOk z.kind.hasHelix z.helix (inRange 500 20000)) ]

/-- Check 8, zone by zone from number i on (R35). -/
def fieldFailure (h : RecipeHeader) : Nat → List ZoneEntry → Option CommitFailure
  | _, [] => none
  | i, z :: rest =>
    match (zoneChecks h z).find? (fun c => !c.2) with
    | some c => some ⟨c.1, some i⟩
    | none => fieldFailure h (i + 1) rest

/-- Check 9: the first RAMP that is not followed by a HEAT, RAMP or END zone (R36). -/
def rampFailure : Nat → List ZoneEntry → Option Nat
  | _, [] => none
  | i, z :: rest =>
    let good := z.kind != .ramp || (match rest with
      | next :: _ => next.kind == .heat || next.kind == .ramp || next.kind == .finish
      | [] => false)
    if good then rampFailure (i + 1) rest else some i

/-- Checks 9 to 12 (R36). -/
def neighbourFailure (h : RecipeHeader) (zones : List ZoneEntry) : Option CommitFailure :=
  let slow (z : ZoneEntry) : Bool :=
    z.kind.hasEnergy && 0 < z.energy.getD 0 && h.pMax * 1000 / z.energy.getD 0 < h.vMin
  let fast (z : ZoneEntry) : Bool :=
    z.kind.hasSpeed && h.nMax < ceilDiv (z.zoneSpeed.getD 0 * 60) (z.helix.getD 1)
  let wet (z : ZoneEntry) : Bool := h.qMax < sectorCount z.mask * z.flow
  match rampFailure 0 zones with
  | some i => some ⟨32, some i⟩
  | none =>
    match firstZone (fun _ z => slow z) 0 zones with
    | some i => some ⟨34, some i⟩
    | none =>
      match firstZone (fun _ z => fast z) 0 zones with
      | some i => some ⟨42, some i⟩
      | none =>
        match firstZone (fun _ z => wet z) 0 zones with
        | some i => some ⟨39, some i⟩
        | none => none

/-- Validation of a bank against the coordinate unit's scale K: the first check that fails (R32 to R36). -/
def validate (scaleK : Nat) (b : Bank) : Option CommitFailure :=
  match headerFailure scaleK b.header with
  | some f => some f
  | none =>
    match layoutFailure b with
    | some f => some f
    | none =>
      match b.header with
      | none => some ⟨1, none⟩
      | some h =>
        match fieldFailure h 0 b.zoneList with
        | some f => some f
        | none => neighbourFailure h b.zoneList

/-! ## Writing the shadow bank (R29, R30) -/

/-- A WRITE_ZONE's entry of a given kind: the fields the kind does not apply are dropped (R27, R30). -/
def entryOf (kind : ZoneKind) (w : ZoneWrite) : ZoneEntry where
  kind := kind
  startX := w.startX
  energy := if kind.hasEnergy then w.energy else none
  zoneSpeed := if kind.hasSpeed then w.zoneSpeed else none
  dwellPower := if kind.isDwell then w.dwellPower else none
  dwellTime := if kind.isDwell then w.dwellTime else none
  mask := w.mask
  flow := w.flow
  windowMin := if kind.hasWindow then w.windowMin else none
  windowMax := if kind.hasWindow then w.windowMax else none
  helix := if kind.hasHelix then w.helix else none

def Bank.setZone (b : Bank) (pos : ZonePos) (e : Option ZoneEntry) : Bank := { b with zones := b.zones.set pos e }

/-- A carried header: empty when its identifier is 0 (R26, R29). -/
def joinHeader (p1 : HeaderPart1) (p2 : HeaderPart2) : Option RecipeHeader :=
  if p1.identifier = 0 then none else some { toHeaderPart1 := p1, toHeaderPart2 := p2 }

/-! ## Slots and option copies (R39, R45, R46) -/

/-- Whether the option block in force protects a slot (R39). -/
def Rs.protects (r : Rs) (slot : SlotNo) : Bool := slot.val < r.inForce.protectedCount

def Rs.setSlot (r : Rs) (slot : SlotNo) (v : RecipeSlot) : Rs := { r with slots := r.slots.set slot v }

/-- Whether a LOAD, or a STORE, is in flight (R44). -/
def Rs.loading (r : Rs) : Bool :=
  match r.inFlight with
  | some ⟨.load _, _⟩ => true
  | _ => false

def Rs.storing (r : Rs) : Bool :=
  match r.inFlight with
  | some ⟨.store _ _, _⟩ => true
  | _ => false

/-- Whether one write number is greater than another (R46). -/
def writeGreater (a b : Word32) : Bool :=
  let d := (a - b).toNat
  1 ≤ d && d < 2 ^ 31

/-- The option block put in force at a reset (R46). -/
def chooseOptions (c1 c2 : OptionCopy) : OptionBlock :=
  if c1.checkAgrees && c2.checkAgrees then
    if writeGreater c2.writeNumber c1.writeNumber then c2.options else c1.options
  else if c1.checkAgrees then c1.options
  else if c2.checkAgrees then c2.options
  else OptionBlock.default

/-- Whether an option write goes to the first copy (R46). Both failing is assumption 20. -/
def writesFirst (c1 c2 : OptionCopy) : Bool :=
  if c1.checkAgrees && c2.checkAgrees then writeGreater c2.writeNumber c1.writeNumber
  else !c1.checkAgrees

/-- An option write completed (R46). -/
def Rs.writeCopy (o : OptionBlock) (r : Rs) : Rs :=
  if writesFirst r.copy1 r.copy2 then
    { r with copy1 := { options := o, writeNumber := r.copy2.writeNumber + 1, checkAgrees := true } }
  else { r with copy2 := { options := o, writeNumber := r.copy1.writeNumber + 1, checkAgrees := true } }

/-- A slot's condition established from its check, at the end of a reset (R39). -/
def RecipeSlot.judge (r : RecipeSlot) : RecipeSlot :=
  { r with condition := if r.check = Config.freeImageCheck r.image then r.image.condition else .corrupt }

/-- A slot partly written: image and check are free, but that the check disagrees (R45; assumption 35). -/
def RecipeSlot.torn (draw : Nat) : RecipeSlot :=
  let image := Config.freeTornImage draw
  let check := Config.freeTornCheck draw
  { image := image
    check := if check = Config.freeImageCheck image then check + 1 else check
    condition := .corrupt }

/-- Whether a power-on reset now would leave a slot partly written (R45). -/
def Rs.tears (r : Rs) : Bool :=
  match r.inFlight with
  | none => false
  | some f =>
    match f.op with
    | .load _ => false
    | .store _ _ => true
    | .erase _ => true
    | .options _ => false

/-- What a power-on reset leaves of the operation in flight (R45). -/
def Rs.interrupt (draw : Nat) (r : Rs) : Rs :=
  match r.inFlight with
  | none => r
  | some f =>
    match f.op with
    | .load _ => r
    | .store slot _ => r.setSlot slot (RecipeSlot.torn draw)
    | .erase slot => r.setSlot slot (RecipeSlot.torn draw)
    | .options _ =>
      if writesFirst r.copy1 r.copy2 then { r with copy1 := { r.copy1 with checkAgrees := false } }
      else { r with copy2 := { r.copy2 with checkAgrees := false } }

end Sys2Proof.Machine
end

