-- ==== Sys2Proof/Machine/SetPoints.lean ====
section
/-! DEFINITION. The profile engine's arithmetic: from what an update reads to a complete set of set-points
(03_set_point_computation.md). -/

namespace Sys2Proof.Machine

/-- What the engine reads at an update (R50), besides its own latch. -/
structure PeInput where
  st : SeqState
  dwellZone : Option Nat
  frontier : Int
  vPos : Nat
  keepOn : Bool
  zones : List ZoneEntry

/-- The power look-ahead point x_p (R52). -/
def PeInput.lookPower (r : PeInput) (h : RecipeHeader) : Int :=
  r.frontier + ((r.vPos * h.latencyP / 1000000 : Nat) : Int)

/-- The quench look-ahead point x_q (R52). -/
def PeInput.lookQuench (r : PeInput) (h : RecipeHeader) : Int :=
  r.frontier - (h.offsetD : Int) + ((r.vPos * h.latencyQ / 1000000 : Nat) : Int)

/-- The heating zone (R54). -/
def PeInput.heatingZone (r : PeInput) (h : RecipeHeader) : Option Nat := findZone r.zones (r.lookPower h)

/-- The energy target E (R55, R56). -/
def PeInput.energy (r : PeInput) (h : RecipeHeader) : Nat :=
  match r.heatingZone h with
  | none => 0
  | some z => energyAt r.zones z (r.lookPower h)

/-- The raw power P_raw (R57). -/
def PeInput.rawPower (r : PeInput) (h : RecipeHeader) : Nat := r.energy h * r.vPos / 1000

/-- The dwell power of the zone the sequencer names (R59). -/
def PeInput.dwellPower (r : PeInput) : Nat := ((r.dwellZone.bind (fun z => r.zones[z]?)).bind (·.dwellPower)).getD 0

/-- The power set-point of each state (R57, R59). -/
def PeInput.power (r : PeInput) (h : RecipeHeader) : Nat :=
  match r.st with
  | .heating => min (r.rawPower h) h.pMax
  | .dwell _ => r.dwellPower
  | .idle => 0
  | .armed => 0
  | .seek => 0
  | .approach _ => 0
  | .runout _ => 0
  | .done => 0
  | .quenchout _ => 0
  | .held => 0
  | .fault _ => 0

/-- The power-limited indication (R58). -/
def PeInput.limited (r : PeInput) (h : RecipeHeader) : Bool := r.st == .heating && h.pMax < r.rawPower h

/-- A zone's speed for the carriage: its v_z where its kind holds one, else v_min (R60). -/
def zoneSpeedOr (vMin : Nat) (z : ZoneEntry) : Nat := if z.kind.hasSpeed then z.zoneSpeed.getD vMin else vMin

/-- The speed zone speed v_s (R60). -/
def PeInput.zoneSpeed (r : PeInput) (h : RecipeHeader) : Nat :=
  (r.zones[(r.heatingZone h).getD 0]?.map (zoneSpeedOr h.vMin)).getD h.vMin

/-- The speed limit v_lim (R60). -/
def PeInput.speedLimit (r : PeInput) (h : RecipeHeader) : Nat :=
  if 0 < r.energy h then h.pMax * 1000 / r.energy h else r.zoneSpeed h

/-- The carriage speed set-point, in the scan sense (R61, R62). -/
def PeInput.speed (r : PeInput) (h : RecipeHeader) : Nat :=
  match r.st with
  | .heating => min (r.zoneSpeed h) (r.speedLimit h)
  | .seek => h.seekSpeed
  | .approach .travel => h.approachSpeed
  | .approach .wait => 0
  | .dwell _ => 0
  | .runout .travel => h.runoutSpeed
  | .runout .postQuench => 0
  | .quenchout .travel => h.runoutSpeed
  | .quenchout .postQuench => 0
  | .idle => 0
  | .armed => 0
  | .done => 0
  | .held => 0
  | .fault _ => 0

/-- The helix pitch of the spindle zone for a heating zone (R63). -/
def spindleHelix (zones : List ZoneEntry) (heatingZone : Option Nat) : Nat :=
  let z := match heatingZone with
    | none => zones[0]?
    | some i =>
      match zones[i]? with
      | some e => if e.kind.hasHelix then some e else zones[zones.length - 2]?
      | none => none
  (z.bind (·.helix)).getD 1

/-- The spindle set-point that R63 computes for a carriage speed set-point. -/
def PeInput.spindleFor (r : PeInput) (h : RecipeHeader) (speed : Nat) : Nat :=
  min (max (ceilDiv (max r.vPos speed * 60) (spindleHelix r.zones (r.heatingZone h))) h.nBase) h.nMax

/-- The spindle set-point (R64). -/
def PeInput.spindle (r : PeInput) (h : RecipeHeader) : Nat :=
  match r.st with
  | .approach _ => r.spindleFor h (r.speed h)
  | .heating => r.spindleFor h (r.speed h)
  | .dwell _ => r.spindleFor h (r.speed h)
  | .runout _ => r.spindleFor h (r.speed h)
  | .quenchout _ => r.spindleFor h (r.speed h)
  | .seek => h.nBase
  | .held => h.nBase
  | .idle => 0
  | .armed => 0
  | .done => 0
  | .fault _ => 0

/-- HEATING, DWELL, RUNOUT or QUENCHOUT: the states in which the spray can be latched on (R65). -/
def SeqState.sprays : SeqState → Bool
  | .heating => true
  | .dwell _ => true
  | .runout _ => true
  | .quenchout _ => true
  | .idle => false
  | .armed => false
  | .seek => false
  | .approach _ => false
  | .done => false
  | .held => false
  | .fault _ => false

/-- The quench-on latch after an update, from its value before (R65). -/
def PeInput.latch (r : PeInput) (h : RecipeHeader) (before : Bool) : Bool :=
  r.st.sprays && (before || -(h.prewet : Int) ≤ r.lookQuench h)

/-- The quench zone under a set latch (R66). -/
def PeInput.latchedZone (r : PeInput) (h : RecipeHeader) : Option Nat :=
  let xq := r.lookQuench h
  if xq < -(h.prewet : Int) then some (r.zones.length - 1)
  else if xq < 0 then some 0
  else findZone r.zones xq

/-- The quench set-points (R67, R68). -/
structure QuenchPoints where
  mask : SectorMask
  flow : Nat
  flood : Bool
  zone : Option Nat
  deriving DecidableEq, Repr

def QuenchPoints.off : QuenchPoints where
  mask := 0
  flow := 0
  flood := false
  zone := none

/-- The pattern of a zone: its mask, and its count of sectors times its flow (R66, R67). -/
def zonePattern (zones : List ZoneEntry) (z : Option Nat) : QuenchPoints :=
  match z.bind (fun i => zones[i]?) with
  | some e => { mask := e.mask, flow := sectorCount e.mask * e.flow, flood := false, zone := z }
  | none => QuenchPoints.off

/-- The quench set-points of each state, given the latch after the update (R68). -/
def PeInput.quench (r : PeInput) (h : RecipeHeader) (latch : Bool) : QuenchPoints :=
  match r.st with
  | .fault .flood => { mask := 0xFF, flow := h.floodFlow, flood := true, zone := none }
  | .done => if r.keepOn then zonePattern r.zones (some (r.zones.length - 1)) else QuenchPoints.off
  | .heating => if latch then zonePattern r.zones (r.latchedZone h) else QuenchPoints.off
  | .dwell _ => if latch then zonePattern r.zones (r.latchedZone h) else QuenchPoints.off
  | .runout _ => if latch then zonePattern r.zones (r.latchedZone h) else QuenchPoints.off
  | .quenchout _ => if latch then zonePattern r.zones (r.latchedZone h) else QuenchPoints.off
  | .fault .standing => QuenchPoints.off
  | .idle => QuenchPoints.off
  | .armed => QuenchPoints.off
  | .seek => QuenchPoints.off
  | .approach _ => QuenchPoints.off
  | .held => QuenchPoints.off

/-- The results of an update in which no recipe is in force: IDLE (R54, R59, R62, R64, R68). -/
def Pe.noRecipe (frontier : Int) (old : Pe) : Pe :=
  { Pe.resetValue 0 with nextUpdate := old.nextUpdate, readFrontier := frontier }

/-- A complete update: the held results replaced whole (R49, R51). Without an active header no recipe is in force
(assumption 30). -/
def computePe (r : PeInput) (header : Option RecipeHeader) (old : Pe) : Pe :=
  match r.st, header with
  | .idle, _ => Pe.noRecipe r.frontier old
  | _, none => Pe.noRecipe r.frontier old
  | _, some h =>
    let latch := r.latch h old.latch
    let q := r.quench h latch
    { nextUpdate := old.nextUpdate
      power := r.power h
      enable := r.st.isHeat
      heatingZone := r.heatingZone h
      powerLimited := r.limited h
      speed := r.speed h
      stop := r.speed h == 0
      spindle := r.spindle h
      mask := q.mask
      flow := q.flow
      flood := q.flood
      quenchZone := q.zone
      latch := latch
      readFrontier := r.frontier }

/-- Quench is commanded on by the latest update: the latch, or the keep-on spray in DONE (R134, R168). -/
def Pe.quenchOn (p : Pe) : Bool := p.latch || p.quenchZone.isSome

end Sys2Proof.Machine
end

