-- ==== Sys2Proof/Machine/Track.lean ====
section
/-! DEFINITION. The slice tracker: opening, closing and retiring slices, energy, verdicts, exceptions and the summary
(05_the_slice_track_and_shaft_results.md). -/

namespace Sys2Proof.Machine

/-- What the tracker reads of the active bank (R95 to R109). -/
structure TrackRecipe where
  pitch : Nat
  offsetD : Nat
  energyTol : Nat
  zones : List ZoneEntry

/-- The tracker's recipe in the active bank; without a header nothing opens (assumption 30). -/
def trackRecipe (b : Bank) : TrackRecipe where
  pitch := (b.header.map (·.pitch)).getD 1000
  offsetD := (b.header.map (·.offsetD)).getD 0
  energyTol := (b.header.map (·.energyTol)).getD 0
  zones := b.zoneList

/-- A sum of energies, held at 2^48 - 1 (R104). -/
def addEnergy (a b : Nat) : Nat := min (a + b) Config.energyBound

/-- A count plus n, held at 2^32 - 1 (R115). -/
def addCount (c n : Nat) : Nat := min (c + n) Config.countBound

/-- A minimum and maximum taking a value into account; present from the first value on (R115). -/
def widen (v : Option Nat) (old : Option (Nat × Nat)) : Option (Nat × Nat) :=
  match v with
  | none => old
  | some n =>
    match old with
    | none => some (n, n)
    | some (lo, hi) => some (min lo n, max hi n)

/-! ## Slices (R95, R96) -/

def SliceRecord.isOpen (r : SliceRecord) : Bool := r.closeTime.isNone

/-- The quench arrival point of slice j (R95). -/
def TrackRecipe.arrivalPoint (c : TrackRecipe) (j : Nat) : Nat := (j + 1) * c.pitch + c.offsetD

/-- The midpoint of slice j (R95). -/
def TrackRecipe.midpoint (c : TrackRecipe) (j : Nat) : Nat := j * c.pitch + c.pitch / 2

/-- The number of trackable slices, ceil(x_end / p) (R95). -/
def TrackRecipe.sliceCount (c : TrackRecipe) : Nat := ceilDiv (zonesEnd c.zones) c.pitch

/-- A zone's kind of slice (R95). -/
def ZoneKind.sliceKind : ZoneKind → SliceKind
  | .heat => .heated
  | .ramp => .heated
  | .dwell => .heated
  | .gap => .gap
  | .finish => .gap

/-- The record of slice j as it opens, without the flags of R102 and R103. -/
def newSlice (c : TrackRecipe) (j : Nat) : SliceRecord :=
  let z := (findZone c.zones (c.midpoint j)).getD 0
  { index := j
    kind := (c.zones[z]?.map (fun e => e.kind.sliceKind)).getD .gap
    zone := z
    energy := 0
    target := none
    closeTime := none
    flags := SliceFlags.empty }

/-- Whether any slice is open (R97). -/
def Stk.anyOpen (k : Stk) : Bool := k.track.any SliceRecord.isOpen

/-- The open summary changed; a closed or absent one kept. -/
def Stk.onOpenSummary (f : Summary → Summary) (k : Stk) : Stk :=
  match k.summary with
  | some u => if u.status == .opened then { k with summary := some (f u) } else k
  | none => k

/-- The open slice changed. -/
def Stk.onOpenSlice (f : SliceRecord → SliceRecord) (k : Stk) : Stk :=
  { k with track := k.track.map (fun r => if r.isOpen then f r else r) }

/-! ## Closing (R98, R106) -/

/-- The target of a slice as it closes (R106). -/
def sliceTarget (c : TrackRecipe) (account : Option (Nat × Nat)) (r : SliceRecord) : Option Nat :=
  match r.kind with
  | .gap => none
  | .heated =>
    let base := energyAt c.zones r.zone (c.midpoint r.index) * c.pitch
    match account with
    | some (j, e) => some (if j = r.index then addEnergy base e else base)
    | none => some base

/-- The open slice, if one is open, closed at an instant: close time and target fixed, HOLD_BREAK added for a hold,
the dwell account that names it emptied (R98, R102, R106). -/
def Stk.closeOpen (c : TrackRecipe) (now : Nat) (brk : Bool) (k : Stk) : Stk :=
  let close (r : SliceRecord) : SliceRecord :=
    { r with
      closeTime := some now
      target := sliceTarget c k.dwellAccount r
      flags := { r.flags with holdBreak := r.flags.holdBreak || brk } }
  let named : Bool := match k.dwellAccount with
    | some (j, _) => k.track.any (fun r => r.isOpen && r.index == j)
    | none => false
  { k with
    track := k.track.map (fun r => if r.isOpen then close r else r)
    dwellAccount := if named then none else k.dwellAccount }

/-- The close at the far boundary (R98). -/
def Stk.closeAtBoundary (c : TrackRecipe) (f : Int) (now : Nat) (k : Stk) : Stk :=
  if k.track.any (fun r => r.isOpen && (((r.index + 1) * c.pitch : Nat) : Int) ≤ f) then k.closeOpen c now false else k

/-! ## Verdicts (R107, R109, R110) -/

/-- The energy ratio of a HEATED slice, absent for a target of 0 (R107). -/
def energyRatio (r : SliceRecord) : Option Nat :=
  match r.kind, r.target with
  | .heated, some t => if t = 0 then none else some (r.energy * 1000 / t)
  | .heated, none => none
  | .gap, _ => none

/-- Whether a HEATED slice's energy misses its target by more than the tolerance (R107). -/
def energyMissed (tol : Nat) (r : SliceRecord) : Bool :=
  match r.kind with
  | .gap => false
  | .heated =>
    let t := r.target.getD 0
    if t = 0 then 0 < r.energy
    else tol * t < ((r.energy : Int) - (t : Int)).natAbs * 1000

/-- The transfer interval of a slice judged on it (R108, R109). -/
def judgedInterval (r : SliceRecord) (quenchTime : Nat) (flooded : Bool) : Option Nat :=
  match r.kind, flooded with
  | .heated, false => some ((quenchTime - r.closeTime.getD 0) / 1000)
  | .heated, true => none
  | .gap, _ => none

/-- The reason set of a departing slice, its quench-condition flags already added (R110). -/
def reasonsOf (c : TrackRecipe) (r : SliceRecord) (interval : Option Nat) (flooded : Bool) : Reasons :=
  let zone := c.zones[r.zone]?
  let missed := energyMissed c.energyTol r
  let low := (zone.bind (·.windowMin)).getD 0
  let high := (zone.bind (·.windowMax)).getD 0
  { underEnergy := missed && r.energy < r.target.getD 0
    overEnergy := missed && r.target.getD 0 < r.energy
    earlyQuench := (interval.map (fun i => decide (i < low))).getD false
    lateQuench := (interval.map (fun i => decide (high < i))).getD false
    powerLimited := r.flags.powerLimited
    holdBreak := r.flags.holdBreak
    seam := r.flags.seam
    quenchant := r.flags.quenchant
    quenchLow := r.flags.quenchLow
    flooded := flooded }

def ReasonCounts.add (n : ReasonCounts) (r : Reasons) (dwell : Bool) : ReasonCounts where
  underEnergy := addCount n.underEnergy r.underEnergy.toNat
  overEnergy := addCount n.overEnergy r.overEnergy.toNat
  earlyQuench := addCount n.earlyQuench r.earlyQuench.toNat
  lateQuench := addCount n.lateQuench r.lateQuench.toNat
  powerLimited := addCount n.powerLimited r.powerLimited.toNat
  holdBreak := addCount n.holdBreak r.holdBreak.toNat
  seam := addCount n.seam r.seam.toNat
  quenchant := addCount n.quenchant r.quenchant.toNat
  quenchLow := addCount n.quenchLow r.quenchLow.toNat
  flooded := addCount n.flooded r.flooded.toNat
  dwell := addCount n.dwell dwell.toNat

/-- The summary's update at a departure (R115). -/
def Summary.count (r : SliceRecord) (reasons : Reasons) (interval : Option Nat) (u : Summary) : Summary :=
  { u with
    total := addCount u.total 1
    conforming := if reasons.any then u.conforming else addCount u.conforming 1
    nonconforming := if reasons.any then addCount u.nonconforming 1 else u.nonconforming
    counts := u.counts.add reasons r.flags.dwell
    firstNonconforming :=
      if reasons.any && u.firstNonconforming.isNone then some r.index else u.firstNonconforming
    ratio := widen (energyRatio r) u.ratio
    interval := widen interval u.interval }

/-- The exception record of a nonconforming slice, kept while fewer than 32 are held (R112). -/
def Stk.except (e : ExceptionRecord) (k : Stk) : Stk :=
  if k.exceptions.length < Config.exceptionDepth then { k with exceptions := k.exceptions ++ [e] }
  else k.onOpenSummary (fun u => { u with detailIncomplete := true })

/-- The two quench-condition indications a departure reads (R110, R160). -/
structure QuenchCondition where
  pressureLow : Bool
  quenchantOut : Bool

/-- One departure: flags, verdict, summary and exception together (R108, R110, R112, R115). The record is not on the
track any more. -/
def Stk.depart (c : TrackRecipe) (q : QuenchCondition) (now : Nat) (flooded : Bool) (r : SliceRecord) (k : Stk) :
    Stk :=
  let r := { r with
    flags := { r.flags with
      quenchLow := r.flags.quenchLow || q.pressureLow
      quenchant := r.flags.quenchant || q.quenchantOut } }
  let interval := judgedInterval r now flooded
  let reasons := reasonsOf c r interval flooded
  let k := k.onOpenSummary (Summary.count r reasons interval)
  if reasons.any then
    k.except
      { index := r.index, zone := r.zone, reasons := reasons, energy := r.energy, target := r.target,
        interval := interval, closeTime := r.closeTime.getD 0 }
  else k

/-- Departures at a new frontier, oldest first, until the oldest record is open or not reached (R108). -/
def Stk.retire (c : TrackRecipe) (q : QuenchCondition) (f : Int) (now : Nat) : List SliceRecord → Stk → Stk
  | [], k => { k with track := [] }
  | r :: rest, k =>
    if !r.isOpen && ((c.arrivalPoint r.index : Nat) : Int) ≤ f then
      Stk.retire c q f now rest (k.depart c q now false r)
    else { k with track := r :: rest }

/-- Every record leaves in a flood, oldest first (R111). -/
def Stk.floodAll (c : TrackRecipe) (q : QuenchCondition) (now : Nat) : List SliceRecord → Stk → Stk
  | [], k => { k with track := [] }
  | r :: rest, k => Stk.floodAll c q now rest (k.depart c q now true r)

/-! ## Opening (R99, R102, R103) -/

/-- Whether slice j lies above the high-water index (R99). -/
def Stk.aboveHighWater (k : Stk) (j : Nat) : Bool :=
  match k.highWater with
  | none => true
  | some h => h < j

/-- Slice j opened: appended, the high-water index moved, SEAM with the skipped slices, DWELL (R99, R102, R103). -/
def Stk.openSlice (c : TrackRecipe) (j : Nat) (k : Stk) : Stk :=
  let r := newSlice c j
  let dwell : Bool := match k.dwellAccount with
    | some (d, _) => d == j
    | none => false
  let r := { r with flags := { r.flags with seam := k.seam.isSome, dwell := dwell } }
  let k := { k with track := k.track ++ [r], highWater := some j }
  match k.seam with
  | none => k
  | some b => { k.onOpenSummary (fun u => { u with skipped := addCount u.skipped (j - b - 1) }) with seam := none }

/-- The opening test at a frontier (R99). -/
def Stk.tryOpen (c : TrackRecipe) (f : Int) (k : Stk) : Stk :=
  let j := f.toNat / c.pitch
  if k.heating && !k.anyOpen && 0 ≤ f && k.aboveHighWater j && j * c.pitch < zonesEnd c.zones then k.openSlice c j
  else k

/-! ## The notices -/

/-- Parts 1 and 2 of a frontier advance notice: close and departures (R98, R108). -/
def Stk.advance (c : TrackRecipe) (q : QuenchCondition) (f : Int) (now : Nat) (k : Stk) : Stk :=
  let k := k.closeAtBoundary c f now
  Stk.retire c q f now k.track k

/-- The heating-start notice (R100). -/
def Stk.heatingStart (c : TrackRecipe) (f : Int) (k : Stk) : Stk :=
  if k.heating then k else Stk.tryOpen c f { k with heating := true }

/-- The heating-end notice (R101). -/
def Stk.heatingEnd (c : TrackRecipe) (now : Nat) (k : Stk) : Stk :=
  let k := { k.closeOpen c now false with heating := false }
  match k.seam with
  | none => k
  | some b =>
    { k.onOpenSummary (fun u => { u with skipped := addCount u.skipped (c.sliceCount - 1 - b) }) with seam := none }

/-- The hold-break notice (R102). -/
def Stk.holdBreak (c : TrackRecipe) (now : Nat) (k : Stk) : Stk :=
  let k := k.closeOpen c now true
  { k with heating := false, seam := k.highWater }

/-- The dwell notice for a zone with this power and time (R103). -/
def Stk.dwellNotice (c : TrackRecipe) (power time : Nat) (f : Int) (k : Stk) : Stk :=
  let d := f.toNat / c.pitch
  let k := k.onOpenSlice (fun r => if r.index = d then { r with flags := { r.flags with dwell := true } } else r)
  { k with
    dwellAccount := match k.dwellAccount with
      | some (j, e) => if j = d then some (d, e + power * time) else some (d, power * time)
      | none => some (d, power * time) }

/-- The flood-start notice (R111). -/
def Stk.floodStart (c : TrackRecipe) (q : QuenchCondition) (now : Nat) (k : Stk) : Stk :=
  let k := k.closeOpen c now false
  { Stk.floodAll c q now k.track k with heating := false, seam := none, dwellAccount := none }

/-- The energy of a report, in mJ (R104). -/
def reportEnergy (power interval : Nat) : Nat := power * min interval 5000 / 1000

/-- The energy credit (R104). -/
def Stk.credit (e : Nat) (k : Stk) : Stk :=
  if k.anyOpen then k.onOpenSlice (fun r => { r with energy := addEnergy r.energy e })
  else k.onOpenSummary (fun u => { u with unassigned := addEnergy u.unassigned e })

/-- The power-limited notice (R105). -/
def Stk.powerLimited (k : Stk) : Stk :=
  k.onOpenSlice (fun r => { r with flags := { r.flags with powerLimited := true } })

/-- The summary-open notice (R116). -/
def Stk.openSummary (scanNumber : Word32) (identifier : Nat) (k : Stk) : Stk :=
  { k with
    exceptions := []
    summary := some (Summary.opening scanNumber identifier)
    heating := false
    highWater := none
    seam := none
    dwellAccount := none }

/-- The summary-close notice (R117). -/
def Stk.closeSummary (status : SummaryStatus) (code : Option FaultCode) (k : Stk) : Stk :=
  { k with summary := k.summary.map (fun u => { u with status := status, faultCode := code }) }

/-- The datum drift of an edge's error (R20). -/
def Stk.noteDrift (tolerance : Nat) (error : Int) (k : Stk) : Stk :=
  k.onOpenSummary (fun u =>
    let d := match u.drift with
      | none => error.natAbs
      | some old => max old error.natAbs
    { u with drift := some d, datumDrift := u.datumDrift || tolerance < d })

/-- Whether the summary is OPEN (R114). -/
def Stk.summaryOpen (k : Stk) : Bool :=
  match k.summary with
  | some u => u.status == .opened
  | none => false

/-- Whether the summary is closed and unread (R76, R118). -/
def Stk.resultPending (k : Stk) : Bool :=
  match k.summary with
  | some u => u.status != .opened && !u.read
  | none => false

/-- The oldest exception record removed, and counted as delivered (R113). -/
def Stk.dropException (k : Stk) : Stk :=
  { k with
    exceptions := k.exceptions.tail
    summary := k.summary.map (fun u => { u with delivered := addCount u.delivered 1 }) }

/-- READ_SUMMARY's mark on a closed summary (R118). -/
def Stk.markRead (k : Stk) : Stk :=
  { k with summary := k.summary.map (fun u => if u.status == .opened then u else { u with read := true }) }

end Sys2Proof.Machine
end

