-- ==== Sys2Proof/Machine/LineUnit.lean ====
section
/-! DEFINITION. The line unit's own operations: pins, filters, functions, marks and the spindle measurement
(08_auxiliary_lines_marks_and_the_spindle.md). -/

namespace Sys2Proof.Machine

/-- The level an IN line's pin reads now (R163). -/
def Line.pin (n : Line) : Bool := pinReads n.pullUp n.drive

def Lu.setLine (u : Lu) (k : LineNo) (v : Line) : Lu := { u with lines := u.lines.set k v }

def Lu.setMark (u : Lu) (k : MarkNo) (v : Mark) : Lu := { u with marks := u.marks.set k v }

/-- A line's input function, for an IN line (R163). -/
def Line.inputFn (n : Line) : Option InputFn :=
  match n.role with
  | .input _ _ _ fn _ => some fn
  | .output _ => none

/-- Whether a line of a function is configured and its filtered level is low (R76, R143). -/
def Lu.functionLow (u : Lu) (fn : InputFn) : Bool := u.lines.toList.any (fun n => n.inputFn == some fn && !n.filtered)

/-- Whether the spindle is ready against a set-point (R174). -/
def Lu.spindleReady (u : Lu) (setPoint : Nat) : Bool :=
  match u.rpm with
  | none => false
  | some r => setPoint * 9 ≤ r * 10

/-! ## Filters (R166) -/

/-- A change of what the outside does to a line's pin (R166). -/
def Line.pinChange (now : Nat) (drive : PinDrive) (n : Line) : Line :=
  let m := { n with drive := drive }
  match n.role with
  | .output _ => m
  | .input _ filter _ _ _ =>
    if m.pin = n.pin then m
    else if m.pin = n.filtered then { m with filterTimer := none }
    else { m with filterTimer := some (now + filter) }

/-- The edge of a change to a level (R166). -/
def edgeTo (level : Bool) : LineEdge := if level then .rise else .fall

/-- The filter's acceptance of the pin's level (R166). -/
def Line.accept (n : Line) : Line := { n with filtered := n.pin, filterTimer := none }

/-! ## Configuration (R164, R165) -/

/-- A field judged: its value when it is present and good, else its field number (R164). -/
def judged {α : Type} (field : Nat) (v : Option α) : Except Nat α :=
  match v with
  | some x => .ok x
  | none => .error field

/-- A number within a range (R163). -/
def within (lo hi : Nat) (v : Nat) : Option Nat := if lo ≤ v ∧ v ≤ hi then some v else none

/-- The configuration a WRITE_LINE_CONFIG carries, or the first field that fails, in the order of R163's table.
The fields of the other direction are ignored unjudged (R164, assumption 47). -/
def readRole (w : LineWrite) : Except Nat (Bool × LineRole) := do
  if w.directionCode = 1 then
    let pullUp ← judged 71 (flagOfCode w.pullUpCode)
    let edge ← judged 72 (w.edgeCode.bind EdgeSetting.ofCode)
    let filter ← judged 73 (w.filter.bind (within 0 1000))
    let latency ← judged 74 (w.latency.bind (within 0 10000))
    let fn ← judged 75 (w.inputCode.bind InputFn.ofCode)
    let capture ← judged 76 (w.captureCode.bind flagOfCode)
    pure (pullUp, .input edge filter latency fn capture)
  else if w.directionCode = 2 then
    let pullUp ← judged 71 (flagOfCode w.pullUpCode)
    let fn ← judged 77 (w.outputCode.bind OutputFn.ofCode)
    pure (pullUp, .output fn)
  else .error 70

/-- Whether another line already holds an exclusive function that a role carries (R164). -/
def Lu.functionTaken (u : Lu) (k : LineNo) (role : LineRole) : Bool :=
  match role with
  | .output _ => false
  | .input _ _ _ fn _ => fn.exclusive && (List.finRange 8).any (fun j => j != k && u.lines[j].inputFn == some fn)

def LineRole.isIndex : LineRole → Bool
  | .input _ _ _ fn _ => fn == .spindleIndex
  | .output _ => false

/-- A line's configuration replaced whole; an IN line takes its pin's level with no edge (R165). -/
def Line.configure (pullUp : Bool) (role : LineRole) (n : Line) : Line :=
  { n with pullUp := pullUp, role := role, filtered := pinReads pullUp n.drive, filterTimer := none }

/-- The four spindle items absent; the withdrawal timer is not named and runs on (R165). -/
def Lu.forgetSpindle (u : Lu) : Lu := { u with prevIndexTime := none, indexFrontier := none, rpm := none, travel := none }

/-- Whether a write removes SPINDLE_INDEX from a line or gives it to one (R165). -/
def movesIndex (old new : LineRole) : Bool := old.isIndex != new.isIndex

/-- An accepted WRITE_LINE_CONFIG (R165). -/
def Lu.configure (k : LineNo) (pullUp : Bool) (role : LineRole) (u : Lu) : Lu :=
  let old := u.lines[k]
  let v := u.setLine k (old.configure pullUp role)
  if movesIndex old.role role then v.forgetSpindle else v

/-! ## Marks (R170 to R172) -/

/-- A mark's replacement, or the first field that fails in the order of R170's table. The pulse timer is
kept. In ONCE an add value is dropped unjudged (assumption 48). -/
def readMark (w : MarkWrite) (old : Mark) : Except Nat Mark := do
  let enable ← judged 80 (flagOfCode w.enableCode)
  let target ← judged 81
    (if -Config.targetBound ≤ w.target ∧ w.target ≤ Config.targetBound then some w.target else none)
  let mode ← (if w.modeCode = 1 then .ok MarkMode.once
    else if w.modeCode = 2 then (judged 83 (w.addValue.bind (within 100 1600000))).map MarkMode.repeating
    else .error 82)
  let width ← judged 84 (within 1 1000 w.width)
  let stamp ← judged 85 (flagOfCode w.stampCode)
  pure { enable := enable, target := target, mode := mode, width := width, stamp := stamp, pulse := old.pulse }

/-- Whether a mark fires on an advance (R171). -/
def Mark.fires (m : Mark) (old new : Int) : Bool := m.enable && old < m.target && m.target ≤ new

/-- A mark after its firing at a new frontier: pulse started, disabled or moved on (R171, R172). One disabled because its
target would pass the bound keeps the target from before the firing (assumption 54). -/
def Mark.fire (now : Nat) (new : Int) (m : Mark) : Mark :=
  let m1 := { m with pulse := some (now + 1000 * m.width) }
  match m.mode with
  | .once => { m1 with enable := false }
  | .repeating add =>
    let moved := m.target + (add : Int) * ((new - m.target) / (add : Int) + 1)
    if Config.targetBound < moved then { m1 with enable := false } else { m1 with target := moved }

/-! ## Spindle (R173) -/

/-- An accepted index edge at an instant and a frontier. The second value says whether a revolution was measured. -/
def Lu.indexEdge (now : Nat) (f : Int) (u : Lu) : Lu × Bool :=
  match u.prevIndexTime with
  | none => ({ u with prevIndexTime := some now, indexFrontier := some f }, false)
  | some t0 =>
    let period := if now - t0 = 0 then 1 else now - t0
    ({ u with
        rpm := some (min (60000000 / period) 65535)
        travel := some (f - u.indexFrontier.getD f)
        withdrawal := some (now + min (2 * period) 60000000)
        prevIndexTime := some now
        indexFrontier := some f }, true)

/-- What the levels of OUT lines follow outside the line unit (R168). -/
structure OutputView where
  quenchOn : Bool
  faultHeld : Bool
  done : Bool

/-- The level of a line: filtered for an IN line, driven for an OUT line (R168, R169). -/
def Lu.level (u : Lu) (v : OutputView) (n : Line) : Bool :=
  match n.role with
  | .input _ _ _ _ _ => n.filtered
  | .output (.mark k) => u.marks[k].pulse.isSome
  | .output .heatMirror => u.heatEnable
  | .output .quenchOn => v.quenchOn
  | .output .fault => v.faultHeld
  | .output .done => v.done
  | .output .general => n.latch

end Sys2Proof.Machine
end

