-- ==== Sys2Proof/Machine/Operands.lean ====
section
/-! DEFINITION. Bytes and fields: the widths and codings of R190, the check of R178, the frames' layouts of R191 and
the request payloads of R192, in both directions. -/

namespace Sys2Proof.Machine

/-! ## Numbers as bytes (R190) -/

/-- The number in n bytes, most significant first; higher bits are dropped. -/
def beBytes : Nat → Nat → List Byte
  | 0, _ => []
  | n + 1, v => BitVec.ofNat 8 (v / 256 ^ n) :: beBytes n v

/-- A signed number in n bytes, most significant first. -/
def beInt (n : Nat) (v : Int) : List Byte := beBytes n (v % (256 ^ n : Nat)).toNat

/-- An unsigned field that may be absent: FF in every byte when it is. -/
def beOpt (n : Nat) : Option Nat → List Byte
  | none => List.replicate n 0xFF
  | some v => beBytes n v

/-- A signed field that may be absent: 80 and then 00 when it is. -/
def beOptInt (n : Nat) : Option Int → List Byte
  | none => 0x80 :: List.replicate (n - 1) 0
  | some v => beInt n v

/-- A count in two bytes: one that exceeds 65,535 is sent as 65,535. -/
def beCount (v : Nat) : List Byte := beBytes 2 (min v 65535)

/-- A ratio, an interval or a drift in two bytes: one that exceeds 65,534 is sent as 65,534. -/
def beMeasure (v : Option Nat) : List Byte := beOpt 2 (v.map (min 65534))

def beFlag (b : Bool) : List Byte := beBytes 1 b.toNat

/-- Bytes as an unsigned number, most significant first. -/
def natOf (l : List Byte) : Nat := l.foldl (fun acc b => acc * 256 + b.toNat) 0

/-- Bytes as a signed number, most significant first. -/
def intOf (l : List Byte) : Int :=
  let v := natOf l
  let m := 256 ^ l.length
  if 2 * v < m then (v : Int) else (v : Int) - (m : Int)

/-- An unsigned field that may be absent, as received. -/
def optOf (l : List Byte) : Option Nat := if l.all (· == 0xFF) then none else some (natOf l)

/-- A payload cut into fields of the given widths; `none` when its length is not their sum. -/
def cutFields : List Nat → List Byte → Option (List (List Byte))
  | [], [] => some []
  | [], _ :: _ => none
  | w :: ws, l => if l.length < w then none else (cutFields ws (l.drop w)).map (l.take w :: ·)

/-! ## The check (R178) -/

/-- One bit shift of the check register, generator 1021 hexadecimal. -/
def crcShift (c : BitVec 16) : BitVec 16 := if c.getMsbD 0 then (c <<< 1) ^^^ 0x1021#16 else c <<< 1

/-- One byte fed into the check register, most significant bit first. -/
def crcByte (c : BitVec 16) (b : Byte) : BitVec 16 :=
  (List.range 8).foldl (fun r _ => crcShift r) (c ^^^ (b.zeroExtend 16 <<< 8))

/-- The check of a sequence of bytes, from FFFF hexadecimal. -/
def crc16 (l : List Byte) : BitVec 16 := l.foldl crcByte 0xFFFF#16

/-! ## Frames sent (R178, R191) -/

def StateNotice.payload (n : StateNotice) : List Byte :=
  beBytes 1 n.state.code ++ beOpt 1 (n.code.map (·.code)) ++ beInt 4 n.frontier ++ beBytes 4 n.scanNumber.toNat

def Answer.payload (a : Answer) : List Byte := beBytes 1 a.status.code ++ [a.detail1, a.detail2] ++ a.data

def TxFrame.kindCode : TxFrame → Byte
  | .ack _ => 0x40
  | .notice _ _ => 0x41
  | .powerSet _ _ _ _ _ => 0x42
  | .motionSet _ _ _ _ _ => 0x43
  | .quenchSet _ _ _ _ _ => 0x44

def TxFrame.tag : TxFrame → Byte
  | .ack a => a.tag
  | .notice t _ => t
  | .powerSet t _ _ _ _ => t
  | .motionSet t _ _ _ _ => t
  | .quenchSet t _ _ _ _ => t

def TxFrame.payload : TxFrame → List Byte
  | .ack a => a.answer.payload
  | .notice _ n => n.payload
  | .powerSet _ power enable zone f => beBytes 4 power ++ beFlag enable ++ beOpt 1 zone ++ beInt 4 f
  | .motionSet _ speed spindle stop f => beInt 4 speed ++ beBytes 2 spindle ++ beFlag stop ++ beInt 4 f
  | .quenchSet _ mask flow flood zone => [mask] ++ beBytes 2 flow ++ beFlag flood ++ beOpt 1 zone

/-- The whole frame on the line: delimiter, kind, tag, length, payload, check (R178). -/
def TxFrame.bytes (f : TxFrame) : List Byte :=
  let body := [f.kindCode, f.tag, BitVec.ofNat 8 f.payload.length] ++ f.payload
  [0x5A] ++ body ++ beBytes 2 (crc16 body).toNat

/-- The frame's length on the line in characters (R178). -/
def TxFrame.length (f : TxFrame) : Nat := 6 + f.payload.length

/-! ## Frames received (R191) -/

/-- The kinds a partner can send that some role takes (R181, R191); every other code in the table is one the part
itself sends. -/
inductive FrameKind where
  | control | readStatus | writeHeader | writeZone | readZone | commit | disarm | loadRecipe | storeRecipe
  | eraseRecipe | readSummary | readException | readCapture | readFault | writePositionConfig | writeLineConfig
  | writeLine | readLines | writeMark | writeOptions | reset | powerReport | driveStatus | quenchReport | sentByPart
  deriving DecidableEq, Repr

/-- The table of kind codes (R191); `none` for a code that is not in it. -/
def FrameKind.ofCode (c : Byte) : Option FrameKind :=
  match c.toNat with
  | 0x10 => some .control
  | 0x11 => some .readStatus
  | 0x12 => some .writeHeader
  | 0x13 => some .writeZone
  | 0x14 => some .readZone
  | 0x15 => some .commit
  | 0x16 => some .disarm
  | 0x17 => some .loadRecipe
  | 0x18 => some .storeRecipe
  | 0x19 => some .eraseRecipe
  | 0x1A => some .readSummary
  | 0x1B => some .readException
  | 0x1C => some .readCapture
  | 0x1D => some .readFault
  | 0x1E => some .writePositionConfig
  | 0x1F => some .writeLineConfig
  | 0x20 => some .writeLine
  | 0x21 => some .readLines
  | 0x22 => some .writeMark
  | 0x23 => some .writeOptions
  | 0x24 => some .reset
  | 0x40 => some .sentByPart
  | 0x41 => some .sentByPart
  | 0x42 => some .sentByPart
  | 0x43 => some .sentByPart
  | 0x44 => some .sentByPart
  | 0x60 => some .powerReport
  | 0x61 => some .driveStatus
  | 0x62 => some .quenchReport
  | _ => none

/-! ## Request and report payloads (R192) -/

def readNothing (l : List Byte) : Payload Unit := if l.isEmpty then .fields () else .wrongLength

def readByte (l : List Byte) : Payload Nat :=
  match l with
  | [b] => .fields b.toNat
  | _ => .wrongLength

def readControl (l : List Byte) : Payload ControlWord :=
  match l with
  | [b] => .fields (ControlWord.ofByte b)
  | _ => .wrongLength

/-- The widths of header fields 1 to 20 (43 bytes). -/
def header1Widths : List Nat := [2, 1, 2, 2, 4, 2, 2, 2, 2, 2, 2, 2, 2, 4, 2, 2, 2, 2, 2, 2]

/-- The widths of header fields 21 to 31 (26 bytes). -/
def header2Widths : List Nat := [1, 4, 4, 4, 2, 2, 2, 2, 2, 2, 1]

def readHeader1 (l : List Byte) : Payload HeaderWrite :=
  match cutFields header1Widths l with
  | some [f1, f2, f3, f4, f5, f6, f7, f8, f9, f10, f11, f12, f13, f14, f15, f16, f17, f18, f19, f20] =>
    .fields (.part1
      { identifier := natOf f1, directionCode := natOf f2, pitch := natOf f3, offsetD := natOf f4, pMax := natOf f5,
        qMax := natOf f6, vMin := natOf f7, vMax := natOf f8, seekSpeed := natOf f9, approachSpeed := natOf f10,
        runoutSpeed := natOf f11, runIn := natOf f12, latencyP := natOf f13, latencyQ := natOf f14,
        prewet := natOf f15, postQuenchTime := natOf f16, floodTime := natOf f17, floodFlow := natOf f18,
        reversalTol := natOf f19, energyTol := natOf f20 })
  | _ => .wrongLength

def readHeader2 (l : List Byte) : Payload HeaderWrite :=
  match cutFields header2Widths l with
  | some [f1, f2, f3, f4, f5, f6, f7, f8, f9, f10, f11] =>
    .fields (.part2
      { datumModeCode := natOf f1, datumCoord := intOf f2, originCoord := intOf f3, seekLimit := natOf f4,
        datumTol := natOf f5, nMax := natOf f6, nBase := natOf f7, pressureMin := natOf f8, windowLow := intOf f9,
        windowHigh := intOf f10, endProbeCode := natOf f11 })
  | _ => .wrongLength

/-- WRITE_HEADER: the part number, then the part's fields (R185, R192). A part number that is neither has no layout:
the payload is of the right length where it is that of either part (assumption 28). -/
def readHeaderWrite (l : List Byte) : Payload HeaderWrite :=
  match l with
  | [] => .wrongLength
  | n :: rest =>
    if n = 1 then readHeader1 rest
    else if n = 2 then readHeader2 rest
    else if rest.length = header1Widths.sum ∨ rest.length = header2Widths.sum then .fields (.otherPart n.toNat)
    else .wrongLength

/-- The widths of a WRITE_ZONE payload (25 bytes). -/
def zoneWidths : List Nat := [1, 1, 4, 2, 2, 4, 2, 1, 2, 2, 2, 2]

def readZoneWrite (l : List Byte) : Payload ZoneWrite :=
  match cutFields zoneWidths l with
  | some [f1, f2, f3, f4, f5, f6, f7, f8, f9, f10, f11, f12] =>
    .fields
      { position := natOf f1, kindCode := natOf f2, startX := natOf f3, energy := optOf f4, zoneSpeed := optOf f5,
        dwellPower := optOf f6, dwellTime := optOf f7, mask := BitVec.ofNat 8 (natOf f8), flow := natOf f9,
        windowMin := optOf f10, windowMax := optOf f11, helix := optOf f12 }
  | _ => .wrongLength

def readZoneRead (l : List Byte) : Payload ZoneRead :=
  match l with
  | [b, pos, n] => .fields { bankCode := b.toNat, position := optOf [pos], part := n.toNat }
  | _ => .wrongLength

/-- A value where its presence flag is set (R192). -/
def whenFlag {α : Type} (b : Bool) (v : α) : Option α := if b then some v else none

/-- WRITE_POSITION_CONFIG: a field whose presence flag is clear is ignored; bits 6 and 7 of the flags, to which R192
gives no field, are ignored (assumption 50). -/
def readPositionWrite (l : List Byte) : Payload PositionWrite :=
  match cutFields [1, 4, 4, 1, 1, 1, 4, 4] l with
  | some [f0, f1, f2, f3, f4, f5, f6, f7] =>
    let flags := natOf f0
    .fields
      { scaleK := whenFlag (flags.testBit 0) (natOf f1),
        trim := whenFlag (flags.testBit 1) (BitVec.ofNat 32 (natOf f2), natOf f3),
        edgeModeCode := whenFlag (flags.testBit 2) (natOf f4),
        invertCode := whenFlag (flags.testBit 3) (natOf f5),
        lower := whenFlag (flags.testBit 4) (intOf f6),
        upper := whenFlag (flags.testBit 5) (intOf f7) }
  | _ => .wrongLength

def readLineWrite (l : List Byte) : Payload LineWrite :=
  match cutFields [1, 1, 1, 1, 2, 2, 1, 1, 1] l with
  | some [f1, f2, f3, f4, f5, f6, f7, f8, f9] =>
    .fields
      { line := natOf f1, directionCode := natOf f2, pullUpCode := natOf f3, edgeCode := optOf f4, filter := optOf f5,
        latency := optOf f6, inputCode := optOf f7, captureCode := optOf f8, outputCode := optOf f9 }
  | _ => .wrongLength

/-- WRITE_LINE: the lines named by the subset mask, each with its bit of the level mask (R169, R192). -/
def readLineLevels (l : List Byte) : Payload (List (Nat × Bool)) :=
  match l with
  | [m, v] => .fields (((List.range 8).filter (fun k => m.getLsbD k)).map (fun k => (k, v.getLsbD k)))
  | _ => .wrongLength

def readMarkWrite (l : List Byte) : Payload MarkWrite :=
  match cutFields [1, 1, 4, 1, 4, 2, 1] l with
  | some [f1, f2, f3, f4, f5, f6, f7] =>
    .fields
      { mark := natOf f1, enableCode := natOf f2, target := intOf f3, modeCode := natOf f4, addValue := optOf f5,
        width := natOf f6, stampCode := natOf f7 }
  | _ => .wrongLength

/-- WRITE_OPTIONS: the protected count is one of R190's other counts, of 2 bytes (R190, R192). -/
def readOptionsWrite (l : List Byte) : Payload OptionsWrite :=
  match cutFields [2, 1, 1] l with
  | some [c, p, v] => .fields { protectedCount := natOf c, lossCode := natOf p, startUp := optOf v }
  | _ => .wrongLength

def readPowerReport (l : List Byte) : Payload PowerReport :=
  match cutFields [4, 2, 1] l with
  | some [f1, f2, f3] => .fields { power := natOf f1, interval := natOf f2, stateCode := natOf f3 }
  | _ => .wrongLength

def readQuenchReport (l : List Byte) : Payload QuenchReport :=
  match cutFields [2, 2, 2] l with
  | some [f1, f2, f3] => .fields { pressure := natOf f1, flow := natOf f2, temperature := intOf f3 }
  | _ => .wrongLength

/-! ## Header and zone contents as answer data (R192) -/

def HeaderPart1.bytes (h : HeaderPart1) : List Byte :=
  beBytes 2 h.identifier ++ beBytes 1 h.directionCode ++ beBytes 2 h.pitch ++ beBytes 2 h.offsetD ++
  beBytes 4 h.pMax ++ beBytes 2 h.qMax ++ beBytes 2 h.vMin ++ beBytes 2 h.vMax ++ beBytes 2 h.seekSpeed ++
  beBytes 2 h.approachSpeed ++ beBytes 2 h.runoutSpeed ++ beBytes 2 h.runIn ++ beBytes 2 h.latencyP ++
  beBytes 4 h.latencyQ ++ beBytes 2 h.prewet ++ beBytes 2 h.postQuenchTime ++ beBytes 2 h.floodTime ++
  beBytes 2 h.floodFlow ++ beBytes 2 h.reversalTol ++ beBytes 2 h.energyTol

def HeaderPart2.bytes (h : HeaderPart2) : List Byte :=
  beBytes 1 h.datumModeCode ++ beInt 4 h.datumCoord ++ beInt 4 h.originCoord ++ beBytes 4 h.seekLimit ++
  beBytes 2 h.datumTol ++ beBytes 2 h.nMax ++ beBytes 2 h.nBase ++ beBytes 2 h.pressureMin ++ beInt 2 h.windowLow ++
  beInt 2 h.windowHigh ++ beBytes 1 h.endProbeCode

/-- Part 1 of a header answer; the empty header has identifier 0 and every other field absent (R26, R31). -/
def header1Data : Option RecipeHeader → List Byte
  | some h => HeaderPart1.bytes h.toHeaderPart1
  | none => beBytes 2 0 ++ List.replicate 41 0xFF

/-- Part 2 of a header answer; in the empty header every field is absent, the signed ones as signed fields are. -/
def header2Data : Option RecipeHeader → List Byte
  | some h => HeaderPart2.bytes h.toHeaderPart2
  | none =>
    beOpt 1 none ++ beOptInt 4 none ++ beOptInt 4 none ++ beOpt 4 none ++ beOpt 2 none ++ beOpt 2 none ++
    beOpt 2 none ++ beOpt 2 none ++ beOptInt 2 none ++ beOptInt 2 none ++ beOpt 1 none

/-- A zone position's contents: kind and fields (R31, R192). -/
def zoneData : Option ZoneEntry → List Byte
  | some z =>
    beBytes 1 z.kind.code ++ beBytes 4 z.startX ++ beOpt 2 z.energy ++ beOpt 2 z.zoneSpeed ++ beOpt 4 z.dwellPower ++
    beOpt 2 z.dwellTime ++ [z.mask] ++ beBytes 2 z.flow ++ beOpt 2 z.windowMin ++ beOpt 2 z.windowMax ++
    beOpt 2 z.helix
  | none => beBytes 1 0 ++ List.replicate 23 0xFF

end Sys2Proof.Machine
end

