-- ==== Sys2Proof/Machine/Link.lean ====
section
/-! DEFINITION. The link ports' own operations: ports, transmitters, arrivals and answers (07_actuator_exchanges.md,
09_the_cell_link_and_supervisor_requests.md). -/

namespace Sys2Proof.Machine

def Lp.port (l : Lp) : Port → PortState
  | .s => l.portS
  | .p => l.portP
  | .m => l.portM
  | .q => l.portQ

def Lp.setPort (l : Lp) (v : PortState) : Port → Lp
  | .s => { l with portS := v }
  | .p => { l with portP := v }
  | .m => { l with portM := v }
  | .q => { l with portQ := v }

/-- The liveness time in force for a port (R147). -/
def livenessTime (st : SeqState) : Port → Nat
  | .p => if st.isHeat then 2000 else 50000
  | .m => 10000
  | .q => 20000
  | .s => 500000

/-! ## Sending (R150 to R155, R180) -/

/-- What a frame's transmission begins from: the set-point record, the direction and the instant (R150, R153). -/
structure SendInput where
  pe : Pe
  direction : Direction
  now : Nat

/-- The carriage speed in the coordinate sense (R153). -/
def SendInput.speed (i : SendInput) : Int :=
  match i.direction with
  | .plus => (i.pe.speed : Int)
  | .minus => -(i.pe.speed : Int)

/-- A frame begun: each character takes 2.5 us (R150). -/
def SendInput.job (i : SendInput) (f : TxFrame) : Option TxJob :=
  some { frame := f, endsAt2 := 2 * i.now + 5 * f.length }

/-- The due set-point frame begun from the most recent record (R150, R152, R153, R154). It is the last one
sent from here, the start of its transmission (assumption 46). -/
def Lp.sendSet (i : SendInput) (l : Lp) : Port → Lp
  | .s => l
  | .p =>
    let w := l.portP
    { l with
      portP := { w with
        setDue := false
        sendCount := w.sendCount + 1
        tx := i.job (.powerSet w.sendCount i.pe.power i.pe.enable i.pe.heatingZone i.pe.readFrontier) }
      sentPower := some { power := i.pe.power, enable := i.pe.enable }
      powerSend := some (i.now + Config.powerSend) }
  | .m =>
    let w := l.portM
    { l with
      portM := { w with
        setDue := false
        sendCount := w.sendCount + 1
        tx := i.job (.motionSet w.sendCount i.speed i.pe.spindle i.pe.stop i.pe.readFrontier) } }
  | .q =>
    let w := l.portQ
    { l with
      portQ := { w with
        setDue := false
        sendCount := w.sendCount + 1
        tx := i.job (.quenchSet w.sendCount i.pe.mask i.pe.flow i.pe.flood i.pe.quenchZone) }
      sentQuench := some { mask := i.pe.mask, flow := i.pe.flow, flood := i.pe.flood, quenchZone := i.pe.quenchZone }
      quenchSend := some (i.now + Config.quenchSend) }

/-- The answers that wait at a port: the ACK place is the S-port's (R150). -/
def Lp.waitingAcks (l : Lp) : Port → List Ack
  | .s => l.acks
  | .p => []
  | .m => []
  | .q => []

/-- A free transmitter of an ONLINE port begins the next frame: the oldest notice, then an answer, then the due
set-point frame (R150). -/
def Lp.kick (i : SendInput) (port : Port) (l : Lp) : Lp :=
  let w := l.port port
  if w.link = .online ∧ w.tx = none then
    match w.notices with
    | n :: rest =>
      l.setPort { w with
        notices := rest, sendCount := w.sendCount + 1, tx := i.job (.notice w.sendCount n) } port
    | [] =>
      match l.waitingAcks port with
      | a :: rest => { l.setPort { w with tx := i.job (.ack a) } port with acks := rest }
      | [] => if w.setDue then l.sendSet i port else l
  else l

/-- A notice placed in a queue of four; when full it replaces the youngest (R150). -/
def pushNotice (l : List StateNotice) (n : StateNotice) : List StateNotice :=
  if l.length < Config.noticeDepth then l ++ [n] else l.dropLast ++ [n]

/-- A STATE_NOTICE falls due on a port: placed if the port is ONLINE (R150, R155). -/
def Lp.notify (i : SendInput) (n : StateNotice) (port : Port) (l : Lp) : Lp :=
  let w := l.port port
  if w.link = .online then (l.setPort { w with notices := pushNotice w.notices n } port).kick i port else l

/-- A set-point frame falls due on a port: the flag is set if the port is ONLINE (R150). -/
def Lp.markDue (i : SendInput) (port : Port) (l : Lp) : Lp :=
  let w := l.port port
  if w.link = .online then (l.setPort { w with setDue := true } port).kick i port else l

/-- Whether a POWER_SET falls due at an update (R152). -/
def Lp.powerDue (l : Lp) (st : SeqState) (pe : Pe) : Bool :=
  st.isHeat || l.sentPower != some { power := pe.power, enable := pe.enable }

/-- Whether a QUENCH_SET falls due at an update (R154). -/
def Lp.quenchDue (l : Lp) (pe : Pe) : Bool :=
  l.sentQuench != some { mask := pe.mask, flow := pe.flow, flood := pe.flood, quenchZone := pe.quenchZone }

/-- What an update brings to the links (R152, R153, R154). -/
def Lp.takeUpdate (i : SendInput) (st : SeqState) (l : Lp) : Lp :=
  let l1 := if l.powerDue st i.pe then l.markDue i .p else l
  let l2 := l1.markDue i .m
  if l2.quenchDue i.pe then l2.markDue i .q else l2

/-- An answer placed in the ACK place (R182). -/
def Lp.answer (i : SendInput) (tag : Byte) (a : Answer) (l : Lp) : Lp :=
  Lp.kick i .s { l with acks := l.acks ++ [{ tag := tag, answer := a }] }

/-! ## Arrivals and loss (R146, R148, R150, R151) -/

/-- A port's own part of a valid arrival: link state, liveness, receiver (R146, R147, R179). -/
def PortState.arrive (now : Nat) (w : PortState) : PortState :=
  { w with link := .online, lastArrival := now, rx := .hunt, gap := none }

/-- The catch-up's cadence timer of a port (R151). -/
def Lp.startCadence (now : Nat) (l : Lp) : Port → Lp
  | .p => { l with powerSend := some (now + Config.powerSend) }
  | .q => { l with quenchSend := some (now + Config.quenchSend) }
  | .s => l
  | .m => l

/-- A valid arrival at a port, with the catch-up when it brings the link ONLINE (R146, R151). -/
def Lp.arrive (i : SendInput) (n : StateNotice) (port : Port) (l : Lp) : Lp :=
  let before := (l.port port).link
  let l1 := l.setPort ((l.port port).arrive i.now) port
  if before = .online then l1
  else
    let l2 := (l1.startCadence i.now port).notify i n port
    if port.isActuator then l2.markDue i port else l2

/-- A port's change to LOST: what waits is discarded, a frame begun is finished (R148, R150). -/
def Lp.lose (port : Port) (l : Lp) : Lp :=
  let l1 := l.setPort { l.port port with link := .lost, notices := [], setDue := false } port
  match port with
  | .s => { l1 with acks := [] }
  | .p => l1
  | .m => l1
  | .q => l1

/-- The end of a frame's transmission (R150). -/
def Lp.endFrame (i : SendInput) (port : Port) (l : Lp) : Lp :=
  (l.setPort { l.port port with tx := none } port).kick i port

/-! ## Quench-condition indications (R160) -/

/-- Pressure low, judged from a report (R160). -/
def pressureBelow (h : RecipeHeader) (r : QuenchReport) : Bool := r.pressure < h.pressureMin

/-- Quenchant out, judged from a report (R160); also the start check of R76. -/
def quenchantOutside (h : RecipeHeader) (r : QuenchReport) : Bool :=
  r.temperature < h.windowLow || h.windowHigh < r.temperature

/-- Both indications judged from the latest report against a header; clear without a report (R160). -/
def Lp.judgeQuench (h : RecipeHeader) (l : Lp) : Lp :=
  { l with
    pressureLow := (l.quench.map (pressureBelow h)).getD false
    quenchantOut := (l.quench.map (quenchantOutside h)).getD false }

/-! ## Answers (R182, R191) -/

def Answer.ok (data : List Byte) : Answer where
  status := .ok
  detail1 := 0xFF
  detail2 := 0xFF
  data := data

def Answer.refuse (st : Status) : Answer where
  status := st
  detail1 := 0xFF
  detail2 := 0xFF
  data := []

/-- INVALID, naming a field and, where one is given, a zone index (R191). -/
def Answer.invalid (field : Nat) (zone : Option Nat) : Answer where
  status := .invalid
  detail1 := BitVec.ofNat 8 field
  detail2 := (zone.map (BitVec.ofNat 8)).getD 0xFF
  data := []

/-- What became of a self-clearing field of a CONTROL frame (R184). -/
inductive FieldResult where
  | none
  | ok
  | refused (st : Status) (reason : Option BlockReason)
  deriving DecidableEq, Repr

def FieldResult.detail : FieldResult → Byte
  | .refused _ (some r) => BitVec.ofNat 8 r.code
  | .refused _ Option.none => 0xFF
  | .none => 0xFF
  | .ok => 0xFF

/-- An outcome and its detail, as CONTROL's answer carries them (R184, R191). -/
def FieldResult.bytes (r : FieldResult) : List Byte :=
  let code : Byte := match r with
    | .none => 0xFF
    | .ok => 0
    | .refused st _ => BitVec.ofNat 8 st.code
  [code, r.detail, 0xFF]

/-- CONTROL's answer: the clear outcome when that is a refusal, else the run outcome when that is one, else OK; the
data carries the control word and both outcomes (R184). -/
def controlAnswer (c : Control) (clear run : FieldResult) : Answer :=
  let data := BitVec.ofNat 8 c.byte :: (clear.bytes ++ run.bytes)
  match clear, run with
  | .refused st _, _ => { status := st, detail1 := clear.detail, detail2 := 0xFF, data := data }
  | .none, .refused st _ => { status := st, detail1 := run.detail, detail2 := 0xFF, data := data }
  | .ok, .refused st _ => { status := st, detail1 := run.detail, detail2 := 0xFF, data := data }
  | .none, .none => Answer.ok data
  | .none, .ok => Answer.ok data
  | .ok, .none => Answer.ok data
  | .ok, .ok => Answer.ok data

/-- The answer to a CONTROL frame refused whole: the control word unchanged and both outcomes NONE (R183, R184;
assumption 18). -/
def controlRefused (st : Status) (detail : Byte) (c : Control) : Answer where
  status := st
  detail1 := detail
  detail2 := 0xFF
  data := BitVec.ofNat 8 c.byte :: (FieldResult.none.bytes ++ FieldResult.none.bytes)

/-- CONTROL's answer while a warm reset is pending (R184). -/
def controlBusy (c : Control) : Answer := controlRefused .busy 0xFF c

/-- CONTROL's answer to a wrong length, naming the payload length, field 0 (R181, R183). -/
def controlInvalid (c : Control) : Answer := controlRefused .invalid 0 c

end Sys2Proof.Machine
end

