-- ==== Sys2Proof/Machine/Ops.lean ====
section
/-! DEFINITION. The operations the commands share, over the whole state: sending and answering, the profile engine's
update, changes of sequence state, faults and the flood, arrivals of the scan, holds, commit, and the hand-offs of an
edge. Where one event is handed to several blocks, assumptions 7 and 8 fix the order. -/

namespace Sys2Proof.Machine

namespace State

/-! ## What blocks read of each other -/

/-- The active header (R28). -/
def recipe (s : State) : Option RecipeHeader := s.zt.activeBank.header

/-- A number of the active header; 0 when no recipe is in force (assumption 30). -/
def hdr (s : State) (f : RecipeHeader → Nat) : Nat := (s.recipe.map f).getD 0

/-- The active bank's zones. -/
def zones (s : State) : List ZoneEntry := s.zt.activeBank.zoneList

/-- x_end (R34). -/
def xEnd (s : State) : Nat := zonesEnd s.zones

def trackCtx (s : State) : TrackRecipe := trackRecipe s.zt.activeBank

def quenchCondition (s : State) : QuenchCondition where
  pressureLow := s.lp.pressureLow
  quenchantOut := s.lp.quenchantOut

/-- The present instant of cell time (R9). -/
abbrev now (s : State) : Nat := s.cu.cellTime

def sendInput (s : State) : SendInput where
  pe := s.pe
  direction := s.cu.direction
  now := s.cu.cellTime

/-- The STATE_NOTICE of the present state, with the present frontier (R155; at a catch-up, assumption 52). -/
def notice (s : State) : StateNotice where
  state := s.sq.st
  code := if s.sq.st.isFault then s.sq.faultRecord.map (·.code) else none
  frontier := s.cu.frontier
  scanNumber := s.sq.scanNumber

def peInput (s : State) : PeInput where
  st := s.sq.st
  dwellZone := s.sq.dwellZone
  frontier := s.cu.frontier
  vPos := s.cu.forwardSpeed
  keepOn := s.lp.control.keepOn
  zones := s.zones

def outputView (s : State) : OutputView where
  quenchOn := s.pe.quenchOn || s.pe.flood
  faultHeld := s.sq.faultRecord.isSome
  done := s.sq.st == .done

/-! ## Links -/

/-- A valid arrival at a port (R146, R151, R179). -/
def arrive (port : Port) (s : State) : State := s.setLp (s.lp.arrive s.sendInput s.notice port)

/-- An answer placed in the ACK place (R182). -/
def answer (tag : Byte) (a : Answer) (s : State) : State := s.setLp (s.lp.answer s.sendInput tag a)

/-- A STATE_NOTICE falls due on all four ports (R72, R155). -/
def announce (s : State) : State :=
  let i := s.sendInput
  let n := s.notice
  s.setLp ((((s.lp.notify i n .s).notify i n .p).notify i n .m).notify i n .q)

/-! ## The profile engine's update (R49, R51) -/

/-- The pressure watch stopped at an update at which quench is no longer commanded on (R134). -/
def stopDryWatch (s : State) : State :=
  if s.pe.quenchOn then s else s.setSq { s.sq with pressureWatch := none }

/-- The power-limited notice of an update (R51, R105). -/
def noticeLimited (s : State) : State := if s.pe.powerLimited then s.setStk s.stk.powerLimited else s

/-- The set-point record handed to the links (R51, R152 to R154). -/
def sendUpdate (s : State) : State := s.setLp (s.lp.takeUpdate s.sendInput s.sq.st)

/-- An update's hand-offs to the slice tracker, the sequencer's pressure watch and the links. -/
def handUpdate (s : State) : State := s.noticeLimited.stopDryWatch.sendUpdate

/-- An update: set-points computed and handed on (R49, R51). -/
def updateCore (s : State) : State := (s.setPe (computePe s.peInput s.recipe s.pe)).handUpdate

/-! ## Changes of sequence state (R72, R90) -/

/-- The sequencer's own record of a change, with the heat-enable output: the new state and fault record, the timers of
the state left stopped (R72, R90, R133). -/
def enter (st : SeqState) (rec : Option FaultRecord) (s : State) : State :=
  (s.setSq { s.sq with
    st := st
    faultRecord := rec
    approachWait := none
    dwellTimer := none
    postQuench := none
    floodTimer := none
    indexWatch := none
    overPitch := 0
    firstRevolution := false }).setLu { s.lu with heatEnable := st.isHeat && rec.isNone }

/-- In IDLE both quench-condition indications are cleared at the entry (R160). -/
def clearIndications (s : State) : State :=
  if s.sq.st = .idle then s.setLp { s.lp with pressureLow := false, quenchantOut := false } else s

/-- A change handed on: the notices, then the update at once (R72, R155). -/
def handOn (s : State) : State := s.clearIndications.announce.updateCore

/-- A change of sequence state with no fault. -/
def change (st : SeqState) (s : State) : State := (s.enter st none).handOn

/-- A change of phase within a state: no notice, no change of the heat-enable output (R72). -/
def setPhase (st : SeqState) (s : State) : State := s.setSq { s.sq with st := st }

/-! ## Faults and the flood (R130, R139, R141, R142) -/

/-- How a fault report meets a state: it is taken, it is a secondary fault, or it has no effect (R130). -/
inductive Taking where
  | enters | secondary | ignored
  deriving DecidableEq, Repr

/-- A rule that takes its fault in some states, and in FAULT as no report. -/
def takenIf (b : Bool) : Taking := if b then .enters else .ignored

/-- A rule that takes its fault in some states, and in FAULT as a secondary fault. -/
def takenOrSecondary (st : SeqState) (b : Bool) : Taking :=
  if st.isFault then .secondary else takenIf b

/-- The states in which each fault kind is taken (R4, R17, R79 to R87, R131 to R138). -/
def faultTaking (code : FaultCode) (st : SeqState) (quenchOn : Bool) : Taking :=
  match code with
  | .encoder => takenIf st.isMotion
  | .overtravel => takenIf st.isMotion
  | .reversal => takenIf st.isHeat
  | .datum => takenIf (st == .seek)
  | .partLength =>
    takenIf (st == .approach .travel || st == .approach .wait || st.isHeat || st == .quenchout .travel ||
      st == .quenchout .postQuench || st == .held)
  | .spiral => takenIf (st == .heating || st == .approach .wait)
  | .inverter => takenOrSecondary st (st != .idle)
  | .drive => takenOrSecondary st (st != .idle)
  | .quenchPressure => takenIf (quenchOn && st != .idle && !st.isFault)
  | .coolant => takenIf st.isHeat
  | .interlock => takenIf (st != .idle && !st.isFault)
  | .linkP => takenOrSecondary st st.inScan
  | .linkM => takenOrSecondary st st.inScan
  | .linkQ => takenOrSecondary st st.inScan
  | .supply => takenOrSecondary st (st != .idle)
  | .aborted => takenOrSecondary st (st != .idle)

/-- The flood begun: timer, and the flood-start notice (R111, R142). -/
def startFlood (s : State) : State :=
  (s.setSq { s.sq with floodTimer := some (s.now + 1000 * s.hdr (·.floodTime)) }).setStk
    (s.stk.floodStart s.trackCtx s.quenchCondition s.now)

/-- The record of a report taken now (R140). -/
def recordOf (code : FaultCode) (source : FaultSource) (s : State) : FaultRecord where
  code := code
  source := source
  coord := s.cu.s
  time := s.now
  state := s.sq.st

/-- The held-from record and the dwell zone emptied, the pressure watch stopped (R139). -/
def dropScan (s : State) : State :=
  s.setSq { s.sq with heldFrom := none, dwellZone := none, pressureWatch := none }

/-- The flood begun where the state left had an open summary (R139, R142). -/
def floodIf (flood : Bool) (s : State) : State := if flood then s.startFlood else s

/-- The phase in which FAULT is entered from a state (R139). -/
def faultPhase (st : SeqState) : FaultPhase := if st.inScan then .flood else .standing

/-- Entering FAULT (R139). -/
def enterFault (code : FaultCode) (source : FaultSource) (s : State) : State :=
  (((s.enter (.fault (faultPhase s.sq.st)) (some (s.recordOf code source))).dropScan).floodIf s.sq.st.inScan).handOn

/-- A secondary fault (R141). -/
def secondaryFault (code : FaultCode) (source : FaultSource) (s : State) : State :=
  s.setSq { s.sq with
    secondaryCount := min (s.sq.secondaryCount + 1) 255
    latestSecondary := some { code := code, source := source, time := s.now } }

/-- A fault report (R130). -/
def reportFault (code : FaultCode) (source : FaultSource) (s : State) : State :=
  match faultTaking code s.sq.st s.pe.quenchOn with
  | .enters => s.enterFault code source
  | .secondary => s.secondaryFault code source
  | .ignored => s

/-- The travel-limit check (R17). -/
def travelCheck (bounded : Bool) (s : State) : State :=
  if s.sq.st.isMotion && s.cu.beyondLimits bounded then s.reportFault .overtravel .cu else s

/-- The reversal check (R131). -/
def reversalCheck (s : State) : State :=
  if s.sq.st.isHeat && ((s.hdr (·.reversalTol) : Nat) : Int) < s.cu.frontier - s.cu.x then
    s.reportFault .reversal .sq
  else s

/-! ## Post-quench (R87, R88, R123) -/

/-- The post-quench timer started (R87, R88). -/
def startPostTimer (s : State) : State :=
  s.setSq { s.sq with postQuench := some (s.now + 1000 * s.hdr (·.postQuenchTime)) }

/-- Post-quench begun, in RUNOUT or QUENCHOUT: phase, timer, update at once (R49, R87, R123). -/
def startPostQuench (st : SeqState) (s : State) : State := (s.setPhase st).startPostTimer.updateCore

/-- The frontier at which the spray has passed the heated length: x_end + D (R87). -/
def drainedAt (s : State) : Int := ((s.xEnd + s.hdr (·.offsetD) : Nat) : Int)

/-- The start of post-quench judged (R87, R123). -/
def judgePostQuench (s : State) : State :=
  if s.sq.st = .runout .travel then
    if s.drainedAt ≤ s.cu.frontier ∧ s.stk.track = [] then s.startPostQuench (.runout .postQuench) else s
  else if s.sq.st = .quenchout .travel then
    if s.stk.track = [] then s.startPostQuench (.quenchout .postQuench) else s
  else s

/-! ## Heating, dwell and runout (R83 to R87) -/

/-- A zone's start x (R27). -/
def zoneStart (s : State) (z : Nat) : Int := (((s.zones[z]?.map (·.startX)).getD 0 : Nat) : Int)

/-- The dwell time of the zone being dwelt on, in ms (R85). -/
def dwellTime (s : State) : Nat := ((s.sq.dwellZone.bind (fun z => s.zones[z]?)).bind (·.dwellTime)).getD 0

/-- The dwell timer started, phase TIMING (R85). -/
def startDwellTimer (s : State) : State :=
  s.setSq { s.sq with st := .dwell .timing, dwellTimer := some (s.now + 1000 * s.dwellTime) }

/-- In DWELL SETTLING, a read of |v| below 100 um/s starts the dwell timer (R85). -/
def settle (s : State) : State :=
  if s.sq.st = .dwell .settling ∧ s.cu.speed.natAbs < 100 then s.startDwellTimer else s

/-- The dwell notice to the slice tracker (R85, R103). -/
def noticeDwell (z : Nat) (s : State) : State :=
  let e := s.zones[z]?
  s.setStk (s.stk.dwellNotice s.trackCtx ((e.bind (·.dwellPower)).getD 0) ((e.bind (·.dwellTime)).getD 0)
    s.cu.frontier)

/-- The dwell zone recorded and the pointer moved to the next DWELL zone after it (R84). -/
def pointDwell (z : Nat) (s : State) : State :=
  s.setSq { s.sq with dwellZone := some z, nextDwell := nextDwellFrom (z + 1) s.zones }

/-- A DWELL zone entered: pointer and dwell zone, the change, the notice, the first read of v (R84, R85). -/
def enterDwell (z : Nat) (s : State) : State :=
  (((s.pointDwell z).change (.dwell .settling)).noticeDwell z).settle

/-- The heating-end notice to the slice tracker (R101). -/
def noticeHeatingEnd (s : State) : State := s.setStk (s.stk.heatingEnd s.trackCtx s.now)

/-- RUNOUT entered: the change, the heating-end notice, the judgement of post-quench (R87, R101). -/
def enterRunout (s : State) : State := ((s.change (.runout .travel)).noticeHeatingEnd).judgePostQuench

/-- The arrival checks of HEATING: a dwell, else the end of the heated length (R84). -/
def arrivalChecks (s : State) : State :=
  if s.sq.st = .heating then
    match s.sq.nextDwell.filter (fun z => decide (s.zoneStart z ≤ s.cu.frontier)) with
    | some z => s.enterDwell z
    | none => if (s.xEnd : Int) ≤ s.cu.frontier then s.enterRunout else s
  else s

/-- The index watch's duration for the latest spindle set-point (R133). -/
def watchTime (s : State) : Nat := 240000000 / s.pe.spindle

/-- The spindle watches started at an entry to HEATING (R133). -/
def startWatches (s : State) : State :=
  s.setSq { s.sq with overPitch := 0, firstRevolution := true, indexWatch := some (s.now + s.watchTime) }

/-- The heating-start notice to the slice tracker (R100). -/
def noticeHeatingStart (s : State) : State := s.setStk (s.stk.heatingStart s.trackCtx s.cu.frontier)

/-- HEATING entered: from APPROACH, from DWELL or by a resume (R83, R100, R131, R133, R84). The watches are started
before the change is handed on (R72; assumption 43). -/
def enterHeating (s : State) : State :=
  ((((s.enter .heating none).startWatches).handOn).noticeHeatingStart).reversalCheck.arrivalChecks

/-! ## Approach (R80 to R82) -/

/-- The inverter-ready start condition (R82). -/
def inverterReady (s : State) : Bool := (s.lp.power.map (fun r => r.state == .ready)).getD false

/-- The three start conditions judged and recorded (R82). -/
def judgeStart (expired : Bool) (s : State) : State :=
  s.setSq { s.sq with
    startRecord :=
      { spindle := s.lu.spindleReady s.pe.spindle
        inverter := s.inverterReady
        coolant := !s.lu.functionLow .coilWater
        waitExpired := expired } }

def StartRecord.met (r : StartRecord) : Bool := r.spindle && r.inverter && r.coolant

/-- HEATING entered where the start conditions, as last judged, all hold (R82). -/
def heatIfMet (s : State) : State := if StartRecord.met s.sq.startRecord then s.enterHeating else s

/-- In phase WAIT the conditions are judged again; when all hold, the wait ends (R82). -/
def rejudge (s : State) : State :=
  if s.sq.st = .approach .wait then (s.judgeStart s.sq.startRecord.waitExpired).heatIfMet else s

/-- The conditions judged again where the spindle set-point differs from the one before (R82). -/
def rejudgeChanged (before : Nat) (s : State) : State := if s.pe.spindle = before then s else s.rejudge

/-- An update after which the sequencer re-judges the start conditions if the spindle set-point changed (R82). -/
def update (s : State) : State := s.updateCore.rejudgeChanged s.pe.spindle

/-- Phase WAIT entered: timer, update at once (R49, R81). -/
def startWait (s : State) : State :=
  (s.setSq { s.sq with st := .approach .wait, approachWait := some (s.now + Config.approachWait) }).update

/-- HEATING entered where the start conditions hold, else phase WAIT (R81). -/
def heatOrWait (s : State) : State := if StartRecord.met s.sq.startRecord then s.enterHeating else s.startWait

/-- The arrival at the run-in point (R81). -/
def arriveRunIn (s : State) : State :=
  if 0 ≤ s.cu.frontier then s.reportFault .drive .sq else (s.judgeStart false).heatOrWait

/-- The run-in point, x = -run-in (R80). -/
def runInPoint (s : State) : Int := -((s.hdr (·.runIn) : Nat) : Int)

/-- The run-in check at an entry to APPROACH (R80). -/
def runInCheck (s : State) : State :=
  if s.sq.st = .approach .travel then
    if s.runInPoint < s.cu.frontier then s.reportFault .overtravel .sq
    else if s.cu.frontier = s.runInPoint then s.arriveRunIn
    else s
  else s

/-! ## Holds (R121, R122, R125) -/

/-- HELD entered from SEEK or APPROACH at a hold (R125). -/
def enterHeld (from? : HeldFrom) (s : State) : State :=
  (s.setSq { s.sq with heldFrom := some from?, startRecord := StartRecord.cleared }).change .held

/-- The hold-break notice to the slice tracker (R102). -/
def noticeHoldBreak (s : State) : State := s.setStk (s.stk.holdBreak s.trackCtx s.now)

/-- QUENCHOUT entered (R122). -/
def enterQuenchout (from? : HeldFrom) (s : State) : State :=
  (((s.setSq { s.sq with heldFrom := some from?, dwellZone := none }).change
    (.quenchout .travel)).noticeHoldBreak).judgePostQuench

/-- One hold request to the sequencer (R121). -/
def holdRequest (s : State) : State :=
  match s.sq.st with
  | .seek => s.enterHeld .seek
  | .approach _ => s.enterHeld .approach
  | .heating => s.enterQuenchout (.heating s.cu.frontier)
  | .dwell _ => s.enterQuenchout (.dwell s.cu.frontier)
  | .idle => s
  | .armed => s
  | .runout _ => s
  | .done => s
  | .quenchout _ => s
  | .held => s
  | .fault _ => s

/-- A hold request where a field has passed from clear to set (R121). -/
def requestIf (rise : Bool) (s : State) : State := if rise then s.holdRequest else s

/-- A hold field written; one passing from clear to set is one hold request (R121, R184). -/
def writeHold (field : Port) (v : Bool) (s : State) : State :=
  (s.setLp { s.lp with control := s.lp.control.setHold v field }).requestIf (v && !s.lp.control.hold field)

/-! ## A frontier advance (R16, R72, R79 to R87, R98, R108, R171) -/

/-- The close and the departures of an advance (R98, R108). -/
def passFrontier (s : State) : State :=
  s.setStk (s.stk.advance s.trackCtx s.quenchCondition s.cu.frontier s.now)

/-- The track-empty notice, where the departures have emptied the track (R87, R108, R123). -/
def noticeEmpty (before : List SliceRecord) (s : State) : State :=
  if before ≠ [] ∧ s.stk.track = [] then s.judgePostQuench else s

/-- The opening of an advance (R99). -/
def openAtFrontier (s : State) : State := s.setStk (s.stk.tryOpen s.trackCtx s.cu.frontier)

/-- The slice tracker's taking of an advance, with the track-empty notice before the opening (R98, R99, R108). -/
def trackAdvance (s : State) : State := (s.passFrontier.noticeEmpty s.stk.track).openAtFrontier

/-- A firing's capture stamp, where the mark's stamp flag is set (R21, R171). -/
def stampMark (k : MarkNo) (stamp : Bool) (s : State) : State :=
  if stamp then s.setCu (s.cu.capture { source := .mark k, edge := none, time := s.now, coord := s.cu.s }) else s

/-- One mark judged at an advance (R171). -/
def markAdvance (old : Int) (k : MarkNo) (s : State) : State :=
  if (s.lu.marks[k]).fires old s.cu.frontier then
    (s.setLu (s.lu.setMark k ((s.lu.marks[k]).fire s.now s.cu.frontier))).stampMark k (s.lu.marks[k]).stamp
  else s

/-- The line unit's taking of an advance, the marks in the order of their numbers (R171, assumption 49). -/
def marksAdvance (old : Int) (s : State) : State :=
  if s.sq.st.isMotion then
    (((s.markAdvance old 0).markAdvance old 1).markAdvance old 2).markAdvance old 3
  else s

/-- The next-dwell pointer moved past every DWELL zone the frontier has reached, from zone i on (R84). -/
def dwellBeyond (f : Int) (i : Nat) (zones : List ZoneEntry) : Option Nat :=
  ((zones.drop i).findIdx? (fun z => z.kind == .dwell && decide (f < (z.startX : Int)))).map (· + i)

/-- The pointer's move in QUENCHOUT and HELD (R84). -/
def movePointer (s : State) : State :=
  match s.sq.nextDwell with
  | none => s
  | some i => s.setSq { s.sq with nextDwell := dwellBeyond s.cu.frontier i s.zones }

/-- OVERTRAVEL for a track that has not drained by a frontier (R87, R123). -/
def drainCheck (limit : Int) (s : State) : State :=
  if limit ≤ s.cu.frontier ∧ s.stk.track ≠ [] then s.reportFault .overtravel .sq else s

/-- The break frontier plus D (R123). -/
def breakDrainedAt (s : State) : Int :=
  ((s.sq.heldFrom.bind HeldFrom.brk).getD 0) + ((s.hdr (·.offsetD) : Nat) : Int)

/-- The sequencer's judgement of an advance in each state (R79, R81, R82, R84, R85, R87, R123). In DWELL every advance
that finds the frontier at or beyond the following zone's start is judged so (assumption 51). -/
def seqAdvance (s : State) : State :=
  match s.sq.st with
  | .seek =>
    if ((s.hdr (·.seekLimit) : Nat) : Int) < s.cu.frontier - s.sq.seekStart.getD s.cu.frontier then
      s.reportFault .datum .sq
    else s
  | .approach .travel => if s.runInPoint ≤ s.cu.frontier then s.arriveRunIn else s
  | .approach .wait => if 0 ≤ s.cu.frontier then s.reportFault .drive .sq else s
  | .heating => s.arrivalChecks
  | .dwell _ =>
    match s.sq.dwellZone with
    | none => s
    | some z => if s.zoneStart (z + 1) ≤ s.cu.frontier then s.reportFault .drive .sq else s
  | .runout .travel => s.judgePostQuench.drainCheck (s.drainedAt + Config.drainBound)
  | .runout .postQuench => s
  | .quenchout .travel => s.movePointer.drainCheck (s.breakDrainedAt + Config.drainBound)
  | .quenchout .postQuench => s.movePointer
  | .held => s.movePointer
  | .idle => s
  | .armed => s
  | .done => s
  | .fault _ => s

/-- A frontier advance handed to the slice tracker, the line unit and the sequencer (R16; assumption 7). -/
def advance (old : Int) (s : State) : State := (s.trackAdvance.marksAdvance old).seqAdvance

/-! ## Commit (R38) -/

/-- The indications judged again at a commit (R160). -/
def rejudgeQuench (s : State) : State :=
  match s.recipe with
  | none => s
  | some h => s.setLp (s.lp.judgeQuench h)

/-- The sequencer set to ARMED: a change of state from any state but ARMED (R38, R73). -/
def arm (s : State) : State := if s.sq.st = .armed then s else s.change .armed

/-- Origin and direction taken from the active header, the frontier reset (R13, R15, R38). -/
def takeOrigin (s : State) : State :=
  match s.recipe with
  | none => s
  | some h => s.setCu (s.cu.takeHeader h)

/-- A successful commit (R38). -/
def exchange (s : State) : State := (s.setZt s.zt.exchange).takeOrigin.rejudgeQuench.arm

end State

/-! ## Requests (R181, R182, R188) -/

/-- A request after its arrival: the full ACK place, the pending reset, the payload length, then the request's own rule,
whose answer is placed with the request's tag (R181, R182, R188). -/
def judgeRequest {α : Type} (tag : Byte) (p : Payload α) (body : α → State → State × Answer) (s : State) : State :=
  if Config.ackDepth ≤ s.lp.acks.length then s
  else if s.lp.pendingReset then s.answer tag (Answer.refuse .busy)
  else
    match p with
    | .wrongLength => s.answer tag (Answer.invalid 0 none)
    | .fields f => (body f s).1.answer tag (body f s).2

/-- A request on the S-port: the arrival, then the judgement (R146, R182). -/
def takeRequest {α : Type} (tag : Byte) (p : Payload α) (body : α → State → State × Answer) (s : State) : State :=
  judgeRequest tag p body (s.arrive .s)

/-- Whether an expiry has been reached (R9). -/
def reached (timer : Option Nat) (now : Nat) : Bool :=
  match timer with
  | none => false
  | some t => t ≤ now

end Sys2Proof.Machine
end

