-- ==== Sys2Proof/Machine/Control.lean ====
section
/-! DEFINITION. CONTROL frames: hold requests and clears, abort, keep-on, fault clear and run (R75 to R77, R91, R121,
R126 to R128, R137, R143, R183, R184). Each of the six rows carries the whole control word with its own field forced
(assumption 6). -/

namespace Sys2Proof.Machine

namespace State

/-! ## The checks of RUN, resume and fault clear -/

/-- Whether a port's link is ONLINE, or LOST (R146). -/
def online (s : State) (port : Port) : Bool := (s.lp.port port).link == .online

def lost (s : State) (port : Port) : Bool := (s.lp.port port).link == .lost

/-- The QUENCHANT condition of R76. -/
def quenchantBlocks (s : State) : Bool :=
  match s.lp.quench with
  | none => true
  | some r => (s.recipe.map (fun h => quenchantOutside h r)).getD false

def driveFaulted (s : State) : Bool := s.lp.drive == some .faulted

/-- The first reason of R76's table that applies. -/
def startBlock (s : State) : Option BlockReason :=
  if !s.online .p then some .linkP
  else if !s.online .m then some .linkM
  else if !s.online .q then some .linkQ
  else if s.quenchantBlocks then some .quenchant
  else if s.lu.functionLow .coilWater then some .coilWater
  else if s.lu.functionLow .interlock then some .interlock
  else if s.sq.supplyLow then some .supply
  else if s.driveFaulted then some .drive
  else none

/-- The first condition of R143's table that holds. -/
def clearBlock (s : State) : Option BlockReason :=
  if s.lost .p then some .linkP
  else if s.lost .m then some .linkM
  else if s.lost .q then some .linkQ
  else if s.lu.functionLow .interlock then some .interlock
  else if s.sq.supplyLow then some .supply
  else if (s.lp.power.map (fun r => r.state == .tripped)).getD false then some .inverter
  else if s.driveFaulted then some .drive
  else none

/-- Check 3 of a resume held from HEATING or DWELL (R126). -/
def resumeBlock (s : State) : Option BlockReason :=
  if !s.lu.spindleReady s.pe.spindle then some .spindle
  else if !s.inverterReady then some .inverter
  else none

/-! ## Fault clear (R143) -/

/-- An accepted clear: records emptied, IDLE entered. -/
def acceptClear (s : State) : State :=
  (s.setSq { s.sq with secondaryCount := 0, latestSecondary := none }).change .idle

/-- The fault-clear field judged in its state. -/
def judgeClear (s : State) : State × FieldResult :=
  if s.sq.st = .fault .flood then (s, .refused .busy none)
  else if s.sq.st = .fault .standing then
    match s.clearBlock with
    | some r => (s, .refused .conditionPresent (some r))
    | none => (s.acceptClear, .ok)
  else (s, .none)

/-! ## Run (R75 to R77) and resume (R126 to R128) -/

/-- Parts 1 and 2 of R77: the scan number and the scan record. -/
def fillScanRecord (s : State) : State :=
  s.setSq { s.sq with
    scanNumber := s.sq.scanNumber + 1
    seekStart := none
    nextDwell := nextDwellFrom 0 s.zones
    dwellZone := none
    startRecord := StartRecord.cleared
    heldFrom := none }

/-- Parts 3 and 4 of R77: the summary opened, the datum-taken indicator cleared, the frontier reset. -/
def openScan (s : State) : State :=
  (s.setStk (s.stk.openSummary s.sq.scanNumber (s.hdr (·.identifier)))).setCu
    (Cu.resetFrontier { s.cu with datumTaken := false })

/-- Datum mode PROBE in the active header (R26, R77). -/
def probes (s : State) : Bool := (s.recipe.map (fun h => h.datumProbe)).getD false

/-- SEEK entered at a RUN, its start recorded (R77). The check of an entry counts no earlier bounded step (R17,
assumption 44). -/
def runSeek (s : State) : State :=
  ((s.setSq { s.sq with seekStart := some s.cu.frontier }).change .seek).travelCheck false

/-- APPROACH entered at a RUN (R77, R80; assumption 44). -/
def runApproach (s : State) : State := ((s.change (.approach .travel)).travelCheck false).runInCheck

/-- An accepted RUN (R77). -/
def acceptRun (s : State) : State :=
  if s.probes then s.fillScanRecord.openScan.runSeek else s.fillScanRecord.openScan.runApproach

/-- RUN in ARMED or DONE (R76). -/
def judgeRun (s : State) : State × FieldResult :=
  if s.stk.resultPending then (s, .refused .resultPending none)
  else if s.lp.control.anyHold then (s, .refused .holdActive none)
  else
    match s.startBlock with
    | some r => (s, .refused .startBlocked (some r))
    | none => (s.acceptRun, .ok)

/-- The arrival of R81 taken at once, where the frontier has reached the run-in point (R127). -/
def arriveIfReached (s : State) : State :=
  if s.sq.st = .approach .travel ∧ s.runInPoint ≤ s.cu.frontier then s.arriveRunIn else s

/-- The return to APPROACH: the arrival at once when the frontier is at or beyond the run-in point (R127;
assumption 44). -/
def resumeApproach (s : State) : State := ((s.change (.approach .travel)).travelCheck false).arriveIfReached

/-- The entry that a resume makes, by the state held from (R127, R128). The check of an entry counts no
earlier bounded step (R17, assumption 44). -/
def reenter (from? : HeldFrom) (s : State) : State :=
  match from? with
  | .seek => (s.change .seek).travelCheck false
  | .approach => s.resumeApproach
  | .heating _ => s.enterHeating.travelCheck false
  | .dwell _ => s.enterHeating.travelCheck false

/-- An accepted resume (R126 to R128). -/
def acceptResume (from? : HeldFrom) (s : State) : State := (s.setSq { s.sq with heldFrom := none }).reenter from?

/-- RUN in HELD (R126). -/
def judgeResume (s : State) : State × FieldResult :=
  if s.lp.control.anyHold then (s, .refused .holdActive none)
  else
    match s.startBlock with
    | some r => (s, .refused .startBlocked (some r))
    | none =>
      match s.sq.heldFrom with
      | none => (s, .none)
      | some from? =>
        match (if from?.brk.isSome then s.resumeBlock else none) with
        | some r => (s, .refused .startBlocked (some r))
        | none => (s.acceptResume from?, .ok)

/-- The run field judged in its state (R75). -/
def takeRun (s : State) : State × FieldResult :=
  match s.sq.st with
  | .armed => s.judgeRun
  | .done => s.judgeRun
  | .held => s.judgeResume
  | .idle => (s, .refused .notArmed none)
  | .fault _ => (s, .refused .notArmed none)
  | .seek => (s, .refused .scanning none)
  | .approach _ => (s, .refused .scanning none)
  | .heating => (s, .refused .scanning none)
  | .dwell _ => (s, .refused .scanning none)
  | .runout _ => (s, .refused .scanning none)
  | .quenchout _ => (s, .refused .scanning none)

/-! ## The whole control word (R183, R184) -/

/-- A hold field taken, where the port has the right. -/
def takeHold (port field : Port) (w : ControlWord) (s : State) : State :=
  if port.mayHold field then s.writeHold field (w.hold field) else s

/-- The abort field taken (R137). -/
def takeAbort (port : Port) (w : ControlWord) (s : State) : State :=
  if w.abort then s.reportFault .aborted (.port port) else s

/-- The quench keep-on field taken, where the port has the right (R91). -/
def takeKeepOn (port : Port) (w : ControlWord) (s : State) : State :=
  if port.mayKeepOn then s.setLp { s.lp with control := { s.lp.control with keepOn := w.keepOn } } else s

/-- The fields every port may carry, in R137's order: holds, abort, keep-on. -/
def takeShared (port : Port) (w : ControlWord) (s : State) : State :=
  (((((s.takeHold port .s w).takeHold port .p w).takeHold port .m w).takeHold port .q w).takeAbort port w).takeKeepOn
    port w

/-- The fault-clear field taken, where it is carried set (R143). -/
def takeClearField (w : ControlWord) (s : State) : State × FieldResult :=
  if w.faultClear then s.judgeClear else (s, .none)

/-- The run field taken, where it is carried set (R75). -/
def takeRunField (w : ControlWord) (s : State) : State × FieldResult := if w.run then s.takeRun else (s, .none)

/-- CONTROL's answer placed (R184). -/
def answerControl (tag : Byte) (clear run : FieldResult) (s : State) : State :=
  s.answer tag (controlAnswer s.lp.control clear run)

/-- A control word taken on the S-port, and its answer placed (R184). -/
def superviseWord (tag : Byte) (w : ControlWord) (s : State) : State :=
  let clear := (s.takeShared .s w).takeClearField w
  let run := clear.1.takeRunField w
  run.1.answerControl tag clear.2 run.2

/-- A CONTROL frame on the S-port, after its arrival: the full ACK place, the pending reset, the word (R182, R188). -/
def judgeControl (tag : Byte) (w : ControlWord) (s : State) : State :=
  if Config.ackDepth ≤ s.lp.acks.length then s
  else if s.lp.pendingReset then s.answer tag (controlBusy s.lp.control)
  else s.superviseWord tag w

/-- A CONTROL frame (R181, R184). -/
def takeControl (port : Port) (tag : Byte) (w : ControlWord) (s : State) : State :=
  if port = .s then (s.arrive .s).judgeControl tag w else (s.arrive port).takeShared port w

end State

/-- HOLD_REQUEST (R121). -/
def execHoldRequest (port : Port) (tag : Byte) (field : Port) (w : ControlWord) (s : State) :
    Host.Outcome State Fault Refusal := .next (s.takeControl port tag (w.setHold true field))

/-- HOLD_FIELD_CLEARED (R184). -/
def execHoldFieldCleared (port : Port) (tag : Byte) (field : Port) (w : ControlWord) (s : State) :
    Host.Outcome State Fault Refusal := .next (s.takeControl port tag (w.setHold false field))

/-- ABORT (R137). -/
def execAbort (port : Port) (tag : Byte) (w : ControlWord) (s : State) : Host.Outcome State Fault Refusal :=
  .next (s.takeControl port tag { w with abort := true })

/-- QUENCH_KEEP_ON (R91). -/
def execQuenchKeepOn (port : Port) (tag : Byte) (on : Bool) (w : ControlWord) (s : State) :
    Host.Outcome State Fault Refusal := .next (s.takeControl port tag { w with keepOn := on })

/-- FAULT_CLEAR (R143). -/
def execFaultClear (tag : Byte) (w : ControlWord) (s : State) : Host.Outcome State Fault Refusal :=
  .next (s.takeControl .s tag { w with faultClear := true })

/-- RUN (R75). -/
def execRun (tag : Byte) (w : ControlWord) (s : State) : Host.Outcome State Fault Refusal :=
  .next (s.takeControl .s tag { w with run := true })

end Sys2Proof.Machine
end

