-- ==== Sys2Proof/Machine/Recipes.lean ====
section
/-! DEFINITION. The requests on banks, slots and options, and the completions of the recipe store (R29 to R32, R37,
R38, R40 to R47, R74, R185, R186). -/

namespace Sys2Proof.Machine

namespace State

/-! ## The answer buffer (R186) -/

/-- The delivery of one part: part number, part count, the part's fields. -/
def partData (n : Nat) (parts : List (List Byte)) : List Byte :=
  beBytes 1 n ++ beBytes 1 parts.length ++ parts.getD (n - 1) []

/-- A read of part 1: the whole answer into the buffer, part 1 delivered. -/
def deliverFirst (kind : BufferKind) (parts : List (List Byte)) (s : State) : State × Answer :=
  (s.setLp { s.lp with buffer := some { kind := kind, parts := parts } }, Answer.ok (partData 1 parts))

/-- A read of a part other than 1: from the buffer, or INVALID naming the part number. -/
def deliverLater (kind : BufferKind) (n : Nat) (s : State) : State × Answer :=
  match s.lp.buffer with
  | some b =>
    if b.kind = kind ∧ 1 < n ∧ n ≤ b.parts.length then (s, Answer.ok (partData n b.parts))
    else (s, Answer.invalid 53 none)
  | none => (s, Answer.invalid 53 none)

/-! ## Writing and reading the banks -/

/-- Whether the shadow bank may not be written (R44). -/
def shadowLocked (s : State) : Bool := s.rs.loading || s.rs.storing

def setShadow (b : Bank) (s : State) : State := s.setZt (s.zt.setShadow b)

def setStaging (v : Option HeaderPart1) (s : State) : State := s.setLp { s.lp with staging := v }

/-- The shadow header replaced whole (R29). -/
def putHeader (h : Option RecipeHeader) (s : State) : State := s.setShadow { s.zt.shadowBank with header := h }

/-- WRITE_HEADER's rule (R29, R185). -/
def writeHeader (w : HeaderWrite) (s : State) : State × Answer :=
  match w with
  | .part1 h =>
    if h.identifier = 0 then
      if s.shadowLocked then (s.setStaging none, Answer.refuse .busy)
      else ((s.setStaging none).putHeader none, Answer.ok [])
    else (s.setStaging (some h), Answer.ok [])
  | .part2 h2 =>
    match s.lp.staging with
    | none => (s, Answer.invalid 53 none)
    | some h1 =>
      if s.shadowLocked then (s, Answer.refuse .busy)
      else ((s.setStaging none).putHeader (joinHeader h1 h2), Answer.ok [])
  | .otherPart _ => (s, Answer.invalid 53 none)

/-- The entry a WRITE_ZONE carries: the empty marker, an entry, or a kind that is none of these (R30). -/
def carriedEntry (w : ZoneWrite) : Except Unit (Option ZoneEntry) :=
  if w.kindCode = 0 then .ok none
  else
    match ZoneKind.ofCode w.kindCode with
    | some k => .ok (some (entryOf k w))
    | none => .error ()

/-- WRITE_ZONE's rule (R30). -/
def writeZone (w : ZoneWrite) (s : State) : State × Answer :=
  if h : w.position < 64 then
    match carriedEntry w with
    | .error _ => (s, Answer.invalid 32 (some w.position))
    | .ok e =>
      if s.shadowLocked then (s, Answer.refuse .busy)
      else (s.setShadow (s.zt.shadowBank.setZone ⟨w.position, h⟩ e), Answer.ok [])
  else (s, Answer.invalid 51 none)

/-- The parts of a READ_ZONE answer (R31, R186). -/
def zoneParts (b : Bank) : Option ZonePos → List (List Byte)
  | none => [header1Data b.header, header2Data b.header]
  | some p => [zoneData b.zones[p]]

/-- The position a READ_ZONE names: the header, a zone position, or one outside the range (R31). -/
def readPosition : Option Nat → Except Unit (Option ZonePos)
  | none => .ok none
  | some p => if h : p < 64 then .ok (some ⟨p, h⟩) else .error ()

/-- READ_ZONE's rule (R31, R181, R186). -/
def readZone (r : ZoneRead) (s : State) : State × Answer :=
  let kind := BufferKind.zone r.bankCode r.position
  if r.bankCode ≠ 1 ∧ r.bankCode ≠ 2 then (s, Answer.invalid 56 none)
  else if r.part ≠ 1 then s.deliverLater kind r.part
  else
    match readPosition r.position with
    | .error _ => (s, Answer.invalid 51 none)
    | .ok p =>
      if r.bankCode = 2 then
        if s.rs.loading then (s, Answer.refuse .busy) else s.deliverFirst kind (zoneParts s.zt.shadowBank p)
      else s.deliverFirst kind (zoneParts s.zt.activeBank p)

/-! ## Commit and disarm -/

/-- IDLE, ARMED or DONE: the states in which a commit is taken (R32). -/
def commitAllowed (st : SeqState) : Bool := st == .idle || st == .armed || st == .done

/-- COMMIT's rule (R32, R37, R38). -/
def commit (_ : Unit) (s : State) : State × Answer :=
  if s.rs.loading then (s, Answer.refuse .busy)
  else if !commitAllowed s.sq.st then (s, Answer.refuse .scanning)
  else
    match validate s.cu.scaleK s.zt.shadowBank with
    | some f => (s, Answer.invalid f.field f.zone)
    | none => (s.exchange, Answer.ok [])

/-- The summary closed ABANDONED and the held-from record emptied (R74, R117). -/
def abandon (s : State) : State :=
  (s.setStk (s.stk.closeSummary .abandoned none)).setSq { s.sq with heldFrom := none }

/-- DISARM's rule (R74). -/
def disarm (_ : Unit) (s : State) : State × Answer :=
  if s.sq.st = .armed ∨ s.sq.st = .done then (s.change .idle, Answer.ok [])
  else if s.sq.st = .held then
    (s.abandon.change .idle, Answer.ok [])
  else (s, Answer.refuse .scanning)

/-! ## The recipe store's requests (R40 to R44, R46) -/

/-- An operation put in flight for a duration (R40). -/
def startOp (op : RsOp) (time : Nat) (s : State) : State :=
  s.setRs { s.rs with inFlight := some { op := op, completes := s.now + time } }

/-- LOAD_RECIPE's rule (R41). -/
def loadRecipe (n : Nat) (s : State) : State × Answer :=
  if h : n < 16 then
    if s.rs.inFlight.isSome then (s, Answer.refuse .busy)
    else if (s.rs.slots[n]).condition = .valid then (s.startOp (.load ⟨n, h⟩) Config.loadTime, Answer.ok [])
    else (s, Answer.refuse .slotInvalid)
  else (s, Answer.invalid 52 none)

/-- A store's duration (R40). -/
def storeDuration (s : State) : Nat :=
  Config.storeTime + Config.storeTimePerZone * s.zt.shadowBank.zoneCount

/-- STORE_RECIPE's rule (R42). -/
def storeRecipe (n : Nat) (s : State) : State × Answer :=
  if h : n < 16 then
    if s.rs.protects ⟨n, h⟩ then (s, Answer.refuse .protect)
    else if s.rs.inFlight.isSome then (s, Answer.refuse .busy)
    else (s.startOp (.store ⟨n, h⟩ s.zt.active.other) s.storeDuration, Answer.ok [])
  else (s, Answer.invalid 52 none)

/-- ERASE_RECIPE's rule (R43). -/
def eraseRecipe (n : Nat) (s : State) : State × Answer :=
  if h : n < 16 then
    if s.rs.protects ⟨n, h⟩ then (s, Answer.refuse .protect)
    else if s.rs.inFlight.isSome then (s, Answer.refuse .busy)
    else (s.startOp (.erase ⟨n, h⟩) Config.eraseTime, Answer.ok [])
  else (s, Answer.invalid 52 none)

/-- The start-up load setting a WRITE_OPTIONS carries (R46). -/
def readStartUp : Option Nat → Except Nat (Option SlotNo)
  | none => .ok none
  | some n => if h : n < 16 then .ok (some ⟨n, h⟩) else .error 92

/-- The block a WRITE_OPTIONS carries, or the first setting that fails (R46). -/
def readOptions (w : OptionsWrite) : Except Nat OptionBlock :=
  let count := w.protectedCount
  if count ≠ 0 ∧ count ≠ 2 ∧ count ≠ 4 ∧ count ≠ 8 then .error 90
  else
    match LossPolicy.ofCode w.lossCode with
    | none => .error 91
    | some p => (readStartUp w.startUp).map (fun n => { protectedCount := count, loss := p, startUp := n })

/-- WRITE_OPTIONS's rule (R46). -/
def writeOptions (w : OptionsWrite) (s : State) : State × Answer :=
  match readOptions w with
  | .error field => (s, Answer.invalid field none)
  | .ok o =>
    if s.rs.inFlight.isSome then (s, Answer.refuse .busy)
    else (s.startOp (.options o) Config.optionTime, Answer.ok [])

/-! ## Completions -/

/-- The operation in flight, once its completion time has been reached (R40). -/
def completed (s : State) : Option RsOp :=
  (s.rs.inFlight.filter (fun f => decide (f.completes ≤ s.now))).map (·.op)

/-- The in-flight record back at NONE (R40). -/
def endOp (s : State) : State := s.setRs { s.rs with inFlight := none }

def setStartUp (v : StartUpStatus) (s : State) : State := s.setRs { s.rs with startUp := v }

/-- The commit of the start-up load (R47). -/
def commitStartUp (s : State) : State :=
  match validate s.cu.scaleK s.zt.shadowBank with
  | none => s.exchange.setStartUp .autoloaded
  | some f => s.setStartUp (.autoloadInvalid f.field f.zone)

/-- A slot's image copied to the shadow bank (R41). -/
def copyImage (slot : SlotNo) (s : State) : State := s.setShadow (s.rs.slots[slot]).image

/-- The completion of a load (R41, R47). -/
def completeLoad (s : State) : State :=
  match s.completed with
  | some (.load slot) =>
    if s.rs.startUp = .loading then ((s.copyImage slot).endOp).commitStartUp else (s.copyImage slot).endOp
  | _ => s

/-- The completion of a store (R42). -/
def completeStore (s : State) : State :=
  match s.completed with
  | some (.store slot source) => (s.setRs (s.rs.setSlot slot (RecipeSlot.written (s.zt.bank source)))).endOp
  | _ => s

/-- The completion of an erase (R43). -/
def completeErase (s : State) : State :=
  match s.completed with
  | some (.erase slot) => (s.setRs (s.rs.setSlot slot (RecipeSlot.written Bank.empty))).endOp
  | _ => s

/-- The completion of an option write (R46). -/
def completeOptions (s : State) : State :=
  match s.completed with
  | some (.options o) => (s.setRs (s.rs.writeCopy o)).endOp
  | _ => s

end State

/-- WRITE_HEADER (R185). -/
def execWriteHeader (tag : Byte) (p : Payload HeaderWrite) (s : State) : Host.Outcome State Fault Refusal :=
  .next (takeRequest tag p State.writeHeader s)

/-- WRITE_ZONE (R30). -/
def execWriteZone (tag : Byte) (p : Payload ZoneWrite) (s : State) : Host.Outcome State Fault Refusal :=
  .next (takeRequest tag p State.writeZone s)

/-- READ_ZONE (R31). -/
def execReadZone (tag : Byte) (p : Payload ZoneRead) (s : State) : Host.Outcome State Fault Refusal :=
  .next (takeRequest tag p State.readZone s)

/-- COMMIT (R32). -/
def execCommit (tag : Byte) (p : Payload Unit) (s : State) : Host.Outcome State Fault Refusal :=
  .next (takeRequest tag p State.commit s)

/-- DISARM (R74). -/
def execDisarm (tag : Byte) (p : Payload Unit) (s : State) : Host.Outcome State Fault Refusal :=
  .next (takeRequest tag p State.disarm s)

/-- LOAD_RECIPE (R41). -/
def execLoadRecipe (tag : Byte) (p : Payload Nat) (s : State) : Host.Outcome State Fault Refusal :=
  .next (takeRequest tag p State.loadRecipe s)

/-- STORE_RECIPE (R42). -/
def execStoreRecipe (tag : Byte) (p : Payload Nat) (s : State) : Host.Outcome State Fault Refusal :=
  .next (takeRequest tag p State.storeRecipe s)

/-- ERASE_RECIPE (R43). -/
def execEraseRecipe (tag : Byte) (p : Payload Nat) (s : State) : Host.Outcome State Fault Refusal :=
  .next (takeRequest tag p State.eraseRecipe s)

/-- WRITE_OPTIONS (R46). -/
def execWriteOptions (tag : Byte) (p : Payload OptionsWrite) (s : State) : Host.Outcome State Fault Refusal :=
  .next (takeRequest tag p State.writeOptions s)

/-- LOAD_COMPLETE (R41). -/
def execLoadComplete (s : State) : Host.Outcome State Fault Refusal := .next s.completeLoad

/-- STORE_COMPLETE (R42). -/
def execStoreComplete (s : State) : Host.Outcome State Fault Refusal := .next s.completeStore

/-- ERASE_COMPLETE (R43). -/
def execEraseComplete (s : State) : Host.Outcome State Fault Refusal := .next s.completeErase

/-- OPTION_WRITE_COMPLETE (R46). -/
def execOptionWriteComplete (s : State) : Host.Outcome State Fault Refusal := .next s.completeOptions

end Sys2Proof.Machine
end

