-- ==== Sys2Proof/Machine/Resets.lean ====
section
/-! DEFINITION. Both resets, the start-up load, the RESET request and the supply (R24, R25, R45 to R48, R70, R93, R94,
R120, R138, R145, R162, R176, R188, R189). -/

namespace Sys2Proof.Machine

namespace State

/-! ## The supply monitor (R138) -/

/-- The indication found at the end of a reset, where the rail decides it: set below 4.5 V, clear at 4.6 V or above. -/
def supplyFound (railMv : Nat) : Option Bool :=
  if railMv < Config.supplyLowBelow then some true
  else if Config.supplyGoodFrom ≤ railMv then some false
  else none

/-- The indication after a rail level, from its value before: set below 4.5 V, cleared at 4.6 V or above. -/
def supplyAfter (railMv : Nat) (before : Bool) : Bool := (supplyFound railMv).getD before

/-- The rail's level and the indication judged from it. -/
def setRail (railMv : Nat) (s : State) : State :=
  s.setSq { s.sq with railMv := railMv, supplyLow := supplyAfter railMv s.sq.supplyLow }

/-- A new rail level: a setting of the indication brings fault SUPPLY. -/
def takeRail (railMv : Nat) (s : State) : State :=
  if supplyAfter railMv s.sq.supplyLow && !s.sq.supplyLow then (s.setRail railMv).reportFault .supply .sq
  else s.setRail railMv

/-! ## The start-up load (R47) -/

/-- The start-up load after every reset. -/
def startUpLoad (s : State) : State :=
  match s.rs.inForce.startUp with
  | none => s.setStartUp .none
  | some slot =>
    if (s.rs.slots[slot]).condition = .valid then
      (s.setStartUp .loading).startOp (.load slot) Config.loadTime
    else s.setStartUp .autoloadFailed

/-! ## The two resets -/

/-- What a reset leaves of the recipe store: every slot's condition set from its check, and the option block put in
force (R39, R46, R48). -/
def storeReset (r : Rs) : Rs :=
  { r with slots := r.slots.map RecipeSlot.judge, inForce := chooseOptions r.copy1 r.copy2, inFlight := none, startUp := .none }

/-- Every block at its reset values, the start-up load not yet begun. A rail between the two thresholds leaves the
indication open (assumption 13). -/
def blocksReset (time : Nat) (scan : Word32) (phase : EncPhase) (pins : Vector PinDrive 8) (railMv : Nat) (rs : Rs)
    (s : State) : State :=
  let low := (supplyFound railMv).getD (Config.freeSupplyLow s.freeCount)
  { pending := s.pending
    cu := Cu.resetValue time phase
    zt := Zt.resetValue
    rs := storeReset rs
    pe := Pe.resetValue time
    sq := Sq.resetValue scan railMv low
    stk := Stk.resetValue
    lu := Lu.resetValue pins
    lp := Lp.resetValue
    freeCount := if (supplyFound railMv).isSome then s.freeCount else s.freeCount + 1 }

/-- The operation in flight ended by a power-on reset; a slot it leaves partly written is one draw (R45). -/
def interruptOp (s : State) : State :=
  if s.rs.tears then (s.setRs (s.rs.interrupt s.freeCount)).drawn else s.setRs (s.rs.interrupt s.freeCount)

/-- A power-on reset after the operation in flight has ended, with these levels outside at its end (R24, R93). -/
def powerOnBlocks (e : ResetEnd) (s : State) : State :=
  s.blocksReset 0 0 (EncPhase.ofLevels e.encA e.encB) e.pins e.railMv s.rs

/-- A power-on reset, which ends with these levels outside (R24, R45, R47, R93). -/
def powerOn (e : ResetEnd) (s : State) : State := (s.interruptOp.powerOnBlocks e).startUpLoad

/-- A warm reset: cell time, the scan number, the slots and the option copies are kept (R25, R94, R188). -/
def warmReset (s : State) : State :=
  (s.blocksReset s.now s.sq.scanNumber s.cu.phase (s.lu.lines.map (·.drive)) s.sq.railMv s.rs).startUpLoad

/-- Whether an answer is being sent on the S-port. -/
def sendingAck (s : State) : Bool :=
  match s.lp.portS.tx with
  | some ⟨.ack _, _⟩ => true
  | _ => false

/-- Whether a pending warm reset is due: no answer waits, and none is being sent (R188). -/
def resetDue (s : State) : Bool := s.lp.pendingReset && s.lp.acks.isEmpty && !s.sendingAck

/-- The warm reset taken once it is due. -/
def takeWarmReset (s : State) : State := if s.resetDue then s.warmReset else s

/-- RESET's rule (R188). -/
def requestReset (_ : Unit) (s : State) : State × Answer :=
  if s.sq.st.inScan then (s, Answer.refuse .scanning)
  else if s.rs.inFlight.isSome then (s, Answer.refuse .busy)
  else (s.setLp { s.lp with pendingReset := true }, Answer.ok [])

end State

/-- RESET (R188). -/
def execReset (tag : Byte) (p : Payload Unit) (s : State) : Host.Outcome State Fault Refusal :=
  .next (takeRequest tag p State.requestReset s)

/-- WARM_RESET (R188). -/
def execWarmReset (s : State) : Host.Outcome State Fault Refusal := .next s.takeWarmReset

/-- POWER_ON_RESET (R24). -/
def execPowerOnReset (levels : ResetEnd) (s : State) : Host.Outcome State Fault Refusal := .next (s.powerOn levels)

/-- SUPPLY (R138). -/
def execSupply (railMv : Nat) (s : State) : Host.Outcome State Fault Refusal := .next (s.takeRail railMv)

/-- SUPPLY_RESTORED (R138). -/
def execSupplyRestored (railMv : Nat) (s : State) : Host.Outcome State Fault Refusal := .next (s.takeRail railMv)

end Sys2Proof.Machine
end

