-- ==== Sys2Proof/Machine/Links.lean ====
section
/-! DEFINITION. The links' own commands: liveness, transmission ends, send timers, and frames that a role does not take
(R146 to R152, R154, R160, R181, R188). -/

namespace Sys2Proof.Machine

namespace State

/-! ## Liveness (R147, R148) -/

/-- The instant of a port's liveness expiry (R147), by the state the last command left (assumption 45). -/
def livenessEnd (port : Port) (s : State) : Nat := (s.lp.port port).lastArrival + livenessTime s.sq.st port

/-- Whether a port's liveness has run out (R147). -/
def livenessDue (port : Port) (s : State) : Bool :=
  (s.lp.port port).link == .online && s.livenessEnd port ≤ s.now

/-- Pressure low at the loss of the Q-port (R160); without a report, and in IDLE, it stays clear. -/
def loseQuench (s : State) : State :=
  if s.sq.st ≠ .idle ∧ s.lp.quench.isSome ∧ 0 < s.hdr (·.pressureMin) then s.setLp { s.lp with pressureLow := true }
  else s

/-- The S-link loss policy (R148). -/
def applyLossPolicy (s : State) : State := if s.rs.inForce.loss = .hold then s.writeHold .s true else s

/-- A pending reset taken at the S-port's change to LOST (R188). -/
def resetIfPending (s : State) : State := if s.lp.pendingReset then s.warmReset else s

/-- What the loss of the S-port brings: the loss policy, then a pending reset (R148, R188). -/
def loseSupervisor (s : State) : State := s.applyLossPolicy.resetIfPending

/-- A port's change to LOST (R148, R150). -/
def loseLink (port : Port) (s : State) : State := s.setLp (s.lp.lose port)

/-- LIVENESS_EXPIRY's rule (R136, R148, R150, R160). -/
def livenessExpiry (port : Port) (s : State) : State :=
  if s.livenessDue port then
    match port with
    | .s => (s.loseLink .s).loseSupervisor
    | .p => (s.loseLink .p).reportFault .linkP (.port .p)
    | .m => (s.loseLink .m).reportFault .linkM (.port .m)
    | .q => ((s.loseLink .q).loseQuench).reportFault .linkQ (.port .q)
  else s

/-! ## Transmission (R150, R152, R154) -/

/-- Whether a port's frame has been sent to its end (R150). -/
def transmitDue (port : Port) (s : State) : Bool :=
  match (s.lp.port port).tx with
  | some j => j.endsAt2 ≤ 2 * s.now
  | none => false

/-- TRANSMIT_COMPLETE's rule (R150). -/
def transmitComplete (port : Port) (s : State) : State :=
  if s.transmitDue port then s.setLp (s.lp.endFrame s.sendInput port) else s

/-- POWER_SEND_EXPIRY's rule (R152). -/
def powerSendExpiry (s : State) : State :=
  if reached s.lp.powerSend s.now then s.setLp (Lp.markDue s.sendInput .p { s.lp with powerSend := none }) else s

/-- QUENCH_SEND_EXPIRY's rule (R154). -/
def quenchSendExpiry (s : State) : State :=
  if reached s.lp.quenchSend s.now then s.setLp (Lp.markDue s.sendInput .q { s.lp with quenchSend := none }) else s

/-! ## Frames a role does not take (R181) -/

/-- ANSWERED_ROLE's rule (R181, R182). -/
def answerRole (tag : Byte) (s : State) : State :=
  if Config.ackDepth ≤ (s.arrive .s).lp.acks.length then s.arrive .s
  else (s.arrive .s).answer tag (Answer.refuse .role)

end State

/-- LIVENESS_EXPIRY (R148). -/
def execLivenessExpiry (port : Port) (s : State) : Host.Outcome State Fault Refusal := .next (s.livenessExpiry port)

/-- TRANSMIT_COMPLETE (R150). -/
def execTransmitComplete (port : Port) (s : State) : Host.Outcome State Fault Refusal :=
  .next (s.transmitComplete port)

/-- POWER_SEND_EXPIRY (R152). -/
def execPowerSendExpiry (s : State) : Host.Outcome State Fault Refusal := .next s.powerSendExpiry

/-- QUENCH_SEND_EXPIRY (R154). -/
def execQuenchSendExpiry (s : State) : Host.Outcome State Fault Refusal := .next s.quenchSendExpiry

/-- ANSWERED_ROLE (R181). -/
def execAnsweredRole (tag : Byte) (s : State) : Host.Outcome State Fault Refusal := .next (s.answerRole tag)

/-- DISCARDED_KIND_ARRIVAL (R181). -/
def execDiscardedKindArrival (port : Port) (s : State) : Host.Outcome State Fault Refusal := .next (s.arrive port)

end Sys2Proof.Machine
end

