-- ==== Sys2Proof/Machine/Reports.lean ====
section
/-! DEFINITION. The actuators' reports (R104, R105, R134, R136, R156 to R160). -/

namespace Sys2Proof.Machine

namespace State

/-! ## POWER_REPORT (R156) -/

/-- The report kept as the latest, its power held at 800,000 (R156). -/
def keepPower (r : PowerReport) (st : InverterState) (s : State) : State :=
  s.setLp { s.lp with
    power := some { power := min r.power Config.powerBound, interval := r.interval, state := st, time := s.now } }

/-- The energy credit of a report (R104, R156). -/
def creditPower (r : PowerReport) (s : State) : State :=
  s.setStk (s.stk.credit (reportEnergy (min r.power Config.powerBound) r.interval))

/-- Whether a report changes into TRIPPED (R136). -/
def trips (st : InverterState) (s : State) : Bool :=
  st == .tripped && (s.lp.power.map (fun k => k.state != .tripped)).getD true

/-- The two hand-offs of a report that trips, in either order (R156; assumption 9). -/
def takeTrip (r : PowerReport) (s : State) : State :=
  if Config.freeFaultFirst s.freeCount then
    ((s.drawn.reportFault .inverter (.port .p)).creditPower r)
  else (s.drawn.creditPower r).reportFault .inverter (.port .p)

/-- The power-limited notice of a report whose state is LIMITING (R105). -/
def noteLimiting (st : InverterState) (s : State) : State :=
  if st = .limiting then s.setStk s.stk.powerLimited else s

/-- A POWER_REPORT with a defined state (R156). -/
def takePower (r : PowerReport) (st : InverterState) (s : State) : State :=
  if s.trips st then (s.keepPower r st).takeTrip r
  else (((s.keepPower r st).creditPower r).noteLimiting st).rejudge

/-- POWER_REPORT on the P-port (R146, R156, R181). -/
def powerReport (p : Payload PowerReport) (s : State) : State :=
  match p with
  | .wrongLength => s.arrive .p
  | .fields r =>
    match InverterState.ofCode r.stateCode with
    | none => s.arrive .p
    | some st => (s.arrive .p).takePower r st

/-! ## DRIVE_STATUS (R158) -/

/-- The drive state kept as the latest (R158). -/
def keepDrive (st : DriveState) (s : State) : State := s.setLp { s.lp with drive := some st }

/-- A DRIVE_STATUS with a defined state: kept, and fault DRIVE at a change into FAULTED (R136, R158). -/
def takeDrive (st : DriveState) (s : State) : State :=
  if st = .faulted ∧ s.lp.drive ≠ some .faulted then (s.keepDrive st).reportFault .drive (.port .m)
  else s.keepDrive st

/-- DRIVE_STATUS on the M-port (R146, R158, R181). -/
def driveStatus (p : Payload Nat) (s : State) : State :=
  match p with
  | .wrongLength => s.arrive .m
  | .fields c =>
    match DriveState.ofCode c with
    | none => s.arrive .m
    | some st => (s.arrive .m).takeDrive st

/-! ## QUENCH_REPORT (R134, R159, R160) -/

/-- A report's pressure and flow held at their bounds (R159). -/
def boundQuench (r : QuenchReport) : QuenchReport :=
  { pressure := min r.pressure 2000, flow := min r.flow 20000, temperature := r.temperature }

/-- The report kept as the latest (R159). -/
def keepQuench (r : QuenchReport) (s : State) : State := s.setLp { s.lp with quench := some r }

/-- The indications judged from the report just kept; in IDLE they are not judged (R160). -/
def judgeIndications (s : State) : State := if s.sq.st = .idle then s else s.rejudgeQuench

/-- The pressure watch at a report (R134). -/
def watchPressure (r : QuenchReport) (s : State) : State :=
  match s.recipe with
  | none => s
  | some h =>
    if pressureBelow h r then
      if s.pe.quenchOn && s.sq.pressureWatch.isNone then
        s.setSq { s.sq with pressureWatch := some (s.now + Config.pressureWatch) }
      else s
    else s.setSq { s.sq with pressureWatch := none }

/-- QUENCH_REPORT on the Q-port (R146, R159, R181). -/
def quenchReport (p : Payload QuenchReport) (s : State) : State :=
  match p with
  | .wrongLength => s.arrive .q
  | .fields r =>
    (((s.arrive .q).keepQuench (boundQuench r)).judgeIndications).watchPressure (boundQuench r)

end State

/-- POWER_REPORT (R156). -/
def execPowerReport (p : Payload PowerReport) (s : State) : Host.Outcome State Fault Refusal :=
  .next (s.powerReport p)

/-- DRIVE_STATUS (R158). -/
def execDriveStatus (p : Payload Nat) (s : State) : Host.Outcome State Fault Refusal := .next (s.driveStatus p)

/-- QUENCH_REPORT (R159). -/
def execQuenchReport (p : Payload QuenchReport) (s : State) : Host.Outcome State Fault Refusal :=
  .next (s.quenchReport p)

end Sys2Proof.Machine
end

