-- ==== Sys2Proof/Machine/Results.lean ====
section
/-! DEFINITION. The requests that read: the status snapshot, the summary, exceptions, captures and the fault record
(R22, R23, R69, R92, R113, R118, R119, R140, R161, R175, R187, R192). -/

namespace Sys2Proof.Machine

namespace State

/-! ## READ_STATUS (R187, and its parts in R192) -/

/-- Condition flags: the start conditions in phase WAIT, heat-enable, supply low. -/
def conditionFlags (s : State) : Nat :=
  let wait := s.sq.st == .approach .wait
  let r := s.sq.startRecord
  bitsToNat [wait && r.spindle, wait && r.inverter, wait && r.coolant, wait && r.waitExpired, s.lu.heatEnable,
    s.sq.supplyLow]

/-- The expiry of the running approach wait, dwell, post-quench or flood timer; at most one of them runs. -/
def runningTimer (s : State) : Option Nat :=
  ((s.sq.approachWait.or s.sq.dwellTimer).or s.sq.postQuench).or s.sq.floodTimer

def statusPart1 (s : State) : List Byte :=
  beBytes 1 s.sq.st.code ++ beBytes 1 s.sq.st.phaseCode ++ beBytes 4 s.sq.scanNumber.toNat ++
  beBytes 2 (s.hdr (·.identifier)) ++ beOpt 1 s.sq.nextDwell ++ beOpt 1 s.sq.dwellZone ++
  beBytes 1 s.conditionFlags ++ beOpt 1 (s.sq.heldFrom.map HeldFrom.stateCode) ++
  beOptInt 4 (s.sq.heldFrom.bind HeldFrom.brk) ++ beOpt 1 (s.sq.faultRecord.map (·.code.code)) ++
  beBytes 1 s.sq.secondaryCount ++ beOpt 8 s.runningTimer ++ beOpt 1 s.pe.heatingZone ++ beOpt 1 s.pe.quenchZone ++
  beBytes 4 s.pe.power ++ beBytes 1 (bitsToNat [s.pe.enable, s.pe.stop, s.pe.flood]) ++ beInt 4 s.pe.speed ++
  beBytes 2 s.pe.spindle ++ [s.pe.mask] ++ beBytes 2 s.pe.flow

def statusPart2 (s : State) : List Byte :=
  beInt 4 s.cu.s ++ beInt 4 s.cu.frontier ++ beInt 4 s.cu.speed ++ beBytes 4 s.cu.rawCount.toNat ++
  beOptInt 4 (s.cu.indexRecord.map (·.count.toInt)) ++ beOpt 8 (s.cu.indexRecord.map (·.time)) ++
  beBytes 1 (bitsToNat [s.cu.encoderError, s.cu.overrun, s.cu.datumTaken]) ++ beBytes 1 s.cu.captures.length ++
  beOpt 2 s.lu.rpm ++ beOptInt 4 s.lu.travel

/-- The index of the open slice (R119). -/
def openSliceIndex (s : State) : Option Nat := (s.stk.track.find? SliceRecord.isOpen).map (·.index)

/-- The summary's fields of part 3. -/
def summaryStatus (u : Option Summary) : List Byte :=
  beOpt 4 (u.map (·.scanNumber.toNat)) ++ beOpt 1 (u.map (·.status.code)) ++ beOpt 1 (u.map (·.read.toNat)) ++
  beOpt 2 (u.map (fun v => min v.total 65535)) ++ beOpt 2 (u.map (fun v => min v.nonconforming 65535)) ++
  beOpt 1 (u.map (·.detailIncomplete.toNat)) ++ beOpt 6 (u.map (·.unassigned))

def linkBytes (s : State) : List Byte :=
  [Port.s, Port.p, Port.m, Port.q].flatMap (fun w => beBytes 1 (s.lp.port w).link.code)

def statusPart3 (s : State) : List Byte :=
  beBytes 1 s.stk.track.length ++ beOpt 2 s.openSliceIndex ++ beOpt 2 s.stk.highWater ++
  beBytes 1 s.stk.exceptions.length ++ summaryStatus s.stk.summary ++ s.linkBytes ++
  beOpt 4 (s.lp.power.map (·.power)) ++ beOpt 2 (s.lp.power.map (·.interval)) ++
  beOpt 1 (s.lp.power.map (·.state.code)) ++ beOpt 8 (s.lp.power.map (·.time)) ++ beOpt 1 (s.lp.drive.map (·.code))

/-- The levels of the eight lines as a set (R175). -/
def lineLevels (s : State) : Nat := bitsToNat (s.lu.lines.toList.map (s.lu.level s.outputView))

def markBytes (m : Mark) : List Byte := beBytes 1 (bitsToNat [m.enable, m.pulse.isSome]) ++ beInt 4 m.target

def statusPart4 (s : State) : List Byte :=
  beOpt 2 (s.lp.quench.map (·.pressure)) ++ beOpt 2 (s.lp.quench.map (·.flow)) ++
  beOptInt 2 (s.lp.quench.map (·.temperature)) ++ beBytes 1 (bitsToNat [s.lp.pressureLow, s.lp.quenchantOut]) ++
  beBytes 1 s.lineLevels ++ beOpt 8 s.lu.prevIndexTime ++ beBytes 1 s.lp.control.byte ++
  s.lu.marks.toList.flatMap markBytes

/-- The slot conditions, slot k at bits 2k and 2k + 1. -/
def slotConditions : List RecipeSlot → Nat
  | [] => 0
  | r :: rest => r.condition.code + 4 * slotConditions rest

def statusPart5 (s : State) : List Byte :=
  let op := s.rs.inFlight.map (·.op)
  beBytes 1 ((op.map RsOp.code).getD 0) ++ beOpt 1 (op.bind RsOp.slot) ++
  beOpt 8 (s.rs.inFlight.map (·.completes)) ++ beBytes 1 s.rs.startUp.code ++ beOpt 1 s.rs.startUp.field ++
  beOpt 1 s.rs.startUp.zone ++ beBytes 4 (slotConditions s.rs.slots.toList)

/-- The snapshot: five parts formed at one instant. -/
def statusParts (s : State) : List (List Byte) :=
  [s.statusPart1, s.statusPart2, s.statusPart3, s.statusPart4, s.statusPart5]

/-- READ_STATUS's rule (R186, R187). -/
def readStatus (part : Nat) (s : State) : State × Answer :=
  if part = 1 then s.deliverFirst .status s.statusParts else s.deliverLater .status part

/-! ## READ_SUMMARY (R118) -/

/-- The eleven counts in the order of the reason set with DWELL last (R192). -/
def countBytes (n : ReasonCounts) : List Byte :=
  [n.underEnergy, n.overEnergy, n.earlyQuench, n.lateQuench, n.powerLimited, n.holdBreak, n.seam, n.quenchant,
    n.quenchLow, n.flooded, n.dwell].flatMap beCount

def summaryPart1 (u : Summary) : List Byte :=
  beBytes 4 u.scanNumber.toNat ++ beBytes 2 u.identifier ++ beBytes 1 u.status.code ++ beCount u.total ++
  beCount u.conforming ++ beCount u.nonconforming ++ countBytes u.counts ++ beOpt 2 u.firstNonconforming

def summaryPart2 (u : Summary) : List Byte :=
  beMeasure (u.ratio.map (·.1)) ++ beMeasure (u.ratio.map (·.2)) ++ beMeasure (u.interval.map (·.1)) ++
  beMeasure (u.interval.map (·.2)) ++ beCount u.skipped ++ beBytes 6 u.unassigned ++ beMeasure u.drift ++
  beFlag u.datumDrift ++ beOpt 1 (u.faultCode.map (·.code)) ++ beFlag u.detailIncomplete ++ beCount u.delivered ++
  beFlag u.read

/-- READ_SUMMARY's rule (R118, R186). -/
def readSummary (part : Nat) (s : State) : State × Answer :=
  if part = 1 then
    match s.stk.summary with
    | none => (s, Answer.refuse .empty)
    | some u =>
      let r := s.deliverFirst .summary [summaryPart1 u, summaryPart2 u]
      (r.1.setStk r.1.stk.markRead, r.2)
  else s.deliverLater .summary part

/-! ## READ_EXCEPTION (R113), READ_CAPTURE (R22), READ_FAULT (R140) -/

def exceptionBytes (e : ExceptionRecord) : List Byte :=
  beBytes 2 e.index ++ beBytes 1 e.zone ++ beBytes 2 e.reasons.word ++ beBytes 6 e.energy ++ beOpt 6 e.target ++
  beMeasure e.interval ++ beBytes 8 e.closeTime

/-- READ_EXCEPTION's rule (R113). -/
def readException (_ : Unit) (s : State) : State × Answer :=
  match s.stk.exceptions with
  | [] => (s, Answer.refuse .empty)
  | e :: rest =>
    (s.setStk s.stk.dropException,
      Answer.ok (exceptionBytes e ++ beBytes 1 rest.length ++
        beFlag ((s.stk.summary.map (·.detailIncomplete)).getD false)))

def captureBytes (c : CaptureStamp) : List Byte :=
  beBytes 1 c.source.code ++ beOpt 1 (c.edge.map LineEdge.code) ++ beBytes 8 c.time ++ beInt 4 c.coord

/-- READ_CAPTURE's rule (R22). -/
def readCapture (_ : Unit) (s : State) : State × Answer :=
  match s.cu.captures with
  | [] => (s, Answer.refuse .empty)
  | c :: rest =>
    (s.setCu s.cu.dropCapture, Answer.ok (captureBytes c ++ beFlag s.cu.overrun ++ beBytes 1 rest.length))

def faultBytes (f : FaultRecord) : List Byte :=
  beBytes 1 f.code.code ++ beBytes 1 f.source.code ++ beInt 4 f.coord ++ beBytes 8 f.time ++ beBytes 1 f.state.code ++
  beBytes 1 f.state.phaseCode

def secondaryBytes (f : Option SecondaryFault) : List Byte :=
  beOpt 1 (f.map (·.code.code)) ++ beOpt 1 (f.map (·.source.code)) ++ beOpt 8 (f.map (·.time))

/-- READ_FAULT's rule (R140). -/
def readFault (_ : Unit) (s : State) : State × Answer :=
  match s.sq.faultRecord with
  | none => (s, Answer.refuse .empty)
  | some f =>
    (s, Answer.ok (faultBytes f ++ beBytes 1 s.sq.secondaryCount ++ secondaryBytes s.sq.latestSecondary))

end State

/-- READ_STATUS (R187). -/
def execReadStatus (tag : Byte) (p : Payload Nat) (s : State) : Host.Outcome State Fault Refusal :=
  .next (takeRequest tag p State.readStatus s)

/-- READ_SUMMARY (R118). -/
def execReadSummary (tag : Byte) (p : Payload Nat) (s : State) : Host.Outcome State Fault Refusal :=
  .next (takeRequest tag p State.readSummary s)

/-- READ_EXCEPTION (R113). -/
def execReadException (tag : Byte) (p : Payload Unit) (s : State) : Host.Outcome State Fault Refusal :=
  .next (takeRequest tag p State.readException s)

/-- READ_CAPTURE (R22). -/
def execReadCapture (tag : Byte) (p : Payload Unit) (s : State) : Host.Outcome State Fault Refusal :=
  .next (takeRequest tag p State.readCapture s)

/-- READ_FAULT (R140). -/
def execReadFault (tag : Byte) (p : Payload Unit) (s : State) : Host.Outcome State Fault Refusal :=
  .next (takeRequest tag p State.readFault s)

end Sys2Proof.Machine
end

