-- ==== Sys2Proof/Machine/Settings.lean ====
section
/-! DEFINITION. The requests that set up the coordinate unit and the line unit: position configuration, lines, latches
and marks (R7, R8, R164, R165, R169, R170). -/

namespace Sys2Proof.Machine

namespace State

/-- The states in which a WRITE_POSITION_CONFIG is refused SCANNING (R7). -/
def positionLocked (w : PositionWrite) (s : State) : Bool :=
  s.sq.st.isMotion || (s.sq.st == .held && positionBeyondTrim w)

/-- The pitch that bounds K: the active bank's, in ARMED and DONE (R7). -/
def boundingPitch (s : State) : Option Nat :=
  if s.sq.st = .armed ∨ s.sq.st = .done then s.recipe.map (·.pitch) else none

/-- WRITE_POSITION_CONFIG's rule (R7, R8). -/
def writePosition (w : PositionWrite) (s : State) : State × Answer :=
  if s.positionLocked w then (s, Answer.refuse .scanning)
  else
    match s.cu.positionFailure s.boundingPitch w with
    | some field => (s, Answer.invalid field none)
    | none => (s.setCu (s.cu.writePosition w), Answer.ok [])

/-- WRITE_LINE_CONFIG's rule (R164, R165). -/
def writeLineConfig (w : LineWrite) (s : State) : State × Answer :=
  if h : w.line < 8 then
    if s.sq.st.inScan then (s, Answer.refuse .scanning)
    else
      match readRole w with
      | .error field => (s, Answer.invalid field none)
      | .ok (pullUp, role) =>
        if s.lu.functionTaken ⟨w.line, h⟩ role then (s, Answer.invalid 75 none)
        else (s.setLu (s.lu.configure ⟨w.line, h⟩ pullUp role), Answer.ok [])
  else (s, Answer.invalid 54 none)

/-- One latch set (R169). -/
def setLatch (u : Lu) (w : Nat × Bool) : Lu :=
  if h : w.1 < 8 then u.setLine ⟨w.1, h⟩ { u.lines[w.1] with latch := w.2 } else u

/-- WRITE_LINE's rule (R169). -/
def writeLatches (l : List (Nat × Bool)) (s : State) : State × Answer :=
  if l.all (fun w => decide (w.1 < 8)) then (s.setLu (l.foldl setLatch s.lu), Answer.ok [])
  else (s, Answer.invalid 54 none)

/-- A line in READ_LINES's answer (R169). -/
def lineBytes (s : State) (n : Line) : List Byte :=
  beBytes 1 n.role.directionCode ++ beBytes 1 n.role.functionCode ++ beFlag (s.lu.level s.outputView n) ++
  beFlag n.latch

/-- READ_LINES's rule (R169). -/
def readLines (_ : Unit) (s : State) : State × Answer := (s, Answer.ok (s.lu.lines.toList.flatMap s.lineBytes))

/-- WRITE_MARK's rule (R170). -/
def writeMark (w : MarkWrite) (s : State) : State × Answer :=
  if h : w.mark < 4 then
    match readMark w s.lu.marks[w.mark] with
    | .error field => (s, Answer.invalid field none)
    | .ok m => (s.setLu (s.lu.setMark ⟨w.mark, h⟩ m), Answer.ok [])
  else (s, Answer.invalid 55 none)

end State

/-- WRITE_POSITION_CONFIG (R7). -/
def execWritePositionConfig (tag : Byte) (p : Payload PositionWrite) (s : State) :
    Host.Outcome State Fault Refusal := .next (takeRequest tag p State.writePosition s)

/-- WRITE_LINE_CONFIG (R164). -/
def execWriteLineConfig (tag : Byte) (p : Payload LineWrite) (s : State) : Host.Outcome State Fault Refusal :=
  .next (takeRequest tag p State.writeLineConfig s)

/-- WRITE_LINE (R169). -/
def execWriteLine (tag : Byte) (p : Payload (List (Nat × Bool))) (s : State) : Host.Outcome State Fault Refusal :=
  .next (takeRequest tag p State.writeLatches s)

/-- READ_LINES (R169). -/
def execReadLines (tag : Byte) (p : Payload Unit) (s : State) : Host.Outcome State Fault Refusal :=
  .next (takeRequest tag p State.readLines s)

/-- WRITE_MARK (R170). -/
def execWriteMark (tag : Byte) (p : Payload MarkWrite) (s : State) : Host.Outcome State Fault Refusal :=
  .next (takeRequest tag p State.writeMark s)

end Sys2Proof.Machine
end

