-- ==== Sys2Proof/Machine/Receiver.lean ====
section
/-! DEFINITION. The receivers: characters, frames and the role check (R177 to R181). A frame that completes here is
taken by the operations its own command runs (assumption 5). -/

namespace Sys2Proof.Machine

namespace State

def setRx (port : Port) (rx : RxPhase) (gap : Option Nat) (s : State) : State :=
  s.setLp (s.lp.setPort { s.lp.port port with rx := rx, gap := gap } port)

/-- A discard: the receiver back in HUNT, and nothing else (R179). -/
def discardFrame (port : Port) (s : State) : State := s.setRx port .hunt none

/-- INTER_CHARACTER_TIMEOUT's rule (R179). -/
def gapExpiry (port : Port) (s : State) : State :=
  if reached (s.lp.port port).gap s.now then s.discardFrame port else s

/-! ## The role check (R181) -/

/-- A CONTROL frame of a wrong length: answered on the S-port, its data the control word and both outcomes as in every
answer to a CONTROL frame; discarded elsewhere (R181, R183, R184; assumption 18). -/
def refuseControl (port : Port) (tag : Byte) (s : State) : State :=
  if port ≠ .s ∨ Config.ackDepth ≤ (s.arrive port).lp.acks.length then s.arrive port
  else
    (s.arrive port).answer tag
      (if (s.arrive port).lp.pendingReset then controlBusy (s.arrive port).lp.control
        else controlInvalid (s.arrive port).lp.control)

/-- A CONTROL frame's payload (R181, R184). -/
def takeControlPayload (port : Port) (tag : Byte) (l : List Byte) (s : State) : State :=
  match readControl l with
  | .fields w => s.takeControl port tag w
  | .wrongLength => s.refuseControl port tag

/-- A frame of a supervisor request on the S-port. -/
def takeSupervisor (k : FrameKind) (tag : Byte) (l : List Byte) (s : State) : State :=
  match k with
  | .control => s.takeControlPayload .s tag l
  | .readStatus => takeRequest tag (readByte l) readStatus s
  | .writeHeader => takeRequest tag (readHeaderWrite l) writeHeader s
  | .writeZone => takeRequest tag (readZoneWrite l) writeZone s
  | .readZone => takeRequest tag (readZoneRead l) readZone s
  | .commit => takeRequest tag (readNothing l) commit s
  | .disarm => takeRequest tag (readNothing l) disarm s
  | .loadRecipe => takeRequest tag (readByte l) loadRecipe s
  | .storeRecipe => takeRequest tag (readByte l) storeRecipe s
  | .eraseRecipe => takeRequest tag (readByte l) eraseRecipe s
  | .readSummary => takeRequest tag (readByte l) readSummary s
  | .readException => takeRequest tag (readNothing l) readException s
  | .readCapture => takeRequest tag (readNothing l) readCapture s
  | .readFault => takeRequest tag (readNothing l) readFault s
  | .writePositionConfig => takeRequest tag (readPositionWrite l) writePosition s
  | .writeLineConfig => takeRequest tag (readLineWrite l) writeLineConfig s
  | .writeLine => takeRequest tag (readLineLevels l) writeLatches s
  | .readLines => takeRequest tag (readNothing l) readLines s
  | .writeMark => takeRequest tag (readMarkWrite l) writeMark s
  | .writeOptions => takeRequest tag (readOptionsWrite l) writeOptions s
  | .reset => takeRequest tag (readNothing l) requestReset s
  | .powerReport => s.answerRole tag
  | .driveStatus => s.answerRole tag
  | .quenchReport => s.answerRole tag
  | .sentByPart => s.answerRole tag

/-- A valid frame judged by its kind against the port's role (R181). -/
def takeFrame (port : Port) (kind tag : Byte) (l : List Byte) (s : State) : State :=
  match FrameKind.ofCode kind, port with
  | none, _ => s.arrive port
  | some k, .s => s.takeSupervisor k tag l
  | some .control, _ => s.takeControlPayload port tag l
  | some .powerReport, .p => s.powerReport (readPowerReport l)
  | some .driveStatus, .m => s.driveStatus (readByte l)
  | some .quenchReport, .q => s.quenchReport (readQuenchReport l)
  | some _, _ => s.arrive port

/-! ## Characters (R177, R179) -/

/-- The end of the header: an over-long frame is discarded, an empty payload goes to CHECK at once (R179). -/
def endHeader (port : Port) (kind tag len : Byte) (s : State) : State :=
  if Config.payloadBound < len.toNat then s.discardFrame port
  else
    s.setRx port (if len = 0 then .check kind tag [] none else .payload kind tag len.toNat [])
      (some (s.now + Config.characterGap))

/-- The two check characters compared (R178, R179). -/
def endCheck (port : Port) (kind tag : Byte) (l : List Byte) (c1 c2 : Byte) (s : State) : State :=
  if [c1, c2] = beBytes 2 (crc16 ([kind, tag, BitVec.ofNat 8 l.length] ++ l)).toNat then s.takeFrame port kind tag l
  else s.discardFrame port

/-- A character with a good stop bit (R179). -/
def goodCharacter (port : Port) (c : Byte) (s : State) : State :=
  let gap := some (s.now + Config.characterGap)
  match (s.lp.port port).rx with
  | .hunt => if c = 0x5A then s.setRx port (.header []) gap else s
  | .header [] => s.setRx port (.header [c]) gap
  | .header [k] => s.setRx port (.header [k, c]) gap
  | .header (k :: t :: _) => s.endHeader port k t c
  | .payload k t n got =>
    if got.length + 1 < n then s.setRx port (.payload k t n (got ++ [c])) gap
    else s.setRx port (.check k t (got ++ [c]) none) gap
  | .check k t l none => s.setRx port (.check k t l (some c)) gap
  | .check k t l (some c1) => s.endCheck port k t l c1 c

/-- CHARACTER_RECEIVED's rule: a framing error drops the character and the frame in progress (R177, R179). -/
def takeCharacter (port : Port) (c : Byte) (stopHigh : Bool) (s : State) : State :=
  if stopHigh then s.goodCharacter port c else s.discardFrame port

end State

/-- FRAME_DISCARD (R179). -/
def execFrameDiscard (port : Port) (s : State) : Host.Outcome State Fault Refusal := .next (s.discardFrame port)

/-- INTER_CHARACTER_TIMEOUT (R179). -/
def execInterCharacterTimeout (port : Port) (s : State) : Host.Outcome State Fault Refusal := .next (s.gapExpiry port)

/-- CHARACTER_RECEIVED (R179). -/
def execCharacterReceived (port : Port) (c : Byte) (stopHigh : Bool) (s : State) : Host.Outcome State Fault Refusal :=
  .next (s.takeCharacter port c stopHigh)

end Sys2Proof.Machine
end

