-- ==== Sys2Proof/Machine/Timers.lean ====
section
/-! DEFINITION. The expiries of the sequencer's, the profile engine's and the line unit's timers, and the changes of the
auxiliary pins (R19, R20, R49, R82, R86, R88, R132 to R135, R142, R166, R167, R172, R173). An expiry of a timer that
has not reached its instant changes nothing (assumption 3). -/

namespace Sys2Proof.Machine

namespace State

/-! ## The update timer (R49, R85) -/

/-- UPDATE_EXPIRY's rule. -/
def updateExpiry (s : State) : State :=
  if s.pe.nextUpdate ≤ s.now then
    ((s.setPe { s.pe with nextUpdate := s.pe.nextUpdate + Config.updatePeriod }).update).settle
  else s

/-! ## The scan's timers -/

/-- APPROACH_WAIT_EXPIRY's rule (R82). -/
def waitExpiry (s : State) : State :=
  if s.sq.st = .approach .wait ∧ reached s.sq.approachWait s.now then
    if !s.lu.spindleReady s.pe.spindle then s.reportFault .spiral .sq
    else if !s.inverterReady then s.reportFault .inverter .sq
    else s.setSq { s.sq with
      approachWait := none, startRecord := { s.sq.startRecord with waitExpired := true } }
  else s

/-- DWELL_TIMER_EXPIRY's rule (R86). -/
def dwellExpiry (s : State) : State :=
  if s.sq.st = .dwell .timing ∧ reached s.sq.dwellTimer s.now then
    (s.setSq { s.sq with dwellZone := none }).enterHeating
  else s

/-- The summary-close notice to the slice tracker (R117). -/
def closeSummary (status : SummaryStatus) (code : Option FaultCode) (s : State) : State :=
  s.setStk (s.stk.closeSummary status code)

/-- DONE entered, and the summary closed COMPLETE (R89). -/
def enterDone (s : State) : State := (s.change .done).closeSummary .complete none

/-- POST_QUENCH_EXPIRY's rule (R88, R125). -/
def postQuenchExpiry (s : State) : State :=
  if reached s.sq.postQuench s.now then
    if s.sq.st = .runout .postQuench then s.enterDone
    else if s.sq.st = .quenchout .postQuench then s.change .held
    else s
  else s

/-- The status with which a flood's end closes the summary (R142). -/
def floodStatus (code : Option FaultCode) : SummaryStatus := if code = some .aborted then .aborted else .faulted

/-- Phase STANDING, the flood timer at its end (R142). -/
def endFlood (s : State) : State := s.setSq { s.sq with st := .fault .standing, floodTimer := none }

/-- FLOOD_EXPIRY's rule (R142). -/
def floodExpiry (s : State) : State :=
  if s.sq.st = .fault .flood ∧ reached s.sq.floodTimer s.now then
    let code := s.sq.faultRecord.map (·.code)
    ((s.closeSummary (floodStatus code) code).endFlood).update
  else s

/-- INDEX_WATCH_EXPIRY's rule (R133). -/
def indexWatchExpiry (s : State) : State :=
  if s.sq.st = .heating ∧ reached s.sq.indexWatch s.now then s.reportFault .spiral .sq else s

/-- PRESSURE_WATCH_EXPIRY's rule (R134). -/
def pressureWatchExpiry (s : State) : State :=
  if reached s.sq.pressureWatch s.now then
    (s.setSq { s.sq with pressureWatch := none }).reportFault .quenchPressure (.port .q)
  else s

/-! ## Edges by line function (R167) -/

/-- SEEK left for APPROACH once the datum step is complete, with the run-in check (R79, R80). -/
def endSeek (s : State) : State :=
  if s.sq.st = .seek then (s.change (.approach .travel)).runInCheck else s

/-- The datum step, and what the sequencer makes of it (R19, R79, R80). -/
def datumStep (h : RecipeHeader) (c : Int) (s : State) : State :=
  let moved := s.cu.datumStep (h.datumCoord - c)
  ((s.setCu moved.1).travelCheck moved.2).endSeek

/-- A datum edge with its compensated coordinate (R19, R20). -/
def datumEdge (c : Int) (s : State) : State :=
  match s.recipe with
  | none => s
  | some h =>
    if s.sq.st = .seek then s.datumStep h c
    else if s.cu.datumTaken then s.setStk (s.stk.noteDrift h.datumTol (c - h.datumCoord))
    else s

/-- An end-probe edge (R132). -/
def endProbeEdge (s : State) : State :=
  if (s.recipe.map (fun h => h.endProbeOn)).getD false ∧ s.cu.frontier < s.xEnd then s.reportFault .partLength .lu
  else s

/-- Whether the last revolution's travel exceeds five quarters of the spindle zone's helix pitch (R133). -/
def overPitched (s : State) : Bool :=
  ((spindleHelix s.zones s.pe.heatingZone : Nat) : Int) * 5 < s.lu.travel.getD 0 * 4

/-- The over-pitch count after a revolution that ends in HEATING; the first after an entry is not judged (R133). -/
def nextOverPitch (s : State) : Nat :=
  if s.sq.firstRevolution then s.sq.overPitch else if s.overPitched then s.sq.overPitch + 1 else 0

/-- The watch restarted and the count set, at a revolution that ends in HEATING (R133). -/
def countRevolution (s : State) : State :=
  s.setSq { s.sq with
    indexWatch := some (s.now + s.watchTime), overPitch := s.nextOverPitch, firstRevolution := false }

/-- A revolution that ends in HEATING: the watch restarted, the pitch judged (R133). -/
def judgeRevolution (s : State) : State :=
  if 2 ≤ s.nextOverPitch then s.countRevolution.reportFault .spiral .sq else s.countRevolution

/-- A revolution handed to the sequencer (R82, R133). -/
def handRevolution (s : State) : State := if s.sq.st = .heating then s.judgeRevolution else s.rejudge

/-- An accepted index edge (R173), handed to the sequencer when it measures a revolution (R82, R133). -/
def indexEdge (s : State) : State :=
  let u := s.lu.indexEdge s.now s.cu.frontier
  if u.2 then (s.setLu u.1).handRevolution else s.setLu u.1

/-- A new coil-water level (R82, R135). -/
def coilWaterLevel (level : Bool) (s : State) : State :=
  if level then s.rejudge else (s.reportFault .coolant .lu).rejudge

/-- A new interlock level (R135). -/
def interlockLevel (level : Bool) (s : State) : State := if level then s else s.reportFault .interlock .lu

/-- A change of a filtered level, handed on by the line's function (R167). -/
def handLevel (fn : InputFn) (taken level : Bool) (c : Int) (s : State) : State :=
  match fn with
  | .datum => if taken then s.datumEdge c else s
  | .endProbe => if taken then s.endProbeEdge else s
  | .spindleIndex => if taken then s.indexEdge else s
  | .coilWater => s.coilWaterLevel level
  | .interlock => s.interlockLevel level
  | .general => s

/-- A capture stamp of a line's edge (R21, R167). -/
def captureLine (k : LineNo) (e : LineEdge) (c : Int) (s : State) : State :=
  s.setCu (s.cu.capture { source := .line k, edge := some e, time := s.now, coord := c })

/-- The stamp of a taken edge, where the line has capture ON. -/
def captureIf (stamp : Bool) (k : LineNo) (e : LineEdge) (c : Int) (s : State) : State :=
  if stamp then s.captureLine k e c else s

/-- The filter's acceptance of the pin's level (R166). -/
def acceptLine (k : LineNo) (s : State) : State := s.setLu (s.lu.setLine k (s.lu.lines[k]).accept)

/-- FILTER_EXPIRY's rule (R166, R167). -/
def filterExpiry (k : LineNo) (s : State) : State :=
  let n := s.lu.lines[k]
  match n.role with
  | .output _ => s
  | .input edge _ latency fn capture =>
    if reached n.filterTimer s.now then
      if n.pin = n.filtered then s.acceptLine k
      else
        let taken := edge.takes (edgeTo n.pin)
        ((s.acceptLine k).captureIf (taken && capture) k (edgeTo n.pin) (s.cu.compensated latency)).handLevel fn taken
          n.pin (s.cu.compensated latency)
    else s

/-- AUX_PIN_CHANGE's rule (R166). -/
def pinChange (k : LineNo) (drive : PinDrive) (s : State) : State :=
  s.setLu (s.lu.setLine k (s.lu.lines[k].pinChange s.now drive))

/-! ## Marks and the spindle (R172, R173) -/

/-- MARK_PULSE_EXPIRY's rule (R172). -/
def markExpiry (k : MarkNo) (s : State) : State :=
  if reached (s.lu.marks[k]).pulse s.now then s.setLu (s.lu.setMark k { s.lu.marks[k] with pulse := none }) else s

/-- WITHDRAWAL_EXPIRY's rule (R173). -/
def withdrawalExpiry (s : State) : State :=
  if reached s.lu.withdrawal s.now then (s.setLu { s.lu with rpm := none, withdrawal := none }).rejudge else s

end State

/-- UPDATE_EXPIRY (R49). -/
def execUpdateExpiry (s : State) : Host.Outcome State Fault Refusal := .next s.updateExpiry

/-- APPROACH_WAIT_EXPIRY (R82). -/
def execApproachWaitExpiry (s : State) : Host.Outcome State Fault Refusal := .next s.waitExpiry

/-- DWELL_TIMER_EXPIRY (R86). -/
def execDwellTimerExpiry (s : State) : Host.Outcome State Fault Refusal := .next s.dwellExpiry

/-- POST_QUENCH_EXPIRY (R88). -/
def execPostQuenchExpiry (s : State) : Host.Outcome State Fault Refusal := .next s.postQuenchExpiry

/-- FLOOD_EXPIRY (R142). -/
def execFloodExpiry (s : State) : Host.Outcome State Fault Refusal := .next s.floodExpiry

/-- INDEX_WATCH_EXPIRY (R133). -/
def execIndexWatchExpiry (s : State) : Host.Outcome State Fault Refusal := .next s.indexWatchExpiry

/-- PRESSURE_WATCH_EXPIRY (R134). -/
def execPressureWatchExpiry (s : State) : Host.Outcome State Fault Refusal := .next s.pressureWatchExpiry

/-- AUX_PIN_CHANGE (R166). -/
def execAuxPinChange (k : LineNo) (drive : PinDrive) (s : State) : Host.Outcome State Fault Refusal :=
  .next (s.pinChange k drive)

/-- FILTER_EXPIRY (R166). -/
def execFilterExpiry (k : LineNo) (s : State) : Host.Outcome State Fault Refusal := .next (s.filterExpiry k)

/-- MARK_PULSE_EXPIRY (R172). -/
def execMarkPulseExpiry (k : MarkNo) (s : State) : Host.Outcome State Fault Refusal := .next (s.markExpiry k)

/-- WITHDRAWAL_EXPIRY (R173). -/
def execWithdrawalExpiry (s : State) : Host.Outcome State Fault Refusal := .next s.withdrawalExpiry

end Sys2Proof.Machine
end

