-- ==== Sys2Proof/Machine/Clock.lean ====
section
/-! DEFINITION. What the part does when no command waits: the expiries due at the present instant are put in the queue
in a free order, and where none is due cell time moves on by one microsecond (R9; assumptions 1, 2, 15). -/

namespace Sys2Proof.Machine

namespace State

/-- One command, where a condition holds. -/
def oneIf (b : Bool) (i : Instr) : List Instr := if b then [i] else []

/-- A running timer's expiry, once reached. -/
def due (timer : Option Nat) (s : State) (i : Instr) : List Instr := oneIf (reached timer s.now) i

/-- The expiries of the sequencer and the profile engine that are due. -/
def scanDue (s : State) : List Instr :=
  oneIf (s.pe.nextUpdate ≤ s.now) .updateExpiry ++ due s.sq.approachWait s .approachWaitExpiry ++
  due s.sq.dwellTimer s .dwellTimerExpiry ++ due s.sq.postQuench s .postQuenchExpiry ++
  due s.sq.floodTimer s .floodExpiry ++ due s.sq.indexWatch s .indexWatchExpiry ++
  due s.sq.pressureWatch s .pressureWatchExpiry

/-- The expiries of the line unit that are due. -/
def linesDue (s : State) : List Instr :=
  (List.finRange 8).flatMap (fun k => due (s.lu.lines[k]).filterTimer s (.filterExpiry k)) ++
  (List.finRange 4).flatMap (fun k => due (s.lu.marks[k]).pulse s (.markPulseExpiry k)) ++
  due s.lu.withdrawal s .withdrawalExpiry

/-- The completion of the recipe store's operation that is due. -/
def storeDue (s : State) : List Instr :=
  match s.completed with
  | none => []
  | some (.load _) => [.loadComplete]
  | some (.store _ _) => [.storeComplete]
  | some (.erase _) => [.eraseComplete]
  | some (.options _) => [.optionWriteComplete]

/-- The expiries of one port that are due. -/
def portDue (s : State) (port : Port) : List Instr :=
  oneIf (s.livenessDue port) (.livenessExpiry port) ++ oneIf (s.transmitDue port) (.transmitComplete port) ++
  due (s.lp.port port).gap s (.interCharacterTimeout port)

/-- The expiries of the links that are due, the pending warm reset among them. -/
def linksDue (s : State) : List Instr :=
  s.portDue .s ++ s.portDue .p ++ s.portDue .m ++ s.portDue .q ++ due s.lp.powerSend s .powerSendExpiry ++
  due s.lp.quenchSend s .quenchSendExpiry ++ oneIf s.resetDue .warmReset

/-- Everything that is due at the present instant. -/
def allDue (s : State) : List Instr := s.scanDue ++ s.linesDue ++ s.storeDue ++ s.linksDue

end State

/-- A list in a free order: each draw takes one of the entries that remain. The fuel is the list's length. -/
def freelyOrdered : Nat → Nat → List Instr → List Instr
  | 0, _, l => l
  | fuel + 1, draw, l =>
    match l with
    | [] => []
    | [i] => [i]
    | i :: j :: rest =>
      let all := i :: j :: rest
      let k := Config.freeOrder draw % all.length
      all.getD k i :: freelyOrdered fuel (draw + 1) (all.eraseIdx k)

namespace State

/-- The expiries due now, put in the queue in a free order (R9). -/
def queueDue (s : State) : State :=
  let l := s.allDue
  { s with
    pending := freelyOrdered l.length s.freeCount l
    freeCount := if l.length ≤ 1 then s.freeCount else s.freeCount + l.length }

/-- Cell time moved on by one microsecond (R9). -/
def tick (s : State) : State := s.setCu { s.cu with cellTime := (s.cu.cellTime + 1) % 2 ^ 64 }

/-- The step of an empty queue. -/
def idle (s : State) : State := if s.allDue.isEmpty then s.tick else s.queueDue

end State

end Sys2Proof.Machine
end

