-- ==== Sys2Proof/Machine/Encoder.lean ====
section
/-! DEFINITION. The encoder's commands: ENCODER_TRANSITION and INDEX_RISING_EDGE (R3 to R6, R15 to R17, R131). -/

namespace Sys2Proof.Machine

namespace State

/-- The coordinate unit's own work at a counted edge, up to the frontier (R6, R10, R15, R16). -/
def moveEdge (up : Bool) (s : State) : State := s.setCu (s.cu.stepEdge up).1.advanceFrontier

/-- The edge handed on where it has advanced the frontier (R16). -/
def handAdvance (old : Int) (s : State) : State := if old < s.cu.frontier then s.advance old else s

/-- A counted edge: the coordinate unit's own work, the travel-limit check, then the hand-offs (R16, R17, R131). -/
def takeEdge (up : Bool) (s : State) : State :=
  (((s.moveEdge up).travelCheck (s.cu.stepEdge up).2).reversalCheck).handAdvance s.cu.frontier

/-- The decoder's phase set (R3). -/
def setEncPhase (new : EncPhase) (s : State) : State := s.setCu { s.cu with phase := new }

/-- A legal transition to a phase: the phase is held, and the edge counted where the edge mode counts it; invert
exchanges the senses (R3). -/
def legalTransition (new : EncPhase) (forward : Bool) (s : State) : State :=
  if s.cu.edgeMode.counts s.cu.phase new then (s.setEncPhase new).takeEdge (forward != s.cu.invert)
  else s.setEncPhase new

/-- An illegal transition (R4). -/
def illegalTransition (new : EncPhase) (s : State) : State :=
  (s.setCu { s.cu with phase := new, encoderError := true }).reportFault .encoder .cu

/-- New levels of lines A and B (R3, R4). -/
def takeLevels (a b : Bool) (s : State) : State :=
  let new := EncPhase.ofLevels a b
  match judgeTransition s.cu.phase new with
  | .none => s
  | .forward => s.legalTransition new true
  | .backward => s.legalTransition new false
  | .illegal => s.illegalTransition new

/-- The index record latched (R5). -/
def latchIndex (s : State) : State :=
  s.setCu { s.cu with indexRecord := some { count := s.cu.rawCount, time := s.now } }

end State

/-- ENCODER_TRANSITION (R3). -/
def execEncoderTransition (a b : Bool) (s : State) : Host.Outcome State Fault Refusal := .next (s.takeLevels a b)

/-- INDEX_RISING_EDGE (R5). -/
def execIndexRisingEdge (s : State) : Host.Outcome State Fault Refusal := .next s.latchIndex

end Sys2Proof.Machine
end

