-- ==== Sys2Proof/Machine/Dispatch.lean ====
section
/-! DEFINITION. One arm for each command: the meaning it calls. -/

namespace Sys2Proof.Machine

def exec (i : Instr) (s : State) : Host.Outcome State Fault Refusal :=
  match i with
  | .encoderTransition a b => Sys2Proof.Machine.execEncoderTransition a b s
  | .indexRisingEdge => Sys2Proof.Machine.execIndexRisingEdge s
  | .updateExpiry => Sys2Proof.Machine.execUpdateExpiry s
  | .holdRequest port tag field word => Sys2Proof.Machine.execHoldRequest port tag field word s
  | .abort port tag word => Sys2Proof.Machine.execAbort port tag word s
  | .quenchKeepOn port tag on word => Sys2Proof.Machine.execQuenchKeepOn port tag on word s
  | .faultClear tag word => Sys2Proof.Machine.execFaultClear tag word s
  | .run tag word => Sys2Proof.Machine.execRun tag word s
  | .readStatus tag p => Sys2Proof.Machine.execReadStatus tag p s
  | .writeHeader tag p => Sys2Proof.Machine.execWriteHeader tag p s
  | .writeZone tag p => Sys2Proof.Machine.execWriteZone tag p s
  | .readZone tag p => Sys2Proof.Machine.execReadZone tag p s
  | .commit tag p => Sys2Proof.Machine.execCommit tag p s
  | .disarm tag p => Sys2Proof.Machine.execDisarm tag p s
  | .loadRecipe tag p => Sys2Proof.Machine.execLoadRecipe tag p s
  | .storeRecipe tag p => Sys2Proof.Machine.execStoreRecipe tag p s
  | .eraseRecipe tag p => Sys2Proof.Machine.execEraseRecipe tag p s
  | .readSummary tag p => Sys2Proof.Machine.execReadSummary tag p s
  | .readException tag p => Sys2Proof.Machine.execReadException tag p s
  | .readCapture tag p => Sys2Proof.Machine.execReadCapture tag p s
  | .readFault tag p => Sys2Proof.Machine.execReadFault tag p s
  | .writePositionConfig tag p => Sys2Proof.Machine.execWritePositionConfig tag p s
  | .writeLineConfig tag p => Sys2Proof.Machine.execWriteLineConfig tag p s
  | .writeLine tag p => Sys2Proof.Machine.execWriteLine tag p s
  | .readLines tag p => Sys2Proof.Machine.execReadLines tag p s
  | .writeMark tag p => Sys2Proof.Machine.execWriteMark tag p s
  | .writeOptions tag p => Sys2Proof.Machine.execWriteOptions tag p s
  | .reset tag p => Sys2Proof.Machine.execReset tag p s
  | .answeredRole tag => Sys2Proof.Machine.execAnsweredRole tag s
  | .frameDiscard port => Sys2Proof.Machine.execFrameDiscard port s
  | .interCharacterTimeout port => Sys2Proof.Machine.execInterCharacterTimeout port s
  | .powerReport p => Sys2Proof.Machine.execPowerReport p s
  | .driveStatus p => Sys2Proof.Machine.execDriveStatus p s
  | .quenchReport p => Sys2Proof.Machine.execQuenchReport p s
  | .livenessExpiry port => Sys2Proof.Machine.execLivenessExpiry port s
  | .transmitComplete port => Sys2Proof.Machine.execTransmitComplete port s
  | .powerSendExpiry => Sys2Proof.Machine.execPowerSendExpiry s
  | .quenchSendExpiry => Sys2Proof.Machine.execQuenchSendExpiry s
  | .warmReset => Sys2Proof.Machine.execWarmReset s
  | .powerOnReset levels => Sys2Proof.Machine.execPowerOnReset levels s
  | .supply railMv => Sys2Proof.Machine.execSupply railMv s
  | .supplyRestored railMv => Sys2Proof.Machine.execSupplyRestored railMv s
  | .loadComplete => Sys2Proof.Machine.execLoadComplete s
  | .storeComplete => Sys2Proof.Machine.execStoreComplete s
  | .eraseComplete => Sys2Proof.Machine.execEraseComplete s
  | .optionWriteComplete => Sys2Proof.Machine.execOptionWriteComplete s
  | .approachWaitExpiry => Sys2Proof.Machine.execApproachWaitExpiry s
  | .dwellTimerExpiry => Sys2Proof.Machine.execDwellTimerExpiry s
  | .postQuenchExpiry => Sys2Proof.Machine.execPostQuenchExpiry s
  | .floodExpiry => Sys2Proof.Machine.execFloodExpiry s
  | .indexWatchExpiry => Sys2Proof.Machine.execIndexWatchExpiry s
  | .pressureWatchExpiry => Sys2Proof.Machine.execPressureWatchExpiry s
  | .auxPinChange line drive => Sys2Proof.Machine.execAuxPinChange line drive s
  | .filterExpiry line => Sys2Proof.Machine.execFilterExpiry line s
  | .markPulseExpiry mark => Sys2Proof.Machine.execMarkPulseExpiry mark s
  | .withdrawalExpiry => Sys2Proof.Machine.execWithdrawalExpiry s
  | .holdFieldCleared port tag field word => Sys2Proof.Machine.execHoldFieldCleared port tag field word s
  | .discardedKindArrival port => Sys2Proof.Machine.execDiscardedKindArrival port s
  | .characterReceived port char stopHigh => Sys2Proof.Machine.execCharacterReceived port char stopHigh s

end Sys2Proof.Machine
end

