-- ==== Sys2Proof/WellFormed.lean ====
section
/-! DEFINITION. Which commands a frame, a pin or the rail can bring: every number fits the width the layouts give it
(R190), a CONTROL row's field is one its port may change (R183), and a rail level fits its event (R138). The meanings
are total all the same. -/

namespace Sys2Proof

/-- Fits an unsigned field of n bytes (R190). -/
def fitsU (n v : Nat) : Bool := v < 256 ^ n

/-- Fits a signed field of n bytes (R190). -/
def fitsS (n : Nat) (v : Int) : Bool := -((256 ^ n / 2 : Nat) : Int) ≤ v && v < ((256 ^ n / 2 : Nat) : Int)

/-- An unsigned field that may be absent (R190). -/
def fitsOptU (n : Nat) : Option Nat → Bool
  | none => true
  | some v => v < 256 ^ n

/-- A signed field that may be absent (R190). -/
def fitsOptS (n : Nat) : Option Int → Bool
  | none => true
  | some v => fitsS n v

def HeaderPart1.wf (h : HeaderPart1) : Bool :=
  fitsU 2 h.identifier && fitsU 1 h.directionCode && fitsU 2 h.pitch && fitsU 2 h.offsetD && fitsU 4 h.pMax &&
  fitsU 2 h.qMax && fitsU 2 h.vMin && fitsU 2 h.vMax && fitsU 2 h.seekSpeed && fitsU 2 h.approachSpeed &&
  fitsU 2 h.runoutSpeed && fitsU 2 h.runIn && fitsU 2 h.latencyP && fitsU 4 h.latencyQ && fitsU 2 h.prewet &&
  fitsU 2 h.postQuenchTime && fitsU 2 h.floodTime && fitsU 2 h.floodFlow && fitsU 2 h.reversalTol &&
  fitsU 2 h.energyTol

def HeaderPart2.wf (h : HeaderPart2) : Bool :=
  fitsU 1 h.datumModeCode && fitsS 4 h.datumCoord && fitsS 4 h.originCoord && fitsU 4 h.seekLimit &&
  fitsU 2 h.datumTol && fitsU 2 h.nMax && fitsU 2 h.nBase && fitsU 2 h.pressureMin && fitsS 2 h.windowLow &&
  fitsS 2 h.windowHigh && fitsU 1 h.endProbeCode

def HeaderWrite.wf : HeaderWrite → Bool
  | .part1 h => h.wf
  | .part2 h => h.wf
  | .otherPart n => fitsU 1 n && n != 1 && n != 2

def ZoneWrite.wf (z : ZoneWrite) : Bool :=
  fitsU 1 z.position && fitsU 1 z.kindCode && fitsU 4 z.startX && fitsOptU 2 z.energy && fitsOptU 2 z.zoneSpeed &&
  fitsOptU 4 z.dwellPower && fitsOptU 2 z.dwellTime && fitsU 2 z.flow && fitsOptU 2 z.windowMin &&
  fitsOptU 2 z.windowMax && fitsOptU 2 z.helix

def ZoneRead.wf (z : ZoneRead) : Bool := fitsU 1 z.bankCode && fitsOptU 1 z.position && fitsU 1 z.part

def PositionWrite.wf (w : PositionWrite) : Bool :=
  fitsOptU 4 w.scaleK && fitsOptU 1 (w.trim.map (·.2)) && fitsOptU 1 w.edgeModeCode && fitsOptU 1 w.invertCode &&
  fitsOptS 4 w.lower && fitsOptS 4 w.upper

def LineWrite.wf (w : LineWrite) : Bool :=
  fitsU 1 w.line && fitsU 1 w.directionCode && fitsU 1 w.pullUpCode && fitsOptU 1 w.edgeCode && fitsOptU 2 w.filter &&
  fitsOptU 2 w.latency && fitsOptU 1 w.inputCode && fitsOptU 1 w.captureCode && fitsOptU 1 w.outputCode

def MarkWrite.wf (w : MarkWrite) : Bool :=
  fitsU 1 w.mark && fitsU 1 w.enableCode && fitsS 4 w.target && fitsU 1 w.modeCode && fitsOptU 4 w.addValue &&
  fitsU 2 w.width && fitsU 1 w.stampCode

def OptionsWrite.wf (w : OptionsWrite) : Bool :=
  fitsU 2 w.protectedCount && fitsU 1 w.lossCode && fitsOptU 1 w.startUp

def PowerReport.wf (r : PowerReport) : Bool := fitsU 4 r.power && fitsU 2 r.interval && fitsU 1 r.stateCode

def QuenchReport.wf (r : QuenchReport) : Bool := fitsU 2 r.pressure && fitsU 2 r.flow && fitsS 2 r.temperature

/-- A payload of the right length whose fields fit; a payload of another length is always well formed. -/
def Payload.wf {α : Type} (p : α → Bool) : Payload α → Bool
  | .fields f => p f
  | .wrongLength => true

/-- The commands that can arrive. -/
def Instr.wf : Instr → Bool
  | .holdRequest port _ field _ => port.mayHold field
  | .holdFieldCleared port _ field _ => port.mayHold field
  | .quenchKeepOn port _ _ _ => port.mayKeepOn
  | .readStatus _ p => p.wf (fitsU 1)
  | .writeHeader _ p => p.wf HeaderWrite.wf
  | .writeZone _ p => p.wf ZoneWrite.wf
  | .readZone _ p => p.wf ZoneRead.wf
  | .loadRecipe _ p => p.wf (fitsU 1)
  | .storeRecipe _ p => p.wf (fitsU 1)
  | .eraseRecipe _ p => p.wf (fitsU 1)
  | .readSummary _ p => p.wf (fitsU 1)
  | .writePositionConfig _ p => p.wf PositionWrite.wf
  | .writeLineConfig _ p => p.wf LineWrite.wf
  | .writeLine _ p => p.wf (fun l => l.all (fun w => fitsU 1 w.1))
  | .writeMark _ p => p.wf MarkWrite.wf
  | .writeOptions _ p => p.wf OptionsWrite.wf
  | .powerReport p => p.wf PowerReport.wf
  | .driveStatus p => p.wf (fitsU 1)
  | .quenchReport p => p.wf QuenchReport.wf
  | .powerOnReset e => 4200 < e.railMv
  | .supply mv => 4000 ≤ mv && mv < 4500
  | .supplyRestored mv => 4600 ≤ mv
  | .encoderTransition _ _ => true
  | .indexRisingEdge => true
  | .updateExpiry => true
  | .abort _ _ _ => true
  | .faultClear _ _ => true
  | .run _ _ => true
  | .commit _ _ => true
  | .disarm _ _ => true
  | .readException _ _ => true
  | .readCapture _ _ => true
  | .readFault _ _ => true
  | .readLines _ _ => true
  | .reset _ _ => true
  | .answeredRole _ => true
  | .frameDiscard _ => true
  | .interCharacterTimeout _ => true
  | .livenessExpiry _ => true
  | .transmitComplete _ => true
  | .powerSendExpiry => true
  | .quenchSendExpiry => true
  | .warmReset => true
  | .loadComplete => true
  | .storeComplete => true
  | .eraseComplete => true
  | .optionWriteComplete => true
  | .approachWaitExpiry => true
  | .dwellTimerExpiry => true
  | .postQuenchExpiry => true
  | .floodExpiry => true
  | .indexWatchExpiry => true
  | .pressureWatchExpiry => true
  | .auxPinChange _ _ => true
  | .filterExpiry _ => true
  | .markPulseExpiry _ => true
  | .withdrawalExpiry => true
  | .discardedKindArrival _ => true
  | .characterReceived _ _ _ => true

end Sys2Proof
end

