-- ==== Sys2Proof/Safety.lean ====
section
/-! DEFINITION. The words the statements are made of: what it means that a request is taken, that a control word keeps
its fields, that FAULT has been entered, and the invariants of the machine. -/

namespace Sys2Proof.Machine

/-! ## Frames -/

/-- Every block but the link ports, and the queue, as before. -/
def SameButLinks (s t : State) : Prop :=
  t.pending = s.pending ∧ t.cu = s.cu ∧ t.zt = s.zt ∧ t.rs = s.rs ∧ t.pe = s.pe ∧ t.sq = s.sq ∧ t.stk = s.stk ∧
  t.lu = s.lu ∧ t.freeCount = s.freeCount

/-- What the link ports keep beside the four ports themselves. -/
def SameKept (l k : Lp) : Prop :=
  k.control = l.control ∧ k.power = l.power ∧ k.drive = l.drive ∧ k.quench = l.quench ∧ k.pressureLow = l.pressureLow ∧
  k.quenchantOut = l.quenchantOut ∧ k.staging = l.staging ∧ k.buffer = l.buffer ∧ k.pendingReset = l.pendingReset

/-! ## What is due (R9) -/

/-- A timer runs and its instant has been reached. -/
def Reached (timer : Option Nat) (s : State) : Prop := ∃ x, timer = some x ∧ x ≤ s.cu.cellTime

/-- The operation of the recipe store that is in flight has come to its completion. -/
def Completed (p : RsOp → Prop) (s : State) : Prop :=
  ∃ f, s.rs.inFlight = some f ∧ p f.op ∧ f.completes ≤ s.cu.cellTime

/-- The silence after which an ONLINE port is LOST (R147). -/
def silenceTime (st : SeqState) (port : Port) : Nat :=
  match port with
  | .p => if st.isHeat then 2000 else 50000
  | .m => 10000
  | .q => 20000
  | .s => 500000

/-- Which commands fall due of themselves at the present instant: the expiry of each timer that runs and whose instant
is reached, the completion of the recipe store, the end of a frame, and a pending warm reset once nothing of the ACK
place is left (R9, R40, R147, R150, R188). -/
def IsDue (s : State) : Instr → Prop
  | .updateExpiry => s.pe.nextUpdate ≤ s.cu.cellTime
  | .approachWaitExpiry => Reached s.sq.approachWait s
  | .dwellTimerExpiry => Reached s.sq.dwellTimer s
  | .postQuenchExpiry => Reached s.sq.postQuench s
  | .floodExpiry => Reached s.sq.floodTimer s
  | .indexWatchExpiry => Reached s.sq.indexWatch s
  | .pressureWatchExpiry => Reached s.sq.pressureWatch s
  | .filterExpiry k => Reached (s.lu.lines[k]).filterTimer s
  | .markPulseExpiry k => Reached (s.lu.marks[k]).pulse s
  | .withdrawalExpiry => Reached s.lu.withdrawal s
  | .loadComplete => Completed (fun op => ∃ k, op = .load k) s
  | .storeComplete => Completed (fun op => ∃ k bank, op = .store k bank) s
  | .eraseComplete => Completed (fun op => ∃ k, op = .erase k) s
  | .optionWriteComplete => Completed (fun op => ∃ o, op = .options o) s
  | .livenessExpiry port =>
    (s.lp.port port).link = .online ∧ (s.lp.port port).lastArrival + silenceTime s.sq.st port ≤ s.cu.cellTime
  | .transmitComplete port => ∃ j, (s.lp.port port).tx = some j ∧ j.endsAt2 ≤ 2 * s.cu.cellTime
  | .interCharacterTimeout port => Reached (s.lp.port port).gap s
  | .powerSendExpiry => Reached s.lp.powerSend s
  | .quenchSendExpiry => Reached s.lp.quenchSend s
  | .warmReset =>
    s.lp.pendingReset = true ∧ s.lp.acks = [] ∧ ∀ j a, s.lp.portS.tx = some j → j.frame ≠ .ack a
  | _ => False

/-! ## Requests (R182, R188) -/

/-- A request that arrives now is taken: fewer than eight answers wait and no warm reset is pending. -/
def Taken (s : State) : Prop := s.lp.acks.length < 8 ∧ s.lp.pendingReset = false

/-- The tag of each of the twenty requests beside CONTROL (R181). -/
def requestTag : Instr → Option Byte
  | .readStatus tag _ => some tag
  | .writeHeader tag _ => some tag
  | .writeZone tag _ => some tag
  | .readZone tag _ => some tag
  | .commit tag _ => some tag
  | .disarm tag _ => some tag
  | .loadRecipe tag _ => some tag
  | .storeRecipe tag _ => some tag
  | .eraseRecipe tag _ => some tag
  | .readSummary tag _ => some tag
  | .readException tag _ => some tag
  | .readCapture tag _ => some tag
  | .readFault tag _ => some tag
  | .writePositionConfig tag _ => some tag
  | .writeLineConfig tag _ => some tag
  | .writeLine tag _ => some tag
  | .readLines tag _ => some tag
  | .writeMark tag _ => some tag
  | .writeOptions tag _ => some tag
  | .reset tag _ => some tag
  | _ => none

/-- Whether a request's payload has a length other than its layout's (R181). -/
def wrongLength : Instr → Bool
  | .readStatus _ p => p == .wrongLength
  | .writeHeader _ p => p == .wrongLength
  | .writeZone _ p => p == .wrongLength
  | .readZone _ p => p == .wrongLength
  | .commit _ p => p == .wrongLength
  | .disarm _ p => p == .wrongLength
  | .loadRecipe _ p => p == .wrongLength
  | .storeRecipe _ p => p == .wrongLength
  | .eraseRecipe _ p => p == .wrongLength
  | .readSummary _ p => p == .wrongLength
  | .readException _ p => p == .wrongLength
  | .readCapture _ p => p == .wrongLength
  | .readFault _ p => p == .wrongLength
  | .writePositionConfig _ p => p == .wrongLength
  | .writeLineConfig _ p => p == .wrongLength
  | .writeLine _ p => p == .wrongLength
  | .readLines _ p => p == .wrongLength
  | .writeMark _ p => p == .wrongLength
  | .writeOptions _ p => p == .wrongLength
  | .reset _ p => p == .wrongLength
  | _ => false

/-- An arrival on the S-port whose answer is placed: what a request that changes no other block leaves. -/
def repliedTo (tag : Byte) (a : Answer) (s : State) : State := (s.arrive .s).answer tag a

/-! ## What a reset leaves (R24, R48, R70, R93, R120, R145, R162, R176, R189) -/

/-- The coordinate unit after a reset, at a cell time and with the phase of the encoder lines (R24). -/
def cuAfterReset (time : Nat) (phase : EncPhase) : Cu :=
  { cellTime := time, phase := phase, rawCount := 0, indexRecord := none, encoderError := false, coord := 0
    scaleK := 65536, trimC := 0, trimDir := .faster, trimAcc := 0, edgeMode := .x4, invert := false
    lower := -2000000, upper := 2000000, ring := [], origin := 0, direction := .plus, frontier := 0
    datumTaken := false, captures := [], overrun := false }

/-- The set-points after a reset at a cell time (R70; the frontier of the record is assumption 14). -/
def peAfterReset (time : Nat) : Pe :=
  { nextUpdate := time + 250, power := 0, enable := false, heatingZone := none, powerLimited := false, speed := 0
    stop := true, spindle := 0, mask := 0, flow := 0, flood := false, quenchZone := none, latch := false
    readFrontier := 0 }

/-- The sequencer after a reset, with a scan number, the rail and the supply-low indication found from it (R93, R145). -/
def sqAfterReset (scanNumber : Word32) (railMv : Nat) (low : Bool) : Sq :=
  { st := .idle, scanNumber := scanNumber, seekStart := none, nextDwell := none, dwellZone := none
    startRecord := { spindle := false, inverter := false, coolant := false, waitExpired := false }
    approachWait := none, dwellTimer := none, postQuench := none, floodTimer := none, heldFrom := none
    faultRecord := none, secondaryCount := 0, latestSecondary := none, overPitch := 0, firstRevolution := false
    indexWatch := none, pressureWatch := none, railMv := railMv, supplyLow := low }

/-- The slice tracker after a reset (R120). -/
def stkAfterReset : Stk :=
  { track := [], heating := false, highWater := none, seam := none, dwellAccount := none, exceptions := []
    summary := none }

/-- The line unit after a reset, with what the outside does to the pins (R176). -/
def luAfterReset (pins : Vector PinDrive 8) : Lu :=
  { lines := pins.map (fun d =>
      { pullUp := false, role := .input .rise 0 0 .general false, latch := false, drive := d, filtered := d == .high
        filterTimer := none })
    marks := Vector.replicate 4 { enable := false, target := 0, mode := .once, width := 1, stamp := false, pulse := none }
    prevIndexTime := none, indexFrontier := none, rpm := none, travel := none, withdrawal := none, heatEnable := false }

/-- One port after a reset: DOWN, hunting, its places empty, its send count 0 (R162, R189). -/
def portAfterReset : PortState :=
  { link := .down, lastArrival := 0, rx := .hunt, gap := none, tx := none, notices := [], setDue := false
    sendCount := 0 }

/-- The link ports after a reset: no answer waits, the control word is clear, no report is kept, both quench-condition
indications are clear, the send timers stopped, and the staging record, the answer buffer and the pending reset empty
(R162, R189). That no set-point frame counts as sent is assumption 14. -/
def linksAfterReset : Lp :=
  { portS := portAfterReset, portP := portAfterReset, portM := portAfterReset, portQ := portAfterReset, acks := []
    control := { holdS := false, holdP := false, holdM := false, holdQ := false, keepOn := false }
    power := none, drive := none, quench := none, pressureLow := false, quenchantOut := false, powerSend := none
    quenchSend := none, sentPower := none, sentQuench := none, staging := none, buffer := none, pendingReset := false }

/-- An empty bank: an empty header and 64 empty positions (R26, R28, R48). -/
def emptyBank : Bank := { header := none, zones := Vector.replicate 64 none }

/-! ## Control words (R183, R184) -/

/-- A carried word gives every kept field that the port may change the value the field has. -/
def KeepsFields (port : Port) (w : ControlWord) (c : Control) : Prop :=
  (port.mayHold .s → w.holdS = c.holdS) ∧ (port.mayHold .p → w.holdP = c.holdP) ∧
  (port.mayHold .m → w.holdM = c.holdM) ∧ (port.mayHold .q → w.holdQ = c.holdQ) ∧
  (port.mayKeepOn → w.keepOn = c.keepOn)

/-- The same but for the hold field of one port. -/
def KeepsOtherFields (port field : Port) (w : ControlWord) (c : Control) : Prop :=
  KeepsFields port (w.setHold (c.hold field) field) c

/-- No event is carried: abort, and on the S-port fault clear and run, are clear. -/
def NoEvent (port : Port) (w : ControlWord) : Prop :=
  w.abort = false ∧ (port = .s → w.faultClear = false ∧ w.run = false)

/-- A CONTROL frame on this port is taken: always on an actuator port, and as a request on the S-port. -/
def ControlTaken (port : Port) (s : State) : Prop := port = .s → Taken s

/-- The byte of the control word, its self-clearing fields read as clear (R183, R191). -/
def wordByte (c : Control) : Byte :=
  (if c.holdS then 0x01 else 0) ||| (if c.holdP then 0x02 else 0) ||| (if c.holdM then 0x04 else 0) |||
  (if c.holdQ then 0x08 else 0) ||| (if c.keepOn then 0x80 else 0)

/-- The reason byte of a refusal: FF where it gives none (R191). -/
def reasonByte (r : Option BlockReason) : Byte := (r.map (fun b => BitVec.ofNat 8 b.code)).getD 0xFF

/-- The three bytes of an outcome in CONTROL's answer: code, reason and FF; all FF where the field was not carried
(R184, R192). -/
def outcomeBytes : FieldResult → List Byte
  | .none => [0xFF, 0xFF, 0xFF]
  | .ok => [0, 0xFF, 0xFF]
  | .refused st r => [BitVec.ofNat 8 st.code, reasonByte r, 0xFF]

/-- CONTROL's answer (R184): the status of the refused clear, else that of the refused run, else OK, with the reason as
its detail; the data is the control word as it stands after the frame, the clear outcome and the run outcome. -/
def controlReply (c : Control) (clear run : FieldResult) : Answer :=
  let reply (st : Status) (detail : Byte) : Answer :=
    { status := st, detail1 := detail, detail2 := 0xFF, data := [wordByte c] ++ outcomeBytes clear ++ outcomeBytes run }
  match clear with
  | .refused st r => reply st (reasonByte r)
  | .none =>
    match run with
    | .refused st r => reply st (reasonByte r)
    | .none => reply .ok 0xFF
    | .ok => reply .ok 0xFF
  | .ok =>
    match run with
    | .refused st r => reply st (reasonByte r)
    | .none => reply .ok 0xFF
    | .ok => reply .ok 0xFF

/-- The state after a taken CONTROL frame's own effect: on the S-port its answer is placed. -/
def controlDone (port : Port) (tag : Byte) (clear run : FieldResult) (s : State) : State :=
  if port = .s then s.answer tag (controlReply s.lp.control clear run) else s

/-- The answer to a CONTROL frame that is turned away whole: the control word as it stands and both outcomes NONE (R183,
R184; that the answer to a wrong length carries them too is assumption 18). -/
def controlTurnedAway (st : Status) (detail : Byte) (c : Control) : Answer where
  status := st
  detail1 := detail
  detail2 := 0xFF
  data := [wordByte c] ++ outcomeBytes .none ++ outcomeBytes .none

/-- The port, the tag and the control word of the frame that each of the six CONTROL rows is: the word it carries, with
the row's own field as the row says (assumption 6). -/
def carriedWord : Instr → Option (Port × Byte × ControlWord)
  | .holdRequest port tag field w => some (port, tag, w.setHold true field)
  | .holdFieldCleared port tag field w => some (port, tag, w.setHold false field)
  | .abort port tag w => some (port, tag, { w with abort := true })
  | .quenchKeepOn port tag on w => some (port, tag, { w with keepOn := on })
  | .faultClear tag w => some (.s, tag, { w with faultClear := true })
  | .run tag w => some (.s, tag, { w with run := true })
  | _ => none

/-- A control word as its byte spells it (R191). -/
def wordOf (b : Byte) : ControlWord where
  holdS := b.getLsbD 0
  holdP := b.getLsbD 1
  holdM := b.getLsbD 2
  holdQ := b.getLsbD 3
  abort := b.getLsbD 4
  run := b.getLsbD 5
  faultClear := b.getLsbD 6
  keepOn := b.getLsbD 7

/-- The first item whose condition holds. -/
def firstOf {α : Type} : List (Bool × α) → Option α
  | [] => none
  | (b, a) :: rest => if b then some a else firstOf rest

/-- R76's table of reasons, in order, with header h active. -/
def startTable (h : RecipeHeader) (s : State) : List (Bool × BlockReason) :=
  [ (s.lp.portP.link != .online, .linkP), (s.lp.portM.link != .online, .linkM), (s.lp.portQ.link != .online, .linkQ),
    ((s.lp.quench.map (fun r => decide (r.temperature < h.windowLow ∨ h.windowHigh < r.temperature))).getD true,
      .quenchant),
    (s.lu.lines.toList.any (fun n => n.inputFn == some .coilWater && !n.filtered), .coilWater),
    (s.lu.lines.toList.any (fun n => n.inputFn == some .interlock && !n.filtered), .interlock),
    (s.sq.supplyLow, .supply), (s.lp.drive == some .faulted, .drive) ]

/-- R143's table of conditions, in order. -/
def clearTable (s : State) : List (Bool × BlockReason) :=
  [ (s.lp.portP.link == .lost, .linkP), (s.lp.portM.link == .lost, .linkM), (s.lp.portQ.link == .lost, .linkQ),
    (s.lu.lines.toList.any (fun n => n.inputFn == some .interlock && !n.filtered), .interlock),
    (s.sq.supplyLow, .supply), ((s.lp.power.map (·.state)) == some .tripped, .inverter),
    (s.lp.drive == some .faulted, .drive) ]

/-- The spindle is ready against a set-point (R174). -/
def SpindleReady (u : Lu) (setPoint : Nat) : Prop := ∃ r, u.rpm = some r ∧ setPoint * 9 ≤ r * 10

/-- The coordinate lies within the travel limits, both ends included (R17). -/
def WithinLimits (c : Cu) : Prop := c.lower ≤ c.s ∧ c.s ≤ c.upper

/-! ## The slice track (R95, R98, R99, R102 to R106, R108, R111) -/

/-- The target of a slice as it closes (R106): E at its midpoint times the pitch, with the dwell account that names it,
held at 2^48 - 1; a GAP slice has none. -/
def closingTarget (c : TrackRecipe) (account : Option (Nat × Nat)) (r : SliceRecord) : Option Nat :=
  let base := energyAt c.zones r.zone (((r.index * c.pitch + c.pitch / 2 : Nat) : Int)) * c.pitch
  match r.kind with
  | .gap => none
  | .heated =>
    match account with
    | none => some base
    | some (j, e) => some (if j = r.index then min (base + e) (2 ^ 48 - 1) else base)

/-- Whether a record is open with its far boundary reached at a frontier (R98). -/
def endsAt (c : TrackRecipe) (f : Int) (r : SliceRecord) : Bool :=
  r.closeTime.isNone && decide ((((r.index + 1) * c.pitch : Nat) : Int) ≤ f)

/-- A record after the close at a frontier: an open slice whose far boundary is reached is closed, its target fixed
(R98, R106). -/
def closedAt (c : TrackRecipe) (account : Option (Nat × Nat)) (f : Int) (now : Nat) (r : SliceRecord) : SliceRecord :=
  if endsAt c f r then { r with closeTime := some now, target := closingTarget c account r } else r

/-- Whether a record departs at a frontier, once those before it have: closed, and its arrival point reached (R108). -/
def departsAt (c : TrackRecipe) (f : Int) (r : SliceRecord) : Bool :=
  r.closeTime.isSome && decide ((((r.index + 1) * c.pitch + c.offsetD : Nat) : Int) ≤ f)

/-- The dwell account once it has been used: empty when it names a slice that has closed (R106). -/
def accountLeft (closing : SliceRecord → Bool) (k : Stk) : Option (Nat × Nat) :=
  if k.track.any (fun r => closing r && k.dwellAccount.any (fun a => a.1 == r.index)) then none else k.dwellAccount

/-- The tracker after the close and the departures at a frontier, the departing records leaving one after another, the
oldest first (R98, R108). -/
def passedStk (c : TrackRecipe) (q : QuenchCondition) (f : Int) (now : Nat) (k : Stk) : Stk :=
  let closed := k.track.map (closedAt c k.dwellAccount f now)
  { (closed.takeWhile (departsAt c f)).foldl (fun v r => v.depart c q now false r)
      { k with dwellAccount := accountLeft (endsAt c f) k } with
    track := closed.dropWhile (departsAt c f) }

/-- Whether a slice opens at a frontier (R99): heating is noted, no slice is open, and slice floor(f / p) lies above the
high-water index and starts before x_end. -/
def opensAt (c : TrackRecipe) (f : Int) (k : Stk) : Bool :=
  k.heating && k.track.all (fun r => r.closeTime.isSome) && decide (0 ≤ f) &&
  k.highWater.all (fun h => decide (h < f.toNat / c.pitch)) && decide (f.toNat / c.pitch * c.pitch < zonesEnd c.zones)

/-- The slice kind of the zone that holds a slice's midpoint: GAP in a GAP or END zone (R95). -/
def kindOfZone (e : Option ZoneKind) : SliceKind :=
  match e with
  | some .heat => .heated
  | some .ramp => .heated
  | some .dwell => .heated
  | some .gap => .gap
  | some .finish => .gap
  | none => .gap

/-- The tracker after the opening test (R99): the record that opens is the youngest and the new high-water index, SEAM
where a seam stands, DWELL where the dwell account names it; the slices between the seam and it are counted as skipped
and the seam is emptied (R102, R103). -/
def openedStk (c : TrackRecipe) (f : Int) (k : Stk) : Stk :=
  let j := f.toNat / c.pitch
  let zone := (findZone c.zones ((j * c.pitch + c.pitch / 2 : Nat) : Int)).getD 0
  let entry : SliceRecord :=
    { index := j, kind := kindOfZone (c.zones[zone]?.map (·.kind)), zone := zone, energy := 0, target := none
      closeTime := none
      flags := { powerLimited := false, holdBreak := false, seam := k.seam.isSome
                 dwell := k.dwellAccount.any (fun a => a.1 == j), quenchant := false, quenchLow := false } }
  let skip (b : Nat) (u : Summary) : Summary :=
    if u.status = .opened then { u with skipped := min (u.skipped + (j - b - 1)) (2 ^ 32 - 1) } else u
  if opensAt c f k then
    { k with
      track := k.track ++ [entry], highWater := some j, seam := none
      summary := match k.seam with
        | none => k.summary
        | some b => k.summary.map (skip b) }
  else k

/-- A record closed where it stands, its target fixed (R101, R106, R111). -/
def closedNow (c : TrackRecipe) (account : Option (Nat × Nat)) (now : Nat) (r : SliceRecord) : SliceRecord :=
  if r.closeTime.isNone then { r with closeTime := some now, target := closingTarget c account r } else r

/-- The tracker after the heating-end notice (R101): the open slice is closed, heating is no longer noted, and a seam
that still stands counts the slices up to the last trackable one as skipped and is emptied (R102). -/
def endedStk (c : TrackRecipe) (now : Nat) (k : Stk) : Stk :=
  let skip (b : Nat) (u : Summary) : Summary :=
    if u.status = .opened then
      { u with skipped := min (u.skipped + (ceilDiv (zonesEnd c.zones) c.pitch - 1 - b)) (2 ^ 32 - 1) }
    else u
  { k with
    track := k.track.map (closedNow c k.dwellAccount now)
    dwellAccount := accountLeft (fun r => r.closeTime.isNone) k
    heating := false
    seam := none
    summary := match k.seam with
      | none => k.summary
      | some b => k.summary.map (skip b) }

/-- The tracker after the hold-break notice (R102): the open slice is closed with HOLD_BREAK, heating is no longer noted,
and the seam stands at the high-water index. -/
def brokenStk (c : TrackRecipe) (now : Nat) (k : Stk) : Stk :=
  { k with
    track := k.track.map (fun r =>
      if r.closeTime = none then
        { closedNow c k.dwellAccount now r with flags := { r.flags with holdBreak := true } }
      else r)
    dwellAccount := accountLeft (fun r => r.closeTime.isNone) k
    heating := false
    seam := k.highWater }

/-- The tracker after the flood-start notice (R111): the open slice is closed, every record departs with the flood's
verdict, the oldest first, and the working state is emptied but for the high-water index. -/
def floodedStk (c : TrackRecipe) (q : QuenchCondition) (now : Nat) (k : Stk) : Stk :=
  { (k.track.map (closedNow c k.dwellAccount now)).foldl (fun v r => v.depart c q now true r) k with
    track := [], heating := false, seam := none, dwellAccount := none }

/-- The tracker after the dwell notice of a zone with a power and a time (R103): the slice that holds the frontier takes
the DWELL flag while it is open, and the account names it, the energy added to what the account already holds for it. -/
def dweltStk (c : TrackRecipe) (power time : Nat) (f : Int) (k : Stk) : Stk :=
  let d := f.toNat / c.pitch
  { k with
    track := k.track.map (fun r =>
      if r.closeTime = none ∧ r.index = d then { r with flags := { r.flags with dwell := true } } else r)
    dwellAccount := some (d, power * time + ((k.dwellAccount.filter (fun a => a.1 == d)).map (·.2)).getD 0) }

/-- The tracker after an energy credit: to the open slice, else to the open summary's unassigned energy, else to nothing;
a sum holds at 2^48 - 1 (R104). -/
def creditedStk (e : Nat) (k : Stk) : Stk :=
  if k.track.any (fun r => r.closeTime.isNone) then
    { k with track := k.track.map (fun r =>
        if r.closeTime = none then { r with energy := min (r.energy + e) (2 ^ 48 - 1) } else r) }
  else
    { k with summary := k.summary.map (fun u =>
        if u.status = .opened then { u with unassigned := min (u.unassigned + e) (2 ^ 48 - 1) } else u) }

/-- The tracker after a power-limited notice: the open slice takes the flag (R105). -/
def limitedStk (k : Stk) : Stk :=
  { k with track := k.track.map (fun r =>
      if r.closeTime = none then { r with flags := { r.flags with powerLimited := true } } else r) }

/-! ## Encoder (R3) -/

/-- Whether a boundary between two neighbouring phases is counted in an edge mode: the table of R3. -/
def CountedBoundary (m : EdgeMode) (p q : EncPhase) : Prop :=
  m = .x4 ∨ (p = .p0 ∧ q = .p1) ∨ (p = .p1 ∧ q = .p0) ∨
  (m = .x2 ∧ ((p = .p2 ∧ q = .p3) ∨ (p = .p3 ∧ q = .p2)))

/-- The step magnitude of the next counted edge (R6). -/
def stepMagnitude (c : Cu) : Int :=
  if c.trimAcc.toNat + c.trimC.toNat < 2 ^ 32 then c.scaleK
  else
    match c.trimDir with
    | .faster => ((c.scaleK + c.scaleK / 1024 : Nat) : Int)
    | .slower => ((c.scaleK - c.scaleK / 1024 : Nat) : Int)

/-- A coordinate held within -2,000,000 ... +2,000,000 um, in units of 2^-16 um (R17). -/
def boundedCoord (v : Int) : Int := max (-(2000000 * 65536)) (min (2000000 * 65536) v)

/-- The scan distance of a coordinate (R14). -/
def distanceAt (c : Cu) (coord : Int) : Int :=
  match c.direction with
  | .plus => coord / 65536 - c.origin
  | .minus => c.origin - coord / 65536

/-- The coordinate unit after a counted edge: R6, R10 and R15. -/
def edgeTaken (up : Bool) (phase : EncPhase) (c : Cu) : Cu :=
  let coord := boundedCoord (if up then c.coord + stepMagnitude c else c.coord - stepMagnitude c)
  { c with
    phase := phase
    trimAcc := c.trimAcc + c.trimC
    coord := coord
    rawCount := if up then c.rawCount + 1 else c.rawCount - 1
    ring := (({ time := c.cellTime, coord := coord } : EdgeStamp) :: c.ring).take 9
    frontier := max c.frontier (distanceAt c coord) }

/-! ## The recipe store and the set-up requests (R7, R30, R44, R164, R170) -/

/-- A load is in flight (R41). -/
def LoadInFlight (s : State) : Prop := ∃ f k, s.rs.inFlight = some f ∧ f.op = .load k

/-- A slot with its condition found from its check (R39): CORRUPT where the check is not the image's, else EMPTY for an
image with an empty header, and VALID. Which check an image has is left open (assumption 35). -/
def judgedSlot (v : RecipeSlot) : RecipeSlot :=
  { v with condition :=
      if v.check ≠ Config.freeImageCheck v.image then .corrupt
      else if v.image.header.isSome then .valid else .empty }

/-- Whether the second copy's write number is the greater: the difference modulo 2^32 lies in 1 ... 2^31 - 1 (R46). -/
def secondIsGreater (a b : OptionCopy) : Bool :=
  decide (1 ≤ (b.writeNumber - a.writeNumber).toNat ∧ (b.writeNumber - a.writeNumber).toNat < 2 ^ 31)

/-- What a reset at a cell time does with the option copies and the start-up load (R46, R47): the block in force is
chosen from the copies whose check agrees, and the load of its start-up slot begins where that slot is VALID. -/
def StoreRestarted (time : Nat) (r : Rs) : Prop :=
  (r.copy1.checkAgrees = true → r.copy2.checkAgrees = true →
    r.inForce = (if secondIsGreater r.copy1 r.copy2 then r.copy2.options else r.copy1.options)) ∧
  (r.copy1.checkAgrees = true → r.copy2.checkAgrees = false → r.inForce = r.copy1.options) ∧
  (r.copy1.checkAgrees = false → r.copy2.checkAgrees = true → r.inForce = r.copy2.options) ∧
  (r.copy1.checkAgrees = false → r.copy2.checkAgrees = false →
    r.inForce = { protectedCount := 0, loss := .hold, startUp := none }) ∧
  (r.inForce.startUp = none → r.startUp = .none ∧ r.inFlight = none) ∧
  (∀ k, r.inForce.startUp = some k → (r.slots[k]).condition ≠ .valid →
    r.startUp = .autoloadFailed ∧ r.inFlight = none) ∧
  (∀ k, r.inForce.startUp = some k → (r.slots[k]).condition = .valid →
    r.startUp = .loading ∧ r.inFlight = some { op := .load k, completes := time + 1000 })

/-- A load or a store is in flight: the shadow bank may not be written (R44). -/
def ShadowLocked (s : State) : Prop := LoadInFlight s ∨ ∃ f k bank, s.rs.inFlight = some f ∧ f.op = .store k bank

/-- The entry that a WRITE_ZONE of each kind code makes: the fields its kind holds (R27, R30). -/
def carriedZone (w : ZoneWrite) : Option (Option ZoneEntry) :=
  let bare (k : ZoneKind) : ZoneEntry :=
    { kind := k, startX := w.startX, energy := none, zoneSpeed := none, dwellPower := none, dwellTime := none,
      mask := w.mask, flow := w.flow, windowMin := none, windowMax := none, helix := none }
  let heat (k : ZoneKind) : ZoneEntry :=
    { bare k with
      energy := w.energy, zoneSpeed := w.zoneSpeed, windowMin := w.windowMin, windowMax := w.windowMax,
      helix := w.helix }
  match w.kindCode with
  | 0 => some none
  | 1 => some (some (heat .heat))
  | 2 => some (some (heat .ramp))
  | 3 => some (some { heat .dwell with zoneSpeed := none, dwellPower := w.dwellPower, dwellTime := w.dwellTime })
  | 4 => some (some { bare .gap with zoneSpeed := w.zoneSpeed, helix := w.helix })
  | 5 => some (some { bare .finish with energy := w.energy })
  | _ => none

/-- R7's checks of a WRITE_POSITION_CONFIG, in order, each with its field number: true where the check fails. The pitch
is the active bank's, in ARMED and DONE. -/
def positionTable (c : Cu) (pitch : Option Nat) (w : PositionWrite) : List (Bool × Nat) :=
  let outside (v : Option Int) : Bool := v.any (fun n => decide (n < -2000000 ∨ 2000000 < n))
  [ (w.scaleK.any (fun k => decide (k < 4096 ∨ 6553600 < k)), 60),
    (w.scaleK.any (fun k => pitch.any (fun p => decide (p * 65536 < k))), 60),
    (w.trim.any (fun t => decide (t.2 ≠ 1 ∧ t.2 ≠ 2)), 61),
    (w.edgeModeCode.any (fun m => decide (m ≠ 1 ∧ m ≠ 2 ∧ m ≠ 4)), 62),
    (w.invertCode.any (fun v => decide (1 < v)), 65), (outside w.lower, 63), (outside w.upper, 64),
    (decide (w.upper.getD c.upper ≤ w.lower.getD c.lower), 64) ]

/-- R163's checks of a WRITE_LINE_CONFIG for the direction it carries, in order, each with its field number: true where
the check fails. -/
def lineTable (w : LineWrite) : List (Bool × Nat) :=
  let outside (v : Option Nat) (lo hi : Nat) : Bool := !v.any (fun n => decide (lo ≤ n ∧ n ≤ hi))
  let output := w.directionCode == 2
  [ (decide (w.directionCode ≠ 1 ∧ w.directionCode ≠ 2), 70), (decide (1 < w.pullUpCode), 71),
    (!output && outside w.edgeCode 1 3, 72), (!output && outside w.filter 0 1000, 73),
    (!output && outside w.latency 0 10000, 74), (!output && outside w.inputCode 1 6, 75),
    (!output && outside w.captureCode 0 1, 76), (output && outside w.outputCode 16 24, 77) ]

/-- R170's checks of a WRITE_MARK, in order, each with its field number: true where the check fails. -/
def markTable (w : MarkWrite) : List (Bool × Nat) :=
  [ (decide (1 < w.enableCode), 80), (decide (w.target < -4000000 ∨ 4000000 < w.target), 81),
    (decide (w.modeCode ≠ 1 ∧ w.modeCode ≠ 2), 82),
    (w.modeCode == 2 && !w.addValue.any (fun n => decide (100 ≤ n ∧ n ≤ 1600000)), 83),
    (decide (w.width < 1 ∨ 1000 < w.width), 84), (decide (1 < w.stampCode), 85) ]

/-! ## Ports (R148, R150, R151) -/

/-- A port changed, the others and what the link ports keep beside them as before. -/
def withPort (port : Port) (v : PortState) (s : State) : State := s.setLp (s.lp.setPort v port)

/-- The four ports but one as before, and what the link ports keep (R146). -/
def OnlyPort (port : Port) (l k : Lp) : Prop :=
  SameKept l k ∧ (∀ w, w ≠ port → k.port w = l.port w) ∧ (port ≠ .s → k.acks = l.acks) ∧
  (port ≠ .p → k.sentPower = l.sentPower ∧ k.powerSend = l.powerSend) ∧
  (port ≠ .q → k.sentQuench = l.sentQuench ∧ k.quenchSend = l.quenchSend)

/-- The set-point frame that an actuator port begins now, from the latest set-point record (R152 to R154). -/
def setPointFrame (port : Port) (s : State) : Option TxFrame :=
  let tag := (s.lp.port port).sendCount
  match port with
  | .s => none
  | .p => some (.powerSet tag s.pe.power s.pe.enable s.pe.heatingZone s.pe.readFrontier)
  | .m =>
    some (.motionSet tag (if s.cu.direction = .plus then (s.pe.speed : Int) else -(s.pe.speed : Int)) s.pe.spindle
      s.pe.stop s.pe.readFrontier)
  | .q => some (.quenchSet tag s.pe.mask s.pe.flow s.pe.flood s.pe.quenchZone)

/-- A frame begun now: it ends after 2.5 us a character, in half microseconds (R150). -/
def begun (f : TxFrame) (s : State) : TxJob := { frame := f, endsAt2 := 2 * s.cu.cellTime + 5 * f.length }

/-- The notice of a state, with the present frontier (R155; at a catch-up, assumption 52). -/
def noticeOf (s : State) : StateNotice where
  state := s.sq.st
  code := if s.sq.st.isFault then s.sq.faultRecord.map (·.code) else none
  frontier := s.cu.frontier
  scanNumber := s.sq.scanNumber

/-! ## Set-points (R52 to R68) -/

/-- The power look-ahead point: the frontier plus v_pos times the power latency (R52). -/
def aheadPoint (h : RecipeHeader) (s : State) : Int :=
  s.cu.frontier + ((s.cu.forwardSpeed * h.latencyP / 1000000 : Nat) : Int)

/-- The heating zone: the zone that holds the power look-ahead point (R54). -/
def aheadZone (h : RecipeHeader) (s : State) : Option Nat := findZone s.zones (aheadPoint h s)

/-- The energy target there; 0 before zone 0 (R55). -/
def aheadEnergy (h : RecipeHeader) (s : State) : Nat :=
  ((aheadZone h s).map (fun z => energyAt s.zones z (aheadPoint h s))).getD 0

/-- The speed a zone asks for by its kind: its own in a HEAT, RAMP or GAP zone, v_min in a DWELL or END zone (R60). -/
def speedOfKind (vMin : Nat) (e : ZoneEntry) : Nat :=
  match e.kind with
  | .heat => e.zoneSpeed.getD vMin
  | .ramp => e.zoneSpeed.getD vMin
  | .gap => e.zoneSpeed.getD vMin
  | .dwell => vMin
  | .finish => vMin

/-- The zone speed v_s: the heating zone's, or zone 0's before it (R60). -/
def aheadSpeed (h : RecipeHeader) (s : State) : Nat :=
  (s.zones[(aheadZone h s).getD 0]?.map (speedOfKind h.vMin)).getD h.vMin

/-- The helix pitch of the spindle zone (R63): the heating zone's own, that of zone n - 2 when the heating zone is END,
and zone 0's when it is absent. -/
def helixAt (zones : List ZoneEntry) (zone : Option Nat) : Nat :=
  match zone with
  | none => (zones[0]?.bind (·.helix)).getD 1
  | some z =>
    if zones[z]?.map (·.kind) = some .finish then (zones[zones.length - 2]?.bind (·.helix)).getD 1
    else (zones[z]?.bind (·.helix)).getD 1

/-- The spindle set-point that goes with a carriage speed set-point (R63). -/
def spindleAt (h : RecipeHeader) (s : State) (speed : Nat) : Nat :=
  min (max (ceilDiv (max s.cu.forwardSpeed speed * 60) (helixAt s.zones (aheadZone h s))) h.nBase) h.nMax

/-- The power, speed and spindle set-points of HEATING (R54 to R58, R60, R61, R63). -/
def HeatingPoints (h : RecipeHeader) (s : State) (p : Pe) : Prop :=
  let raw := aheadEnergy h s * s.cu.forwardSpeed / 1000
  p.power = min raw h.pMax ∧ p.enable = true ∧ p.powerLimited = decide (h.pMax < raw) ∧
  p.heatingZone = aheadZone h s ∧
  p.speed = (if aheadEnergy h s = 0 then aheadSpeed h s
    else min (aheadSpeed h s) (h.pMax * 1000 / aheadEnergy h s)) ∧
  p.stop = (p.speed == 0) ∧ p.spindle = spindleAt h s p.speed ∧ p.readFrontier = s.cu.frontier

/-- The power, speed and spindle set-points of every other state (R54, R59, R62, R64). -/
def OtherPoints (h : RecipeHeader) (s : State) (p : Pe) : Prop :=
  p.powerLimited = false ∧ p.enable = s.sq.st.isHeat ∧ p.stop = (p.speed == 0) ∧
  (∀ z e, s.sq.st.isHeat = true → s.sq.dwellZone = some z → s.zones[z]? = some e → p.power = e.dwellPower.getD 0) ∧
  (s.sq.st.isHeat = false → p.power = 0) ∧
  p.speed = (match s.sq.st with
    | .seek => h.seekSpeed
    | .approach .travel => h.approachSpeed
    | .runout .travel => h.runoutSpeed
    | .quenchout .travel => h.runoutSpeed
    | _ => 0) ∧
  p.spindle = (match s.sq.st with
    | .idle => 0
    | .armed => 0
    | .done => 0
    | .fault _ => 0
    | .seek => h.nBase
    | .held => h.nBase
    | _ => spindleAt h s p.speed) ∧
  p.heatingZone = (if s.sq.st = .idle then none else aheadZone h s) ∧ p.readFrontier = s.cu.frontier

/-- The quench look-ahead point (R52). -/
def quenchPoint (h : RecipeHeader) (s : State) : Int :=
  s.cu.frontier - (h.offsetD : Int) + ((s.cu.forwardSpeed * h.latencyQ / 1000000 : Nat) : Int)

/-- HEATING, DWELL, RUNOUT and QUENCHOUT: the states in which the spray is latched on (R65). -/
def Sprays (st : SeqState) : Prop :=
  st.isHeat = true ∨ (∃ ph, st = .runout ph) ∨ ∃ ph, st = .quenchout ph

/-- The quench set-points of each state, from the latch before (R65 to R68). -/
def SprayPoints (h : RecipeHeader) (before : Bool) (s : State) (p : Pe) : Prop :=
  let point := quenchPoint h s
  let zone := if point < -(h.prewet : Int) then some (s.zones.length - 1)
    else if point < 0 then some 0 else findZone s.zones point
  (Sprays s.sq.st → p.latch = (before || decide (-(h.prewet : Int) ≤ point)) ∧ p.flood = false ∧
    (p.latch = true → ∀ z e, zone = some z → s.zones[z]? = some e →
      p.mask = e.mask ∧ p.flow = sectorCount e.mask * e.flow ∧ p.quenchZone = some z) ∧
    (p.latch = false → p.mask = 0 ∧ p.flow = 0 ∧ p.quenchZone = none)) ∧
  (¬ Sprays s.sq.st → p.latch = false) ∧
  (s.sq.st = .fault .flood → p.mask = 0xFF ∧ p.flow = h.floodFlow ∧ p.flood = true ∧ p.quenchZone = none) ∧
  (∀ e, s.sq.st = .done → s.lp.control.keepOn = true → s.zones.getLast? = some e →
    p.mask = e.mask ∧ p.flow = sectorCount e.mask * e.flow ∧ p.flood = false ∧
    p.quenchZone = some (s.zones.length - 1)) ∧
  (¬ Sprays s.sq.st → s.sq.st ≠ .fault .flood → ¬ (s.sq.st = .done ∧ s.lp.control.keepOn = true) →
    p.mask = 0 ∧ p.flow = 0 ∧ p.flood = false ∧ p.quenchZone = none)

/-- The set-points held are those of the state itself, the latch before being given. -/
def SetPointsOf (h : RecipeHeader) (before : Bool) (t : State) : Prop :=
  (t.sq.st = .heating → HeatingPoints h t t.pe) ∧ (t.sq.st ≠ .heating → OtherPoints h t t.pe) ∧
  SprayPoints h before t t.pe

/-- What an update leaves of an actuator port on which a set-point frame falls due (R150, R152 to R154): a free
transmitter of an ONLINE port begins the frame, or a notice that waits before it, the frame then staying due; behind a
frame it is due, and on a port that is not ONLINE nothing changes. -/
def DueOn (port : Port) (s t : State) : Prop :=
  let w := s.lp.port port
  let v := t.lp.port port
  (w.link ≠ .online → v = w) ∧
  (w.link = .online → w.tx ≠ none → v = { w with setDue := true }) ∧
  (∀ n rest, w.link = .online → w.tx = none → w.notices = n :: rest →
    v = { w with
      setDue := true, notices := rest, sendCount := w.sendCount + 1, tx := some (begun (.notice w.sendCount n) s) }) ∧
  (∀ f, w.link = .online → w.tx = none → w.notices = [] → setPointFrame port (s.setPe t.pe) = some f →
    v = { w with setDue := false, sendCount := w.sendCount + 1, tx := some (begun f s) })

/-- A set-point frame that falls due is begun at once. -/
def BeginsNow (w : PortState) : Prop := w.link = .online ∧ w.tx = none ∧ w.notices = []

/-- The set-point frames that an update makes due (R152 to R154): MOTION_SET always; POWER_SET in HEATING and DWELL, and
when power or enable differ from those last sent; QUENCH_SET when one of its four fields differs. What is last sent is
counted from the start of its transmission (assumption 46). -/
def SetPointsSent (s t : State) : Prop :=
  let power : SentPower := { power := t.pe.power, enable := t.pe.enable }
  let quench : SentQuench :=
    { mask := t.pe.mask, flow := t.pe.flow, flood := t.pe.flood, quenchZone := t.pe.quenchZone }
  let powerDue := s.sq.st.isHeat = true ∨ s.lp.sentPower ≠ some power
  let quenchDue := s.lp.sentQuench ≠ some quench
  t.lp.portS = s.lp.portS ∧ DueOn .m s t ∧ (powerDue → DueOn .p s t) ∧ (¬ powerDue → t.lp.portP = s.lp.portP) ∧
  (quenchDue → DueOn .q s t) ∧ (¬ quenchDue → t.lp.portQ = s.lp.portQ) ∧
  (powerDue ∧ BeginsNow s.lp.portP →
    t.lp.sentPower = some power ∧ t.lp.powerSend = some (s.cu.cellTime + 10000)) ∧
  (¬ (powerDue ∧ BeginsNow s.lp.portP) → t.lp.sentPower = s.lp.sentPower ∧ t.lp.powerSend = s.lp.powerSend) ∧
  (quenchDue ∧ BeginsNow s.lp.portQ →
    t.lp.sentQuench = some quench ∧ t.lp.quenchSend = some (s.cu.cellTime + 5000)) ∧
  (¬ (quenchDue ∧ BeginsNow s.lp.portQ) → t.lp.sentQuench = s.lp.sentQuench ∧ t.lp.quenchSend = s.lp.quenchSend)

/-! ## Changes of state handed on (R72, R150, R155) -/

/-- A notice placed in a port's four places; when all four are taken it replaces the youngest (R150). -/
def placedIn (l : List StateNotice) (n : StateNotice) : List StateNotice :=
  if l.length < 4 then l ++ [n] else l.dropLast ++ [n]

/-- A port once a notice has fallen due on it (R150, R155): an ONLINE port places it, and its free transmitter begins the
oldest that waits at once; on any other port nothing changes. -/
def noticedPort (s : State) (n : StateNotice) (w : PortState) : PortState :=
  if w.link = .online then
    match w.tx, placedIn w.notices n with
    | none, m :: rest =>
      { w with notices := rest, sendCount := w.sendCount + 1, tx := some (begun (.notice w.sendCount m) s) }
    | _, l => { w with notices := l }
  else w

/-- A state entered, and its notice fallen due on each of the four ports (R72, R155). -/
def announced (st : SeqState) (code : Option FaultCode) (s : State) : State :=
  let n : StateNotice := { state := st, code := code, frontier := s.cu.frontier, scanNumber := s.sq.scanNumber }
  (s.setSq { s.sq with st := st }).setLp { s.lp with
    portS := noticedPort s n s.lp.portS, portP := noticedPort s n s.lp.portP
    portM := noticedPort s n s.lp.portM, portQ := noticedPort s n s.lp.portQ }

/-- What the ports hold after a change of state: its notice on each of them, and then the set-point frames that the update
at once makes due (R72, R150, R152 to R155). -/
def ChangeSent (st : SeqState) (code : Option FaultCode) (s t : State) : Prop := SetPointsSent (announced st code s) t

/-! ## Faults (R139, R141) -/

/-- The sequencer of a state in which FAULT has been entered from state s by a report taken there (R139, R140, R142). -/
def faultedSq (code : FaultCode) (source : FaultSource) (s : State) : Sq :=
  { s.sq with
    st := .fault (if s.sq.st.inScan then .flood else .standing)
    faultRecord :=
      some { code := code, source := source, coord := s.cu.s, time := s.cu.cellTime, state := s.sq.st }
    approachWait := none
    dwellTimer := none
    postQuench := none
    floodTimer := if s.sq.st.inScan then some (s.cu.cellTime + 1000 * s.hdr (·.floodTime)) else none
    heldFrom := none
    dwellZone := none
    overPitch := 0
    firstRevolution := false
    indexWatch := none
    pressureWatch := none }

/-- FAULT entered from state s by a report taken there: the sequencer, the outputs, the slices, the set-points, the
notices and set-point frames on the ports, and what stays (R72, R139). -/
def EnteredFault (code : FaultCode) (source : FaultSource) (s t : State) : Prop :=
  t.sq = faultedSq code source s ∧ t.lu = { s.lu with heatEnable := false } ∧
  t.stk = (if s.sq.st.inScan then floodedStk s.trackCtx s.quenchCondition s.cu.cellTime s.stk else s.stk) ∧
  t.pe.power = 0 ∧ t.pe.enable = false ∧ t.pe.speed = 0 ∧ t.pe.stop = true ∧ t.pe.spindle = 0 ∧
  t.pe.flood = (s.sq.st.inScan && s.recipe.isSome) ∧ t.pe.mask = (if t.pe.flood then 0xFF else 0) ∧
  t.pe.flow = (if t.pe.flood then s.hdr (·.floodFlow) else 0) ∧ t.pe.latch = false ∧ t.pe.quenchZone = none ∧
  t.pe.powerLimited = false ∧ t.pe.heatingZone = s.recipe.bind (fun h => aheadZone h s) ∧
  t.pe.readFrontier = s.cu.frontier ∧ t.pe.nextUpdate = s.pe.nextUpdate ∧
  ChangeSent (.fault (if s.sq.st.inScan then .flood else .standing)) (some code) s t ∧
  t.cu = s.cu ∧ t.zt = s.zt ∧ t.rs = s.rs ∧ SameKept s.lp t.lp ∧ t.lp.acks = s.lp.acks ∧ t.pending = s.pending ∧
  t.freeCount = s.freeCount

/-- A secondary fault taken in FAULT: the count and the latest one, and nothing else (R141). -/
def secondaryTaken (code : FaultCode) (source : FaultSource) (s : State) : State :=
  s.setSq { s.sq with
    secondaryCount := min (s.sq.secondaryCount + 1) 255
    latestSecondary := some { code := code, source := source, time := s.cu.cellTime } }

/-- What an ABORTED, INVERTER, DRIVE or SUPPLY report brings in each state: nothing in IDLE, a secondary fault in FAULT,
FAULT from every other state (R136 to R138, R141). -/
def FaultOrSecondary (code : FaultCode) (source : FaultSource) (s t : State) : Prop :=
  (s.sq.st = .idle → t = s) ∧
  (s.sq.st.isFault = true → t = secondaryTaken code source s) ∧
  (s.sq.st ≠ .idle → s.sq.st.isFault = false → EnteredFault code source s t)

/-- A travel-limit check in a motion state: beyond the limits it is fault OVERTRAVEL (R17). -/
def TravelJudged (s t : State) : Prop :=
  (s.sq.st.isMotion = true → ¬ WithinLimits s.cu → EnteredFault .overtravel .cu s t) ∧
  (s.sq.st.isMotion = false ∨ WithinLimits s.cu → t = s)

/-! ## Marks (R21, R171, R172) -/

/-- A mark fires on an advance from one frontier to another (R171). -/
def Fires (old f : Int) (m : Mark) : Bool := m.enable && decide (old < m.target ∧ m.target ≤ f)

/-- A mark after its firing at a frontier (R171, R172): its pulse runs for its width from now. ONCE clears the enable.
REPEAT moves the target on by the least number of additions that brings it beyond the frontier, or clears the enable
where that passes +4,000,000, the target kept from before the firing (assumption 54). -/
def MarkFired (now : Nat) (f : Int) (m v : Mark) : Prop :=
  v.mode = m.mode ∧ v.width = m.width ∧ v.stamp = m.stamp ∧ v.pulse = some (now + 1000 * m.width) ∧
  (m.mode = .once → v.enable = false ∧ v.target = m.target) ∧
  (∀ add, m.mode = .repeating add → 0 < add → ∃ n : Nat,
    let moved := m.target + ((n * add : Nat) : Int)
    f < moved ∧ moved - add ≤ f ∧ (moved ≤ 4000000 → v.enable = true ∧ v.target = moved) ∧
    (4000000 < moved → v.enable = false ∧ v.target = m.target))

/-- The line unit's taking of an advance from a frontier, in a motion state (R171): each mark that fires has fired and
the others are as before, and the stamps of the firings that carry one enter the capture queue, in the order of the
marks (assumption 49), while it holds fewer than 16; one that does not sets the overrun (R21). -/
def MarksTaken (old : Int) (s t : State) : Prop :=
  let firing (k : MarkNo) : Bool := Fires old s.cu.frontier s.lu.marks[k]
  let stamp (k : MarkNo) : CaptureStamp :=
    { source := .mark k, edge := none, time := s.cu.cellTime, coord := s.cu.coord / 65536 }
  let stamps := ((List.finRange 4).filter (fun k : MarkNo => firing k && (s.lu.marks[k]).stamp)).map stamp
  let room := 16 - s.cu.captures.length
  t = (s.setLu { s.lu with marks := t.lu.marks }).setCu { s.cu with
    captures := s.cu.captures ++ stamps.take room, overrun := s.cu.overrun || decide (room < stamps.length) } ∧
  ∀ k : MarkNo, (firing k = true → MarkFired s.cu.cellTime s.cu.frontier s.lu.marks[k] t.lu.marks[k]) ∧
    (firing k = false → t.lu.marks[k] = s.lu.marks[k])

/-! ## The scan's entries and arrivals (R81 to R87, R100, R101, R123, R131) -/

/-- What a change of state leaves as it was: the coordinate, the banks, the store, and of the links what is no port's. -/
def Kept (s t : State) : Prop :=
  t.cu = s.cu ∧ t.zt = s.zt ∧ t.rs = s.rs ∧ SameKept s.lp t.lp ∧ t.lp.acks = s.lp.acks ∧ t.pending = s.pending ∧
  t.freeCount = s.freeCount ∧ t.pe.nextUpdate = s.pe.nextUpdate

/-- The sequencer's record of a change to a state without fault (R72, R90), the pressure watch going on where quench is
still commanded on (R134). -/
def changedSq (st : SeqState) (wet : Bool) (q : Sq) : Sq :=
  { q with
    st := st, faultRecord := none, approachWait := none, dwellTimer := none, postQuench := none, floodTimer := none,
    overPitch := 0, firstRevolution := false, indexWatch := none
    pressureWatch := if wet then q.pressureWatch else none }

/-- A change to a state other than HEATING, IDLE and FAULT, as it is handed on (R72, R90, R160): the sequencer's record,
heat-enable, the set-points of the update at once, and the notices and set-point frames on the ports. -/
def Changed (h : RecipeHeader) (st : SeqState) (s t : State) : Prop :=
  Kept s t ∧ t.lu = { s.lu with heatEnable := st.isHeat } ∧ t.stk = s.stk ∧ SetPointsOf h s.pe.latch t ∧
  t.sq = changedSq st (t.pe.latch || t.pe.quenchZone.isSome) s.sq ∧ ChangeSent st none s t

/-- The set-points with no recipe in force, as in IDLE: everything off, at the frontier read (R54, R59, R62, R64, R68). -/
def offPoints (frontier : Int) (p : Pe) : Pe :=
  { p with
    power := 0, enable := false, heatingZone := none, powerLimited := false, speed := 0, stop := true, spindle := 0
    mask := 0, flow := 0, flood := false, quenchZone := none, latch := false, readFrontier := frontier }

/-- IDLE entered (R72, R74, R90, R143, R160): both quench-condition indications clear, everything off, and the notices and
set-point frames on the ports. -/
def IdleEntered (s t : State) : Prop :=
  t.cu = s.cu ∧ t.zt = s.zt ∧ t.rs = s.rs ∧ t.stk = s.stk ∧ t.lu = { s.lu with heatEnable := false } ∧
  SameKept { s.lp with pressureLow := false, quenchantOut := false } t.lp ∧ t.lp.acks = s.lp.acks ∧
  t.pe = offPoints s.cu.frontier s.pe ∧ t.sq = changedSq .idle false s.sq ∧ ChangeSent .idle none s t ∧
  t.pending = s.pending ∧ t.freeCount = s.freeCount

/-- The lowest-numbered DWELL zone from number i on (R84). -/
def dwellFrom (i : Nat) (zones : List ZoneEntry) : Option Nat :=
  (List.range zones.length).find? (fun j => decide (i ≤ j) && zones[j]?.map (·.kind) == some .dwell)

/-- Post-quench begun in RUNOUT or QUENCHOUT (R87, R88, R123): the phase, its timer, and an update at once, with its
set-point frames. -/
def PostQuenchBegun (h : RecipeHeader) (st : SeqState) (s t : State) : Prop :=
  Kept s t ∧ t.lu = s.lu ∧ t.stk = s.stk ∧ SetPointsOf h s.pe.latch t ∧
  SetPointsSent (s.setSq { s.sq with st := st }) t ∧
  t.sq = { s.sq with
    st := st, postQuench := some (s.cu.cellTime + 1000 * h.postQuenchTime)
    pressureWatch := if t.pe.latch then s.sq.pressureWatch else none }

/-- DWELL entered at the start of a DWELL zone (R84, R85, R103): the zone is the dwell zone, the pointer moves to the
next, the slice that holds the frontier is marked, and the phase is SETTLING, or TIMING with its timer started where
|v| is below 100 um/s already. -/
def DwellEntered (h : RecipeHeader) (z : Nat) (s t : State) : Prop :=
  let e := s.zones[z]?
  let power := (e.bind (·.dwellPower)).getD 0
  let time := (e.bind (·.dwellTime)).getD 0
  let still := decide (s.cu.speed.natAbs < 100)
  Kept s t ∧ t.lu = { s.lu with heatEnable := true } ∧ SetPointsOf h s.pe.latch t ∧
  ChangeSent (.dwell .settling) none s t ∧ t.stk = dweltStk (trackRecipe s.zt.activeBank) power time s.cu.frontier s.stk ∧
  t.sq = { changedSq (if still then .dwell .timing else .dwell .settling) t.pe.latch s.sq with
    dwellZone := some z, nextDwell := dwellFrom (z + 1) s.zones
    dwellTimer := if still then some (s.cu.cellTime + 1000 * time) else none }

/-- RUNOUT entered (R87, R101): the change, the heating-end notice, and post-quench begun at once where the frontier is at
or beyond x_end + D and the track is empty. -/
def RunoutEntered (h : RecipeHeader) (s t : State) : Prop :=
  let drained := ((zonesEnd s.zones + h.offsetD : Nat) : Int) ≤ s.cu.frontier ∧ s.stk.track = []
  ∃ c, Changed h (.runout .travel) s c ∧
    let u := c.setStk (endedStk (trackRecipe s.zt.activeBank) s.cu.cellTime s.stk)
    (drained → PostQuenchBegun h (.runout .postQuench) u t) ∧ (¬ drained → t = u)

/-- The two arrival points judged in HEATING (R84): the pointed DWELL zone's start, and then x_end. -/
def ArrivalsJudged (h : RecipeHeader) (s t : State) : Prop :=
  let reached (z : Nat) : Prop := ((((s.zones[z]?.map (·.startX)).getD 0 : Nat) : Int)) ≤ s.cu.frontier
  (∀ z, s.sq.nextDwell = some z → reached z → DwellEntered h z s t) ∧
  ((∀ z, s.sq.nextDwell = some z → ¬ reached z) →
    (((zonesEnd s.zones : Nat) : Int) ≤ s.cu.frontier → RunoutEntered h s t) ∧
    (s.cu.frontier < ((zonesEnd s.zones : Nat) : Int) → t = s))

/-- HEATING entered, before the checks of the entry (R83, R90, R100, R133): heat-enable asserted, the index watch timed
by the spindle set-point of the update before (assumption 43), the first revolution not judged, an update at once with
its power-limited notice, the notices and set-point frames on the ports, and the heating-start notice, at which a slice
may open. -/
def HeatingMade (h : RecipeHeader) (s t : State) : Prop :=
  let k := if t.pe.powerLimited then limitedStk s.stk else s.stk
  Kept s t ∧ t.lu = { s.lu with heatEnable := true } ∧ SetPointsOf h s.pe.latch t ∧ ChangeSent .heating none s t ∧
  t.stk = (if k.heating then k
    else openedStk (trackRecipe s.zt.activeBank) s.cu.frontier { k with heating := true }) ∧
  t.sq = { changedSq .heating t.pe.latch s.sq with
    firstRevolution := true, indexWatch := some (s.cu.cellTime + 240000000 / s.pe.spindle) }

/-- HEATING entered, with the checks of the entry (R83, R84, R131): the reversal tolerance, then the arrivals. -/
def HeatingBegun (h : RecipeHeader) (s t : State) : Prop :=
  ∃ e, HeatingMade h s e ∧
    ((h.reversalTol : Int) < s.cu.frontier - s.cu.x → EnteredFault .reversal .sq e t) ∧
    (s.cu.frontier - s.cu.x ≤ (h.reversalTol : Int) → ArrivalsJudged h e t)

/-- The three start conditions as a state shows them, with the mark of an expired wait (R82). -/
def judgedStart (expired : Bool) (s : State) : StartRecord where
  spindle := s.lu.rpm.any (fun r => decide (s.pe.spindle * 9 ≤ r * 10))
  inverter := s.lp.power.map (·.state) == some .ready
  coolant := s.lu.lines.toList.all (fun n => n.inputFn != some .coilWater || n.filtered)
  waitExpired := expired

/-- All three start conditions hold. -/
def AllHold (r : StartRecord) : Prop := r.spindle = true ∧ r.inverter = true ∧ r.coolant = true

/-- A re-judgement in phase WAIT (R82): the record takes the conditions, and when all hold HEATING is entered. -/
def Rejudged (h : RecipeHeader) (s t : State) : Prop :=
  let v := s.setSq { s.sq with startRecord := judgedStart s.sq.startRecord.waitExpired s }
  (¬ AllHold v.sq.startRecord → t = v) ∧ (AllHold v.sq.startRecord → HeatingBegun h v t)

/-- A re-judgement after an update in phase WAIT: where the update has changed the spindle set-point (R82). -/
def RejudgedIfChanged (h : RecipeHeader) (before : Nat) (s t : State) : Prop :=
  (s.pe.spindle = before → t = s) ∧ (s.pe.spindle ≠ before → Rejudged h s t)

/-- Phase WAIT entered (R81): its timer of 2,000 ms, an update at once, and the re-judgement that may follow. -/
def WaitBegun (h : RecipeHeader) (s t : State) : Prop :=
  ∃ w, Kept s w ∧ w.lu = s.lu ∧ w.stk = s.stk ∧ SetPointsOf h s.pe.latch w ∧
    SetPointsSent (s.setSq { s.sq with st := .approach .wait }) w ∧
    w.sq = { s.sq with
      st := .approach .wait, approachWait := some (s.cu.cellTime + 2000000), pressureWatch := none } ∧
    RejudgedIfChanged h s.pe.spindle w t

/-- The arrival at the run-in point (R81): fault DRIVE at or beyond 0; else the start conditions judged, and HEATING
where they all hold, phase WAIT where they do not. -/
def ArrivedAtRunIn (h : RecipeHeader) (s t : State) : Prop :=
  let v := s.setSq { s.sq with startRecord := judgedStart false s }
  (0 ≤ s.cu.frontier → EnteredFault .drive .sq s t) ∧
  (s.cu.frontier < 0 → (AllHold v.sq.startRecord → HeatingBegun h v t) ∧
    (¬ AllHold v.sq.startRecord → WaitBegun h v t))

/-- The run-in check of an entry to APPROACH (R80): fault OVERTRAVEL beyond the run-in point, the arrival of R81 at once on
it, and nothing short of it. -/
def RunInJudged (h : RecipeHeader) (s t : State) : Prop :=
  let point := -(h.runIn : Int)
  (s.sq.st ≠ .approach .travel → t = s) ∧
  (s.sq.st = .approach .travel →
    (point < s.cu.frontier → EnteredFault .overtravel .sq s t) ∧ (s.cu.frontier = point → ArrivedAtRunIn h s t) ∧
    (s.cu.frontier < point → t = s))

/-- The next-dwell pointer moved past every DWELL zone the frontier has reached, no dwell being run (R84). -/
def pointedPast (s : State) : State :=
  s.setSq { s.sq with
    nextDwell := s.sq.nextDwell.bind (fun i => (List.range s.zones.length).find? (fun j => decide (i ≤ j) &&
      s.zones[j]?.any (fun e => e.kind == .dwell && decide (s.cu.frontier < (e.startX : Int))))) }

/-! ## Holds, RUN and the whole control word (R74 to R77, R121 to R128, R137, R143, R183, R184) -/

/-- QUENCHOUT entered by a hold (R122, R123): the held-from record, the change, the hold-break notice, and post-quench at
once where no slice is left on the track. -/
def QuenchoutEntered (h : RecipeHeader) (brk : HeldFrom) (s t : State) : Prop :=
  ∃ c, Changed h (.quenchout .travel) (s.setSq { s.sq with heldFrom := some brk, dwellZone := none }) c ∧
    let u := c.setStk (brokenStk (trackRecipe s.zt.activeBank) s.cu.cellTime s.stk)
    (s.stk.track = [] → PostQuenchBegun h (.quenchout .postQuench) u t) ∧ (s.stk.track ≠ [] → t = u)

/-- A hold request as it meets each state (R121, R122, R125): HELD from SEEK and APPROACH, QUENCHOUT from HEATING and
DWELL, and no effect in any other. -/
def HoldMet (s t : State) : Prop :=
  let held (v : HeldFrom) : State := s.setSq { s.sq with heldFrom := some v, startRecord := StartRecord.cleared }
  (s.sq.st = .idle ∨ s.sq.st = .armed ∨ s.sq.st = .done ∨ s.sq.st = .held ∨ s.sq.st.isFault = true ∨
    (∃ ph, s.sq.st = .runout ph ∨ s.sq.st = .quenchout ph) → t = s) ∧
  ∀ h, s.zt.activeBank.header = some h →
    (s.sq.st = .seek → Changed h .held (held .seek) t) ∧
    (∀ ph, s.sq.st = .approach ph → Changed h .held (held .approach) t) ∧
    (s.sq.st = .heating → QuenchoutEntered h (.heating s.cu.frontier) s t) ∧
    (∀ ph, s.sq.st = .dwell ph → QuenchoutEntered h (.dwell s.cu.frontier) s t)

/-- One hold field of a carried word taken (R121, R183, R184): passed over without the right, else it takes the carried
value, and a passing from clear to set is one hold request. -/
def HoldFieldTaken (port field : Port) (w : ControlWord) (s t : State) : Prop :=
  let u := s.setLp { s.lp with control := s.lp.control.setHold (w.hold field) field }
  let rises := w.hold field = true ∧ s.lp.control.hold field = false
  (port.mayHold field = false → t = s) ∧
  (port.mayHold field = true → (rises → HoldMet u t) ∧ (¬ rises → t = u))

/-- The fields that every port may carry, in their order, each event complete before the next field is taken (R137, R184):
the four holds, abort, and the keep-on field where the port has the right. -/
def SharedTaken (port : Port) (w : ControlWord) (s t : State) : Prop :=
  ∃ a b c d e, HoldFieldTaken port .s w s a ∧ HoldFieldTaken port .p w a b ∧ HoldFieldTaken port .m w b c ∧
    HoldFieldTaken port .q w c d ∧
    (w.abort = true → FaultOrSecondary .aborted (.port port) d e) ∧ (w.abort = false → e = d) ∧
    t = if port.mayKeepOn then e.setLp { e.lp with control := { e.lp.control with keepOn := w.keepOn } } else e

/-- An accepted fault clear (R143): the secondary faults emptied, and IDLE entered. -/
def ClearAccepted (s t : State) : Prop :=
  IdleEntered (s.setSq { s.sq with secondaryCount := 0, latestSecondary := none }) t

/-- Fault clear judged in its state, with its outcome (R143). -/
def ClearJudged (s t : State) (outcome : FieldResult) : Prop :=
  (s.sq.st.isFault = false → t = s ∧ outcome = .none) ∧
  (s.sq.st = .fault .flood → t = s ∧ outcome = .refused .busy none) ∧
  (∀ r, s.sq.st = .fault .standing → firstOf (clearTable s) = some r →
    t = s ∧ outcome = .refused .conditionPresent (some r)) ∧
  (s.sq.st = .fault .standing → firstOf (clearTable s) = none → ClearAccepted s t ∧ outcome = .ok)

/-- What an accepted RUN sets before its entry (R77): the scan number, the scan record, the opened summary, the tracker's
working state, the frontier at x and no datum taken. -/
def scanOpened (h : RecipeHeader) (s : State) : State :=
  ((s.setSq { s.sq with
    scanNumber := s.sq.scanNumber + 1, seekStart := none, nextDwell := dwellFrom 0 s.zones, dwellZone := none
    startRecord := StartRecord.cleared, heldFrom := none }).setStk { s.stk with
      exceptions := [], summary := some (Summary.opening (s.sq.scanNumber + 1) h.identifier), heating := false
      highWater := none, seam := none, dwellAccount := none }).setCu
    { s.cu with frontier := s.cu.x, datumTaken := false }

/-- An accepted RUN (R77, R79, R80): SEEK with datum mode PROBE, else APPROACH with the run-in check, the travel limits
judged at the entry (R17; that no earlier step held at the range counts there is assumption 44). -/
def RunStarted (h : RecipeHeader) (s t : State) : Prop :=
  let opened := scanOpened h s
  (h.datumModeCode = 1 → ∃ v, Changed h .seek (opened.setSq { opened.sq with seekStart := some s.cu.x }) v ∧
    TravelJudged v t) ∧
  (h.datumModeCode ≠ 1 → ∃ v e, Changed h (.approach .travel) opened v ∧ TravelJudged v e ∧ RunInJudged h e t)

/-- An accepted resume (R126 to R128): the held-from record emptied, the state held from entered again, the travel limits
judged (R17; assumption 44), and in APPROACH the arrival of R81 at once at or beyond the run-in point. -/
def Resumed (h : RecipeHeader) (brk : HeldFrom) (s t : State) : Prop :=
  let emptied := s.setSq { s.sq with heldFrom := none }
  (brk = .seek → ∃ v, Changed h .seek emptied v ∧ TravelJudged v t) ∧
  (brk = .approach → ∃ v e, Changed h (.approach .travel) emptied v ∧ TravelJudged v e ∧
    (e.sq.st = .approach .travel → -(h.runIn : Int) ≤ s.cu.frontier → ArrivedAtRunIn h e t) ∧
    (e.sq.st ≠ .approach .travel ∨ s.cu.frontier < -(h.runIn : Int) → t = e)) ∧
  (brk.brk ≠ none → ∃ v, HeatingBegun h emptied v ∧ TravelJudged v t)

/-- RUN judged in its state, with its outcome (R75, R76, R126). -/
def RunJudged (s t : State) (outcome : FieldResult) : Prop :=
  let refused (st : Status) (r : Option BlockReason) : Prop := t = s ∧ outcome = .refused st r
  let unread := ∃ u, s.stk.summary = some u ∧ u.status ≠ .opened ∧ u.read = false
  let start := s.sq.st = .armed ∨ s.sq.st = .done
  let free := s.lp.control.anyHold = false
  let ready := SpindleReady s.lu s.pe.spindle ∧ s.lp.power.map (·.state) = some .ready
  (s.sq.st = .idle ∨ s.sq.st.isFault = true → refused .notArmed none) ∧
  (s.sq.st.isMotion = true → refused .scanning none) ∧
  (start → unread → refused .resultPending none) ∧
  (start ∧ ¬ unread ∨ s.sq.st = .held → ¬ free → refused .holdActive none) ∧
  ∀ h, s.zt.activeBank.header = some h →
    (∀ r, start ∧ ¬ unread ∨ s.sq.st = .held → free → firstOf (startTable h s) = some r →
      refused .startBlocked (some r)) ∧
    (start ∧ ¬ unread → free → firstOf (startTable h s) = none → RunStarted h s t ∧ outcome = .ok) ∧
    (∀ brk, s.sq.st = .held → free → firstOf (startTable h s) = none → s.sq.heldFrom = some brk →
      (brk.brk ≠ none → ¬ SpindleReady s.lu s.pe.spindle → refused .startBlocked (some .spindle)) ∧
      (brk.brk ≠ none → SpindleReady s.lu s.pe.spindle → s.lp.power.map (·.state) ≠ some .ready →
        refused .startBlocked (some .inverter)) ∧
      (brk.brk = none ∨ ready → Resumed h brk s t ∧ outcome = .ok))

/-- A whole control word taken (R184): the fields every port may carry, and from the S-port then fault clear and run, each
where it is carried set, with their outcomes. -/
def WordTaken (port : Port) (w : ControlWord) (s t : State) (clear run : FieldResult) : Prop :=
  ∃ u v, SharedTaken port w s u ∧
    (port = .s → w.faultClear = true → ClearJudged u v clear) ∧
    (port = .s → w.run = true → RunJudged v t run) ∧
    (port ≠ .s ∨ w.faultClear = false → v = u ∧ clear = .none) ∧
    (port ≠ .s ∨ w.run = false → t = v ∧ run = .none)

/-! ## Frames received (R178, R179) -/

/-- The characters of a frame after its delimiter's place in the line: delimiter, kind, tag, length, payload, check. -/
def frameChars (kind tag : Byte) (l : List Byte) : List Byte :=
  let body := [kind, tag, BitVec.ofNat 8 l.length] ++ l
  [0x5A] ++ body ++ beBytes 2 (crc16 body).toNat

/-- The command that a valid frame is, by the port's role, its kind's code and its payload (R181, R191). A CONTROL frame is
written as a row of hold.S, as any of the six rows with the same word is the same frame (assumption 6). None stands for
a CONTROL frame of a wrong length on the S-port, which no row is. -/
def frameCommand (port : Port) (kind tag : Byte) (l : List Byte) : Option Instr :=
  let discarded : Option Instr := some (.discardedKindArrival port)
  let request (c : Instr) : Option Instr := if port = .s then some c else discarded
  let report (from? : Port) (c : Instr) : Option Instr :=
    if port = .s then some (.answeredRole tag) else if port = from? then some c else discarded
  match kind.toNat with
  | 0x10 =>
    match l with
    | [b] =>
      some (if (wordOf b).holdS then .holdRequest port tag .s (wordOf b) else .holdFieldCleared port tag .s (wordOf b))
    | _ => if port = .s then none else discarded
  | 0x11 => request (.readStatus tag (readByte l))
  | 0x12 => request (.writeHeader tag (readHeaderWrite l))
  | 0x13 => request (.writeZone tag (readZoneWrite l))
  | 0x14 => request (.readZone tag (readZoneRead l))
  | 0x15 => request (.commit tag (readNothing l))
  | 0x16 => request (.disarm tag (readNothing l))
  | 0x17 => request (.loadRecipe tag (readByte l))
  | 0x18 => request (.storeRecipe tag (readByte l))
  | 0x19 => request (.eraseRecipe tag (readByte l))
  | 0x1A => request (.readSummary tag (readByte l))
  | 0x1B => request (.readException tag (readNothing l))
  | 0x1C => request (.readCapture tag (readNothing l))
  | 0x1D => request (.readFault tag (readNothing l))
  | 0x1E => request (.writePositionConfig tag (readPositionWrite l))
  | 0x1F => request (.writeLineConfig tag (readLineWrite l))
  | 0x20 => request (.writeLine tag (readLineLevels l))
  | 0x21 => request (.readLines tag (readNothing l))
  | 0x22 => request (.writeMark tag (readMarkWrite l))
  | 0x23 => request (.writeOptions tag (readOptionsWrite l))
  | 0x24 => request (.reset tag (readNothing l))
  | 0x40 => request (.answeredRole tag)
  | 0x41 => request (.answeredRole tag)
  | 0x42 => request (.answeredRole tag)
  | 0x43 => request (.answeredRole tag)
  | 0x44 => request (.answeredRole tag)
  | 0x60 => report .p (.powerReport (readPowerReport l))
  | 0x61 => report .m (.driveStatus (readByte l))
  | 0x62 => report .q (.quenchReport (readQuenchReport l))
  | _ => discarded

/-- Characters received one after another on a port, each with a good stop bit. -/
def feed (port : Port) : List Byte → State → Option State
  | [], s => some s
  | c :: rest, s =>
    match exec (.characterReceived port c true) s with
    | .next t => feed port rest t
    | _ => none

/-- A WRITE_ZONE payload as it stands on the line (R192). -/
def zoneBytes (w : ZoneWrite) : List Byte :=
  beBytes 1 w.position ++ beBytes 1 w.kindCode ++ beBytes 4 w.startX ++ beOpt 2 w.energy ++ beOpt 2 w.zoneSpeed ++
  beOpt 4 w.dwellPower ++ beOpt 2 w.dwellTime ++ [w.mask] ++ beBytes 2 w.flow ++ beOpt 2 w.windowMin ++
  beOpt 2 w.windowMax ++ beOpt 2 w.helix

/-- No field is present with the value that says it is absent, FF in every byte (R190). -/
def NoneReadsAbsent (w : ZoneWrite) : Prop :=
  w.energy ≠ some 65535 ∧ w.zoneSpeed ≠ some 65535 ∧ w.dwellPower ≠ some (2 ^ 32 - 1) ∧ w.dwellTime ≠ some 65535 ∧
  w.windowMin ≠ some 65535 ∧ w.windowMax ≠ some 65535 ∧ w.helix ≠ some 65535

/-! ## Answer data in bytes (R190, R192) -/

/-- A set of flags in one byte, item k at bit k (R190). -/
def flagByte (l : List Bool) : Byte :=
  BitVec.ofNat 8 ((List.range l.length).map (fun k => if l[k]? = some true then 2 ^ k else 0)).sum

/-- A code in one byte. -/
def codeByte (n : Nat) : Byte := BitVec.ofNat 8 n

/-- A count in two bytes, sent as 65,535 above that (R190). -/
def countField (n : Nat) : List Byte := beBytes 2 (min n 65535)

/-- A ratio, an interval or a drift in two bytes, sent as 65,534 above that, FF FF when it is absent (R190). -/
def measureField (v : Option Nat) : List Byte := beOpt 2 (v.map (fun n => min n 65534))

/-- A line's level: filtered for an IN line, and what its function drives for an OUT line (R168, R169). -/
def lineLevel (s : State) (n : Line) : Bool :=
  match n.role with
  | .input _ _ _ _ _ => n.filtered
  | .output .general => n.latch
  | .output .heatMirror => s.lu.heatEnable
  | .output .quenchOn => s.pe.latch || s.pe.quenchZone.isSome || s.pe.flood
  | .output .fault => s.sq.faultRecord.isSome
  | .output .done => decide (s.sq.st = .done)
  | .output (.mark m) => (s.lu.marks[m]).pulse.isSome

/-- Part 1 of the snapshot: the sequencer and the set-points (R69, R92, R192). -/
def statusLayout1 (s : State) : List Byte :=
  let wait := s.sq.st == .approach .wait
  let r := s.sq.startRecord
  [codeByte s.sq.st.code, codeByte s.sq.st.phaseCode] ++ beBytes 4 s.sq.scanNumber.toNat ++
  beBytes 2 ((s.zt.activeBank.header.map (·.identifier)).getD 0) ++ beOpt 1 s.sq.nextDwell ++ beOpt 1 s.sq.dwellZone ++
  [flagByte [wait && r.spindle, wait && r.inverter, wait && r.coolant, wait && r.waitExpired, s.lu.heatEnable,
    s.sq.supplyLow]] ++
  beOpt 1 (s.sq.heldFrom.map (·.stateCode)) ++ beOptInt 4 (s.sq.heldFrom.bind (·.brk)) ++
  beOpt 1 (s.sq.faultRecord.map (·.code.code)) ++ [codeByte s.sq.secondaryCount] ++
  beOpt 8 ([s.sq.approachWait, s.sq.dwellTimer, s.sq.postQuench, s.sq.floodTimer].findSome? id) ++
  beOpt 1 s.pe.heatingZone ++ beOpt 1 s.pe.quenchZone ++ beBytes 4 s.pe.power ++
  [flagByte [s.pe.enable, s.pe.stop, s.pe.flood]] ++ beInt 4 s.pe.speed ++ beBytes 2 s.pe.spindle ++ [s.pe.mask] ++
  beBytes 2 s.pe.flow

/-- Part 2: the coordinate unit and the spindle measurement (R23, R175, R192). -/
def statusLayout2 (s : State) : List Byte :=
  beInt 4 (s.cu.coord / 65536) ++ beInt 4 s.cu.frontier ++ beInt 4 s.cu.speed ++ beBytes 4 s.cu.rawCount.toNat ++
  beOptInt 4 (s.cu.indexRecord.map (·.count.toInt)) ++ beOpt 8 (s.cu.indexRecord.map (·.time)) ++
  [flagByte [s.cu.encoderError, s.cu.overrun, s.cu.datumTaken], codeByte s.cu.captures.length] ++ beOpt 2 s.lu.rpm ++
  beOptInt 4 s.lu.travel

/-- Part 3: the slice tracker, the links, and the latest power and drive reports (R119, R161, R192). -/
def statusLayout3 (s : State) : List Byte :=
  let u := s.stk.summary
  let flag (b : Bool) : Nat := if b then 1 else 0
  [codeByte s.stk.track.length] ++ beOpt 2 ((s.stk.track.find? (·.closeTime.isNone)).map (·.index)) ++
  beOpt 2 s.stk.highWater ++ [codeByte s.stk.exceptions.length] ++ beOpt 4 (u.map (·.scanNumber.toNat)) ++
  beOpt 1 (u.map (·.status.code)) ++ beOpt 1 (u.map (fun v => flag v.read)) ++
  beOpt 2 (u.map (fun v => min v.total 65535)) ++ beOpt 2 (u.map (fun v => min v.nonconforming 65535)) ++
  beOpt 1 (u.map (fun v => flag v.detailIncomplete)) ++ beOpt 6 (u.map (·.unassigned)) ++
  [codeByte s.lp.portS.link.code, codeByte s.lp.portP.link.code, codeByte s.lp.portM.link.code,
    codeByte s.lp.portQ.link.code] ++
  beOpt 4 (s.lp.power.map (·.power)) ++ beOpt 2 (s.lp.power.map (·.interval)) ++
  beOpt 1 (s.lp.power.map (·.state.code)) ++ beOpt 8 (s.lp.power.map (·.time)) ++ beOpt 1 (s.lp.drive.map (·.code))

/-- Part 4: the quench report, the lines, the control word and the marks (R161, R175, R183, R192). -/
def statusLayout4 (s : State) : List Byte :=
  beOpt 2 (s.lp.quench.map (·.pressure)) ++ beOpt 2 (s.lp.quench.map (·.flow)) ++
  beOptInt 2 (s.lp.quench.map (·.temperature)) ++ [flagByte [s.lp.pressureLow, s.lp.quenchantOut]] ++
  [flagByte (s.lu.lines.toList.map (lineLevel s))] ++ beOpt 8 s.lu.prevIndexTime ++ [wordByte s.lp.control] ++
  s.lu.marks.toList.flatMap (fun m => [flagByte [m.enable, m.pulse.isSome]] ++ beInt 4 m.target)

/-- Part 5: the recipe store, slot k at bits 2k and 2k + 1 of the slot conditions (R39, R40, R47, R192). -/
def statusLayout5 (s : State) : List Byte :=
  let op := s.rs.inFlight.map (·.op)
  [codeByte ((op.map (·.code)).getD 0)] ++ beOpt 1 (op.bind (·.slot)) ++ beOpt 8 (s.rs.inFlight.map (·.completes)) ++
  [codeByte s.rs.startUp.code] ++ beOpt 1 s.rs.startUp.field ++ beOpt 1 s.rs.startUp.zone ++
  beBytes 4 ((List.finRange 16).map (fun k : SlotNo => (s.rs.slots[k]).condition.code * 4 ^ k.val)).sum

/-- READ_SUMMARY's part 1 (R118, R192). -/
def summaryLayout1 (u : Summary) : List Byte :=
  let c := u.counts
  beBytes 4 u.scanNumber.toNat ++ beBytes 2 u.identifier ++ [codeByte u.status.code] ++ countField u.total ++
  countField u.conforming ++ countField u.nonconforming ++ countField c.underEnergy ++ countField c.overEnergy ++
  countField c.earlyQuench ++ countField c.lateQuench ++ countField c.powerLimited ++ countField c.holdBreak ++
  countField c.seam ++ countField c.quenchant ++ countField c.quenchLow ++ countField c.flooded ++ countField c.dwell ++
  beOpt 2 u.firstNonconforming

/-- READ_SUMMARY's part 2 (R118, R192). -/
def summaryLayout2 (u : Summary) : List Byte :=
  measureField (u.ratio.map (·.1)) ++ measureField (u.ratio.map (·.2)) ++ measureField (u.interval.map (·.1)) ++
  measureField (u.interval.map (·.2)) ++ countField u.skipped ++ beBytes 6 u.unassigned ++ measureField u.drift ++
  [flagByte [u.datumDrift]] ++ beOpt 1 (u.faultCode.map (·.code)) ++ [flagByte [u.detailIncomplete]] ++
  countField u.delivered ++ [flagByte [u.read]]

/-- An exception record in READ_EXCEPTION's answer, its reason set in two bytes with reason k at bit k (R113, R190,
R192). -/
def exceptionLayout (e : ExceptionRecord) : List Byte :=
  let r := e.reasons
  beBytes 2 e.index ++ [codeByte e.zone] ++ [flagByte [r.quenchLow, r.flooded]] ++
  [flagByte [r.underEnergy, r.overEnergy, r.earlyQuench, r.lateQuench, r.powerLimited, r.holdBreak, r.seam,
    r.quenchant]] ++
  beBytes 6 e.energy ++ beOpt 6 e.target ++ measureField e.interval ++ beBytes 8 e.closeTime

/-- A stamp in READ_CAPTURE's answer: lines 0 to 7, marks 8 to 11 (R22, R192). -/
def captureLayout (c : CaptureStamp) : List Byte :=
  let source : Nat := match c.source with
    | .line k => k.val
    | .mark k => 8 + k.val
  let edge : Byte := match c.edge with
    | some .rise => 1
    | some .fall => 2
    | none => 0xFF
  [codeByte source, edge] ++ beBytes 8 c.time ++ beInt 4 c.coord

/-- The fault record in READ_FAULT's answer (R140, R192). -/
def faultLayout (f : FaultRecord) : List Byte :=
  [codeByte f.code.code, codeByte f.source.code] ++ beInt 4 f.coord ++ beBytes 8 f.time ++
  [codeByte f.state.code, codeByte f.state.phaseCode]

/-- The latest secondary fault in READ_FAULT's answer, FF in every byte when there is none (R141, R192). -/
def secondaryLayout : Option SecondaryFault → List Byte
  | none => List.replicate 10 0xFF
  | some f => [codeByte f.code.code, codeByte f.source.code] ++ beBytes 8 f.time

/-! ## Request payloads in bytes (R190, R192) -/

/-- A WRITE_POSITION_CONFIG payload with any bytes in the places of the fields its flags leave out, and any bits 6 and 7
of the flags, to which R192 gives no field (assumption 50). -/
def positionBytes (w filler : PositionWrite) (high : Bool × Bool) : List Byte :=
  [flagByte [w.scaleK.isSome, w.trim.isSome, w.edgeModeCode.isSome, w.invertCode.isSome, w.lower.isSome,
    w.upper.isSome, high.1, high.2]] ++
  beBytes 4 ((w.scaleK.or filler.scaleK).getD 0) ++
  beBytes 4 (((w.trim.or filler.trim).map (·.1.toNat)).getD 0) ++ beBytes 1 (((w.trim.or filler.trim).map (·.2)).getD 0) ++
  beBytes 1 ((w.edgeModeCode.or filler.edgeModeCode).getD 0) ++ beBytes 1 ((w.invertCode.or filler.invertCode).getD 0) ++
  beInt 4 ((w.lower.or filler.lower).getD 0) ++ beInt 4 ((w.upper.or filler.upper).getD 0)

/-- A WRITE_LINE_CONFIG payload (R163, R192). -/
def lineWriteBytes (w : LineWrite) : List Byte :=
  beBytes 1 w.line ++ beBytes 1 w.directionCode ++ beBytes 1 w.pullUpCode ++ beOpt 1 w.edgeCode ++ beOpt 2 w.filter ++
  beOpt 2 w.latency ++ beOpt 1 w.inputCode ++ beOpt 1 w.captureCode ++ beOpt 1 w.outputCode

/-- A WRITE_MARK payload (R170, R192). -/
def markWriteBytes (w : MarkWrite) : List Byte :=
  beBytes 1 w.mark ++ beBytes 1 w.enableCode ++ beInt 4 w.target ++ beBytes 1 w.modeCode ++ beOpt 4 w.addValue ++
  beBytes 2 w.width ++ beBytes 1 w.stampCode

/-- No field is present with the value that says it is absent (R190). -/
def LineReadsWhole (w : LineWrite) : Prop :=
  w.edgeCode ≠ some 255 ∧ w.filter ≠ some 65535 ∧ w.latency ≠ some 65535 ∧ w.inputCode ≠ some 255 ∧
  w.captureCode ≠ some 255 ∧ w.outputCode ≠ some 255

/-! ## Invariants -/

/-- FAULT exactly with a fault record, and heat-enable exactly in HEATING and DWELL (R90, R140). -/
def FaultInv (s : State) : Prop :=
  s.sq.st.isFault = s.sq.faultRecord.isSome ∧ s.lu.heatEnable = s.sq.st.isHeat

/-- The coordinate unit's ranges and the bounds of the queues (R7, R10, R17, R21, R112, R141, R150, R182). -/
def RangeInv (s : State) : Prop :=
  (-(2000000 * 65536) ≤ s.cu.coord ∧ s.cu.coord ≤ 2000000 * 65536) ∧
  (4096 ≤ s.cu.scaleK ∧ s.cu.scaleK ≤ 6553600) ∧
  (-2000000 ≤ s.cu.lower ∧ s.cu.lower < s.cu.upper ∧ s.cu.upper ≤ 2000000) ∧
  s.cu.ring.length ≤ 9 ∧ s.cu.captures.length ≤ 16 ∧ s.stk.exceptions.length ≤ 32 ∧ s.sq.secondaryCount ≤ 255 ∧
  s.lp.acks.length ≤ 8 ∧ ∀ port, (s.lp.port port).notices.length ≤ 4

/-- No power is commanded outside HEATING and DWELL, and the stop flag goes with speed 0 (R59, R62). -/
def SetPointInv (s : State) : Prop :=
  (s.sq.st.isHeat = false → s.pe.power = 0 ∧ s.pe.enable = false) ∧ s.pe.stop = (s.pe.speed == 0)

/-- Outside IDLE the active bank is one that a commit has validated (R28, R32, R38). -/
def BankInv (s : State) : Prop := s.sq.st ≠ .idle → ∃ k, validate k s.zt.activeBank = none

/-- Every slot's condition is that of its image and check (R39). -/
def SlotInv (s : State) : Prop := ∀ k : SlotNo, s.rs.slots[k] = judgedSlot s.rs.slots[k]

/-- The slice track against the frontier (R97, R98, R99, R108): a record's slice begins at or before the frontier, an
open slice has not ended there, and no closed slice has reached the quench. A start-up load that is still in flight finds
the part in IDLE (R47). -/
def TrackInv (s : State) : Prop :=
  let p := (trackRecipe s.zt.activeBank).pitch
  let d := (trackRecipe s.zt.activeBank).offsetD
  (∀ r ∈ s.stk.track, ((r.index * p : Nat) : Int) ≤ s.cu.frontier ∧
    s.cu.frontier < (((r.index + 1) * p + d : Nat) : Int) ∧
    (r.closeTime = none → s.cu.frontier < (((r.index + 1) * p : Nat) : Int))) ∧
  (s.rs.startUp = .loading → s.sq.st = .idle ∧ ∃ f k, s.rs.inFlight = some f ∧ f.op = .load k)

/-- The states in which the slice track may hold records (R108, R117, R123). -/
def tracks (st : SeqState) : Bool := st.isHeat || st == .runout .travel || st == .quenchout .travel

/-- The slice track's order, and what it, the summary and the held-from record have to do with the state (R97, R99,
R112, R116, R117, R124, R139). -/
def ScanInv (s : State) : Prop :=
  s.stk.track.Pairwise (fun a b => a.index < b.index) ∧
  (∀ r ∈ s.stk.track.dropLast, r.isOpen = false) ∧
  (∀ r ∈ s.stk.track, ∃ h, s.stk.highWater = some h ∧ r.index ≤ h) ∧
  (s.stk.heating = true → s.sq.st.isHeat = true) ∧
  (s.stk.anyOpen = true → s.stk.heating = true) ∧
  (s.stk.track ≠ [] → tracks s.sq.st = true) ∧
  (s.stk.summaryOpen = (s.sq.st.inScan || s.sq.st == .fault .flood)) ∧
  (s.sq.heldFrom.isSome = (s.sq.st == .held || s.sq.st == .quenchout .travel || s.sq.st == .quenchout .postQuench))

/-- The exception queue's account against the summary, while the counts are below their bound (R112). -/
def ExceptionInv (s : State) : Prop :=
  ∀ u, s.stk.summary = some u → u.nonconforming < 2 ^ 32 - 1 →
    (u.detailIncomplete = false → s.stk.exceptions.length + u.delivered = u.nonconforming) ∧
    (u.detailIncomplete = true → s.stk.exceptions.length + u.delivered < u.nonconforming)

/-- Each of the sequencer's timers runs in its own state and phase alone (R72, R85, R87, R133, R142). -/
def TimerInv (s : State) : Prop :=
  (s.sq.approachWait.isSome = true → s.sq.st = .approach .wait) ∧
  (s.sq.dwellTimer.isSome = (s.sq.st == .dwell .timing)) ∧
  (s.sq.postQuench.isSome = (s.sq.st == .runout .postQuench || s.sq.st == .quenchout .postQuench)) ∧
  (s.sq.floodTimer.isSome = (s.sq.st == .fault .flood)) ∧
  (s.sq.indexWatch.isSome = (s.sq.st == .heating))

end Sys2Proof.Machine
end

