-- ==== Sys2Proof/Certificates/Slice0/Obligations.lean ====
section
/-! DEFINITION. The statements for the provers. Each docstring says what its statement says, with the rules it follows;
where a clause is the model's own choice, it names the log entry. -/

open Sys2Proof Sys2Proof.Machine

/-! ## The step, the queue and time -/

/-- A step takes the command at the front of the queue and runs it on the state with the queue's rest, and answers what
it answers (R182: requests are taken one at a time, in the order of their arrival). -/
def Obligations.StepRunsTheFrontCommand : Prop :=
  ∀ (c : Instr) (rest : List Instr) (s : State), s.pending = c :: rest → step s = exec c (s.setPending rest)

/-- What is due at the present instant (R9): each running timer's expiry whose instant is reached, the completion of the
recipe store, the end of a frame in transmission, a port's liveness and a pending warm reset, each once. With no command
waiting, time passes. Where nothing is due, cell time moves on by one microsecond and nothing else changes; where
expiries are due, exactly those are put in the queue, in an order left open, and nothing else changes but the count of
free values. That time passes at an empty queue, and that what is due then enters the queue, is the model's choice
(assumptions 1, 2, 15; assumption 19 for the instant of the warm reset). -/
def Obligations.AnEmptyQueueLetsTimePass : Prop :=
  ∀ s : State,
    (s.allDue.Nodup ∧ ∀ c, c ∈ s.allDue ↔ IsDue s c) ∧
    (s.pending = [] →
      (s.allDue = [] → step s = .next (s.setCu { s.cu with cellTime := (s.cu.cellTime + 1) % 2 ^ 64 })) ∧
      (s.allDue ≠ [] → ∃ (l : List Instr) (n : Nat), l.Perm s.allDue ∧
        step s = .next { s with pending := l, freeCount := n }))

/-- Every command answers a next state, from every state, and none touches the commands that wait behind it. That no
command ends in a fault or a refusal is read from the whole of the spec (assumption 31). What each command does is said
by the statements below. -/
def Obligations.EveryCommandCompletes : Prop :=
  ∀ (c : Instr) (s : State), ∃ t, exec c s = .next t ∧ t.pending = s.pending

/-- A timer's expiry that has not been reached, or whose timer does not run, changes nothing: a timer of duration d
started at t expires at the first instant at which cell time reaches t + d (R9). That such a command is taken at all is
the model's choice (assumption 3). -/
def Obligations.AnExpiryBeforeItsInstantChangesNothing : Prop :=
  ∀ s : State,
    (s.cu.cellTime < s.pe.nextUpdate → exec .updateExpiry s = .next s) ∧
    ((∀ t, s.sq.approachWait = some t → s.cu.cellTime < t) → exec .approachWaitExpiry s = .next s) ∧
    ((∀ t, s.sq.dwellTimer = some t → s.cu.cellTime < t) → exec .dwellTimerExpiry s = .next s) ∧
    ((∀ t, s.sq.postQuench = some t → s.cu.cellTime < t) → exec .postQuenchExpiry s = .next s) ∧
    ((∀ t, s.sq.floodTimer = some t → s.cu.cellTime < t) → exec .floodExpiry s = .next s) ∧
    ((∀ t, s.sq.indexWatch = some t → s.cu.cellTime < t) → exec .indexWatchExpiry s = .next s) ∧
    ((∀ t, s.sq.pressureWatch = some t → s.cu.cellTime < t) → exec .pressureWatchExpiry s = .next s) ∧
    (∀ k : LineNo, (∀ t, (s.lu.lines[k]).filterTimer = some t → s.cu.cellTime < t) →
      exec (.filterExpiry k) s = .next s) ∧
    (∀ k : MarkNo, (∀ t, (s.lu.marks[k]).pulse = some t → s.cu.cellTime < t) →
      exec (.markPulseExpiry k) s = .next s) ∧
    ((∀ t, s.lu.withdrawal = some t → s.cu.cellTime < t) → exec .withdrawalExpiry s = .next s) ∧
    ((∀ f, s.rs.inFlight = some f → s.cu.cellTime < f.completes) →
      exec .loadComplete s = .next s ∧ exec .storeComplete s = .next s ∧ exec .eraseComplete s = .next s ∧
      exec .optionWriteComplete s = .next s) ∧
    (∀ port : Port, (s.lp.port port).link = .online →
      s.cu.cellTime < (s.lp.port port).lastArrival + livenessTime s.sq.st port →
      exec (.livenessExpiry port) s = .next s) ∧
    (∀ port : Port, (s.lp.port port).link ≠ .online → exec (.livenessExpiry port) s = .next s) ∧
    (∀ port : Port, (∀ t, (s.lp.port port).gap = some t → s.cu.cellTime < t) →
      exec (.interCharacterTimeout port) s = .next s) ∧
    ((∀ t, s.lp.powerSend = some t → s.cu.cellTime < t) → exec .powerSendExpiry s = .next s) ∧
    ((∀ t, s.lp.quenchSend = some t → s.cu.cellTime < t) → exec .quenchSendExpiry s = .next s)

/-! ## Resets -/

/-- A power-on reset, from every state: the coordinate unit takes R24's values, with the decoder's phase from the
lines; the set-points those of R70; the sequencer those of R93 and R145, with scan number 0; the slice tracker those of
R120; the line unit those of R176; the links those of R162 and R189, every link DOWN, every place empty, the control
word clear and no report kept; both banks are empty (R48). The supply-low indication is set below 4.5 V and clear at
4.6 V or above (R138); between the two it is left open (assumption 13). The state after reset is what a power-on reset
leaves of itself, with the rail at 5 V, the encoder lines low and the pins undriven; those levels, the sixteen EMPTY
slots and the marking of bank A are the model's choice (assumptions 10, 11), and so are the frontier 0 of the set-point
record and that no set-point frame counts as sent (assumption 14). -/
def Obligations.PowerOnResetValues : Prop :=
  exec (.powerOnReset { railMv := 5000, encA := false, encB := false, pins := Vector.replicate 8 .undriven })
    State.reset = .next State.reset ∧
  ∀ (e : ResetEnd) (s : State), ∃ t, exec (.powerOnReset e) s = .next t ∧ t.pending = s.pending ∧
    t.cu = { cellTime := 0, phase := EncPhase.ofLevels e.encA e.encB, rawCount := 0, indexRecord := none,
             encoderError := false, coord := 0, scaleK := 65536, trimC := 0, trimDir := .faster, trimAcc := 0,
             edgeMode := .x4, invert := false, lower := -2000000, upper := 2000000, ring := [], origin := 0,
             direction := .plus, frontier := 0, datumTaken := false, captures := [], overrun := false } ∧
    t.zt.bankA = emptyBank ∧ t.zt.bankB = emptyBank ∧
    t.pe = { nextUpdate := 250, power := 0, enable := false, heatingZone := none, powerLimited := false, speed := 0,
             stop := true, spindle := 0, mask := 0, flow := 0, flood := false, quenchZone := none, latch := false,
             readFrontier := 0 } ∧
    t.sq.st = .idle ∧ t.sq.scanNumber = 0 ∧ t.sq.heldFrom = none ∧ t.sq.faultRecord = none ∧
    t.sq.secondaryCount = 0 ∧ t.sq.latestSecondary = none ∧ t.sq.nextDwell = none ∧ t.sq.dwellZone = none ∧
    t.sq.startRecord = { spindle := false, inverter := false, coolant := false, waitExpired := false } ∧
    t.sq.firstRevolution = false ∧ t.sq.railMv = e.railMv ∧
    t.sq.seekStart = none ∧ t.sq.overPitch = 0 ∧ t.sq.approachWait = none ∧ t.sq.dwellTimer = none ∧
    t.sq.postQuench = none ∧ t.sq.floodTimer = none ∧ t.sq.indexWatch = none ∧ t.sq.pressureWatch = none ∧
    (e.railMv < 4500 → t.sq.supplyLow = true) ∧ (4600 ≤ e.railMv → t.sq.supplyLow = false) ∧
    t.stk = { track := [], heating := false, highWater := none, seam := none, dwellAccount := none, exceptions := [],
              summary := none } ∧
    (∀ k : LineNo, (t.lu.lines[k]).role = .input .rise 0 0 .general false ∧ (t.lu.lines[k]).latch = false ∧
      (t.lu.lines[k]).pullUp = false ∧ (t.lu.lines[k]).filterTimer = none ∧
      (t.lu.lines[k]).filtered = (e.pins[k] == .high)) ∧
    (∀ k : MarkNo, t.lu.marks[k] =
      { enable := false, target := 0, mode := .once, width := 1, stamp := false, pulse := none }) ∧
    t.lu.rpm = none ∧ t.lu.travel = none ∧ t.lu.prevIndexTime = none ∧ t.lu.indexFrontier = none ∧
    t.lu.withdrawal = none ∧ t.lu.heatEnable = false ∧ t.lp = linksAfterReset

/-- What a power-on reset does to the recipe store (R39, R45, R46, R47). The slot of a store or an erase in flight is
left with an image and a check that disagree, and so CORRUPT; which image and which check is left open, and so is the
check that goes with an image (assumption 35). Every other slot keeps image and check, its condition found from them. The
copy that an option write was writing has a check that disagrees: the first copy where both checks disagree or the write
numbers differ by 2^31 is the model's choice (assumption 20). The option block in force is chosen from the copies, and
the start-up load begins, or the start-up status says why not. -/
def Obligations.PowerOnResetOfTheStore : Prop :=
  ∀ (e : ResetEnd) (s : State),
    let cutShort (k : SlotNo) : Prop :=
      ∃ f, s.rs.inFlight = some f ∧ ((∃ bank, f.op = .store k bank) ∨ f.op = .erase k)
    ∃ t, exec (.powerOnReset e) s = .next t ∧
    (∀ k : SlotNo, (cutShort k → (t.rs.slots[k]).condition = .corrupt ∧
        (t.rs.slots[k]).check ≠ Config.freeImageCheck (t.rs.slots[k]).image) ∧
      (¬ cutShort k → t.rs.slots[k] = judgedSlot s.rs.slots[k])) ∧
    ((∀ f, s.rs.inFlight = some f → ∀ o, f.op ≠ .options o) → t.rs.copy1 = s.rs.copy1 ∧ t.rs.copy2 = s.rs.copy2) ∧
    (∀ f o, s.rs.inFlight = some f → f.op = .options o →
      (writesFirst s.rs.copy1 s.rs.copy2 = true → t.rs.copy1.checkAgrees = false ∧ t.rs.copy2 = s.rs.copy2) ∧
      (writesFirst s.rs.copy1 s.rs.copy2 = false → t.rs.copy2.checkAgrees = false ∧ t.rs.copy1 = s.rs.copy1)) ∧
    StoreRestarted 0 t.rs

/-- The warm reset is taken once it is pending, no answer waits and none is being sent (R188; that any answer holds it
back is assumption 19); until then the command changes nothing. Whatever else the state holds, it is then taken: it keeps
cell time (R25), the scan number (R94), the slots with their images and checks, and the option copies (R48), and
otherwise leaves the blocks as a power-on reset does, every link DOWN and its places empty (R162, R189) and bank A marked
(assumption 10), the option block in force chosen again from the copies and the start-up
load begun (R46, R47); R94's flood ends with it. It is one instant, and the levels outside stay as they are (assumption
12); a rail between the thresholds leaves the supply-low indication open (assumption 13), and the frontier of the
set-point record is 0 (assumption 14). -/
def Obligations.WarmResetKeeps : Prop :=
  ∀ s : State,
    (¬ (s.lp.pendingReset = true ∧ s.lp.acks = [] ∧ ∀ j a, s.lp.portS.tx = some j → j.frame ≠ .ack a) →
      exec .warmReset s = .next s) ∧
    (s.lp.pendingReset = true → s.lp.acks = [] → (∀ j a, s.lp.portS.tx = some j → j.frame ≠ .ack a) →
      ∃ t, exec .warmReset s = .next t ∧ t.cu = cuAfterReset s.cu.cellTime s.cu.phase ∧
        t.sq = sqAfterReset s.sq.scanNumber s.sq.railMv t.sq.supplyLow ∧
        (s.sq.railMv < 4500 → t.sq.supplyLow = true) ∧ (4600 ≤ s.sq.railMv → t.sq.supplyLow = false) ∧
        t.pe = peAfterReset s.cu.cellTime ∧ t.stk = stkAfterReset ∧ t.lp = linksAfterReset ∧
        t.lu = luAfterReset (s.lu.lines.map (·.drive)) ∧
        t.zt = { bankA := emptyBank, bankB := emptyBank, active := .a } ∧
        (∀ k : SlotNo, t.rs.slots[k] = judgedSlot s.rs.slots[k]) ∧
        t.rs.copy1 = s.rs.copy1 ∧ t.rs.copy2 = s.rs.copy2 ∧ StoreRestarted s.cu.cellTime t.rs ∧
        t.pending = s.pending)

/-! ## The scan coordinate -/

/-- A legal transition (R3). The held phase becomes the new one; on a boundary that the edge mode does not count
nothing else changes. A counted edge moves the accumulator, the coordinate, the raw count, the ring and the frontier as
R6, R10, R15 and R17 say. Beyond the limits in a motion state it is fault OVERTRAVEL, and beyond the reversal tolerance
in HEATING and DWELL fault REVERSAL (R131). Without an advance of the frontier the rest stays. An advance fires the
marks in the motion states alone, their stamps the only ones to enter the capture queue (R171, assumptions 7, 49, and
54 for a repeating target that passes +4,000,000; assumption 7 also for the limits judged before reversal, and both
before the advance). With no slice on the track and heating not noted, as in every state below: in IDLE, ARMED, DONE
and FAULT nothing else changes; in HELD and in QUENCHOUT's post-quench the dwell pointer moves on (R84), and in
RUNOUT's nothing; SEEK beyond its limit is fault DATUM (R79); APPROACH arrives at the run-in point (R81), and phase
WAIT at 0 is fault DRIVE (R82). At an entry to HEATING the update's power-limited notice comes before the heating-start
notice (assumption 8), reversal is judged before the arrivals (assumption 25), and the index watch is timed by the
spindle set-point of the update before (assumption 43). The last set-point frame sent is counted from the start of its
transmission (assumption 46). New levels that spell the held phase are no transition. The advances in HEATING, DWELL,
RUNOUT and QUENCHOUT are stated below. -/
def Obligations.LegalTransitionTakesTheEdge : Prop :=
  ∀ (a b : Bool) (h : RecipeHeader) (s : State),
    let new := EncPhase.ofLevels a b
    let up := (new == s.cu.phase.next) != s.cu.invert
    let c := edgeTaken up new s.cu
    let moved := s.setCu c
    let beyond := ¬ WithinLimits c ∨
      c.coord ≠ (if up then s.cu.coord + stepMagnitude s.cu else s.cu.coord - stepMagnitude s.cu)
    let back := (h.reversalTol : Int) < c.frontier - distanceAt c c.coord
    let ends (t : State) : Prop := exec (.encoderTransition a b) s = .next t
    (new = s.cu.phase → ends s) ∧
    (new = s.cu.phase.next ∨ s.cu.phase = new.next →
      (¬ CountedBoundary s.cu.edgeMode s.cu.phase new → ends (s.setCu { s.cu with phase := new })) ∧
      (CountedBoundary s.cu.edgeMode s.cu.phase new →
        (s.sq.st.isMotion = true → beyond → ∃ t, ends t ∧ EnteredFault .overtravel .cu moved t) ∧
        (s.zt.activeBank.header = some h → (s.sq.st.isMotion = true → ¬ beyond) →
          (s.sq.st.isHeat = true → back → ∃ t, ends t ∧ EnteredFault .reversal .sq moved t) ∧
          (c.frontier = s.cu.frontier → (s.sq.st.isHeat = true → ¬ back) → ends moved) ∧
          (s.cu.frontier < c.frontier → s.stk.track = [] → s.stk.heating = false →
            (s.sq.st = .held → ends (pointedPast moved)) ∧
            (s.sq.st = .seek ∨ (∃ ph, s.sq.st = .approach ph) ∨ s.sq.st = .runout .postQuench ∨
                s.sq.st = .quenchout .postQuench → ∃ v t, ends t ∧ MarksTaken s.cu.frontier moved v ∧
              (∀ x, s.sq.st = .seek → s.sq.seekStart = some x →
                ((h.seekLimit : Int) < c.frontier - x → EnteredFault .datum .sq v t) ∧
                (c.frontier - x ≤ (h.seekLimit : Int) → t = v)) ∧
              (s.sq.st = .approach .travel →
                (-(h.runIn : Int) ≤ c.frontier → ArrivedAtRunIn h v t) ∧ (c.frontier < -(h.runIn : Int) → t = v)) ∧
              (s.sq.st = .approach .wait →
                (0 ≤ c.frontier → EnteredFault .drive .sq v t) ∧ (c.frontier < 0 → t = v)) ∧
              (s.sq.st = .runout .postQuench → t = v) ∧
              (s.sq.st = .quenchout .postQuench → t = pointedPast v)))) ∧
        (s.sq.st = .idle ∨ s.sq.st = .armed ∨ s.sq.st = .done ∨ s.sq.st.isFault = true →
          s.stk.track = [] → s.stk.heating = false → ends moved)))

/-- An illegal transition (R4) takes the new phase, sets the encoder-error indicator and moves nothing else of the
coordinate unit; in a motion state fault ENCODER is entered, in any other state that is the whole effect. In the frames
that FAULT's update makes due, the last frame sent is counted from the start of its transmission (assumption 46). A
rising edge of the index line latches the raw count and cell time, and has no other effect (R5). -/
def Obligations.IllegalTransitionAndIndexEdge : Prop :=
  (∀ s : State, exec .indexRisingEdge s =
    .next (s.setCu { s.cu with indexRecord := some { count := s.cu.rawCount, time := s.cu.cellTime } })) ∧
  ∀ (a b : Bool) (s : State),
    let new := EncPhase.ofLevels a b
    new ≠ s.cu.phase → new ≠ s.cu.phase.next → s.cu.phase ≠ new.next →
      (s.sq.st.isMotion = false →
        exec (.encoderTransition a b) s = .next (s.setCu { s.cu with phase := new, encoderError := true })) ∧
      (s.sq.st.isMotion = true → ∃ t, exec (.encoderTransition a b) s = .next t ∧
        EnteredFault .encoder .cu (s.setCu { s.cu with phase := new, encoderError := true }) t)

/-- The speed estimate (R11, R12): 0 with fewer than two stamps and after 100 ms without an edge; otherwise the net rate
between the oldest and the newest stamp in the scan sense, bounded between edges by the speed one step would imply, and
held within 65,535. The forward speed is the greater of it and 0 (R14). -/
def Obligations.SpeedEstimateFromTheRing : Prop :=
  ∀ c : Cu,
    (c.ring.length < 2 → c.speed = 0) ∧
    (∀ newest second rest oldest, c.ring = newest :: second :: rest → c.ring.getLast? = some oldest →
      let since := c.cellTime - newest.time
      let last := newest.time - second.time
      let span : Nat := max 1 (newest.time - oldest.time)
      let raw := ((newest.coord - oldest.coord) * 1000000).tdiv ((span * 65536 : Nat) : Int)
      let edge := match c.direction with
        | .plus => raw
        | .minus => -raw
      let decay := c.scaleK * 1000000 / (65536 * since)
      (100000 ≤ since → c.speed = 0) ∧
      (since < 100000 → last < since →
        (edge.natAbs ≤ decay → c.speed = max (-65535) (min 65535 edge)) ∧
        (decay < edge.natAbs → 0 < edge → c.speed = min 65535 (decay : Int)) ∧
        (decay < edge.natAbs → edge < 0 → c.speed = max (-65535) (-(decay : Int)))) ∧
      (since < 100000 → since ≤ last → c.speed = max (-65535) (min 65535 edge))) ∧
    ((c.forwardSpeed : Int) = max c.speed 0)

/-- The compensated coordinate of an edge taken on a line whose latency is L us is s less (direction PLUS) or plus
(MINUS) the run floor(v_pos * L / 1,000,000); that run is 0 for a carriage that stands or moves against the scan sense,
and 655 um at most. It is what the stamp of a taken edge on a line with capture ON carries, whatever the line's function,
s and v read as the filter accepts the level. For a mark, the stamp carries s at the firing. (R18.) -/
def Obligations.EdgesAreCompensatedForLatency : Prop :=
  (∀ (k : LineNo) (edge : EdgeSetting) (filter latency t : Nat) (fn : InputFn) (s : State),
    (s.lu.lines[k]).role = .input edge filter latency fn true → latency ≤ 10000 →
    (s.lu.lines[k]).filterTimer = some t → t ≤ s.cu.cellTime → (s.lu.lines[k]).pin ≠ (s.lu.lines[k]).filtered →
    edge.takes (edgeTo (s.lu.lines[k]).pin) = true → s.cu.captures.length < 16 →
    ∃ u c, exec (.filterExpiry k) s = .next u ∧
      u.cu.captures = s.cu.captures ++
        [{ source := .line k, edge := some (edgeTo (s.lu.lines[k]).pin), time := s.cu.cellTime, coord := c }] ∧
      (s.cu.direction = .plus → c = s.cu.coord / 65536 - max s.cu.speed 0 * latency / 1000000) ∧
      (s.cu.direction = .minus → c = s.cu.coord / 65536 + max s.cu.speed 0 * latency / 1000000) ∧
      (s.cu.speed ≤ 0 → c = s.cu.coord / 65536) ∧
      max s.cu.speed 0 * latency / 1000000 ≤ 655) ∧
  (∀ (k : MarkNo) (old : Int) (s : State),
    (s.lu.marks[k]).enable = true → (s.lu.marks[k]).stamp = true → old < (s.lu.marks[k]).target →
    (s.lu.marks[k]).target ≤ s.cu.frontier → s.cu.captures.length < 16 →
    (s.markAdvance old k).cu.captures = s.cu.captures ++
      [{ source := .mark k, edge := none, time := s.cu.cellTime, coord := s.cu.coord / 65536 }])

/-! ## Set-points -/

/-- The zone that holds a scan distance y, in a bank that validates (R53): none below 0; from 0 on the highest-numbered
zone whose start is at most y, which always exists, the starts rising strictly from 0; and at or beyond the last start,
x_end, the last zone, whose kind is END. -/
def Obligations.ZoneOfAScanDistance : Prop :=
  ∀ (k : Nat) (b : Bank) (y : Int), validate k b = none →
    (y < 0 → findZone b.zoneList y = none) ∧
    (0 ≤ y → ∃ z e, findZone b.zoneList y = some z ∧ b.zoneList[z]? = some e ∧ (e.startX : Int) ≤ y ∧
      ∀ j e', b.zoneList[j]? = some e' → z < j → y < (e'.startX : Int)) ∧
    (b.zoneList[0]?.map (·.startX) = some 0) ∧
    b.zoneList.Pairwise (fun e e' => e.startX < e'.startX) ∧
    (∃ e, b.zoneList.getLast? = some e ∧ e.kind = .finish ∧ zonesEnd b.zoneList = e.startX ∧
      ((e.startX : Int) ≤ y → findZone b.zoneList y = some (b.zoneList.length - 1)))

/-- Energy per length at y (R55, R56): the zone's E in a HEAT or DWELL zone, 0 in a GAP or END zone, and in a RAMP zone
the line from its E to the next zone's, the quotient truncated toward zero. -/
def Obligations.EnergyByZoneKind : Prop :=
  ∀ (zones : List ZoneEntry) (z : Nat) (y : Int) (e : ZoneEntry), zones[z]? = some e →
    (e.kind = .heat ∨ e.kind = .dwell → energyAt zones z y = e.energy.getD 0) ∧
    (e.kind = .gap ∨ e.kind = .finish → energyAt zones z y = 0) ∧
    (∀ n, e.kind = .ramp → zones[z + 1]? = some n → (e.startX : Int) ≤ y → y < (n.startX : Int) →
      (energyAt zones z y : Int) = (e.energy.getD 0 : Nat) +
        (((n.energy.getD 0 : Nat) - (e.energy.getD 0 : Nat) : Int) * (y - (e.startX : Int))).tdiv
          ((n.startX : Int) - (e.startX : Int)))

/-- An update in HEATING, once the timer has reached its instant (R49, R50). The look-ahead point is the frontier plus
v_pos times the power latency (R52); the zone that holds it gives E (R54, R55); the power is floor(E v_pos / 1,000), held
at p_max, which is the power-limited indication (R57, R58); the speed is the lesser of the zone speed, by the zone's
kind, and the limit (R60, R61); the spindle follows R63. The timer is restarted 250 us on. A limited update marks the
open slice (R105). POWER_SET and MOTION_SET fall due, and QUENCH_SET where it differs from the last one sent (R152 to
R154; assumption 46). No other block changes, but the pressure watch, which stops where quench is off (R134). -/
def Obligations.UpdateInHeating : Prop :=
  ∀ (h : RecipeHeader) (s : State), s.sq.st = .heating → s.zt.activeBank.header = some h →
    s.pe.nextUpdate ≤ s.cu.cellTime →
    ∃ t, exec .updateExpiry s = .next t ∧ t.pe.nextUpdate = s.pe.nextUpdate + 250 ∧ HeatingPoints h s t.pe ∧
      t.stk = (if t.pe.powerLimited then limitedStk s.stk else s.stk) ∧
      t.sq = { s.sq with pressureWatch := if t.pe.latch then s.sq.pressureWatch else none } ∧
      SetPointsSent s t ∧
      t.cu = s.cu ∧ t.zt = s.zt ∧ t.rs = s.rs ∧ t.lu = s.lu ∧ SameKept s.lp t.lp ∧ t.lp.acks = s.lp.acks ∧
      t.pending = s.pending

/-- An update with a recipe active in every other state: the power, speed and spindle set-points (R59, R62, R64), and
what stays. POWER_SET falls due in DWELL, and where it differs from the last one sent; MOTION_SET always; QUENCH_SET
where it differs (R152 to R154; assumption 46). The pressure watch stops where quench is off (R134). In DWELL's phase
SETTLING the speed is then read, and below 100 um/s the dwell timer starts and the phase is TIMING (R85). In APPROACH's
phase WAIT an update that has changed the spindle set-point has the start conditions judged again, and when all hold
HEATING is entered (R82, R83). At an entry to HEATING the update's power-limited notice comes before the heating-start
notice (assumption 8), reversal is judged before the arrivals (assumption 25), and the index watch is timed by the
spindle set-point of the update before (assumption 43). An update with no active header, as in IDLE after a reset, puts
everything off at the frontier read and sends what differs from the frames last sent (R49, R59, R62, R64, R68, R70);
that the same holds of a state other than IDLE, which no run reaches without a header, is assumption 30. -/
def Obligations.UpdateOutsideHeating : Prop :=
  (∀ s : State, s.zt.activeBank.header = none → s.pe.nextUpdate ≤ s.cu.cellTime → s.sq.st ≠ .dwell .settling →
    s.sq.st ≠ .approach .wait →
    ∃ t, exec .updateExpiry s = .next t ∧
      t.pe = offPoints s.cu.frontier { s.pe with nextUpdate := s.pe.nextUpdate + 250 } ∧
      t.sq = { s.sq with pressureWatch := none } ∧ SetPointsSent s t ∧ t.stk = s.stk ∧ t.cu = s.cu ∧ t.zt = s.zt ∧
      t.rs = s.rs ∧ t.lu = s.lu ∧ SameKept s.lp t.lp ∧ t.lp.acks = s.lp.acks ∧ t.pending = s.pending) ∧
  ∀ (h : RecipeHeader) (s : State), s.sq.st ≠ .heating → s.zt.activeBank.header = some h →
    s.pe.nextUpdate ≤ s.cu.cellTime →
    ∃ u : State, u.pe.nextUpdate = s.pe.nextUpdate + 250 ∧ OtherPoints h s u.pe ∧ SprayPoints h s.pe.latch s u.pe ∧
      u.sq = { s.sq with
        pressureWatch := if u.pe.latch || u.pe.quenchZone.isSome then s.sq.pressureWatch else none } ∧
      SetPointsSent s u ∧
      u.stk = s.stk ∧ u.cu = s.cu ∧ u.zt = s.zt ∧ u.rs = s.rs ∧ u.lu = s.lu ∧ SameKept s.lp u.lp ∧
      u.lp.acks = s.lp.acks ∧ u.pending = s.pending ∧
      (s.sq.st ≠ .dwell .settling → s.sq.st ≠ .approach .wait → exec .updateExpiry s = .next u) ∧
      (s.sq.st = .dwell .settling →
        (100 ≤ s.cu.speed.natAbs → exec .updateExpiry s = .next u) ∧
        (∀ z e, s.cu.speed.natAbs < 100 → s.sq.dwellZone = some z → s.zones[z]? = some e →
          exec .updateExpiry s = .next (u.setSq { u.sq with
            st := .dwell .timing, dwellTimer := some (s.cu.cellTime + 1000 * e.dwellTime.getD 0) }))) ∧
      (s.sq.st = .approach .wait → ∃ t, exec .updateExpiry s = .next t ∧ RejudgedIfChanged h s.pe.spindle u t)

/-- The quench set-points of an update with a recipe active (R52, R65 to R68). In HEATING, DWELL, RUNOUT and QUENCHOUT
the latch is set once the quench look-ahead point has reached -prewet, and stays set; under a set latch the zone is the
last one while the point lies below -prewet, zone 0 while it lies below 0, and else the zone that holds it. DONE keeps
the last zone's pattern on where keep-on is set; FAULT floods in phase FLOOD; every other state is off. Where an update
in phase WAIT brings the entry into HEATING (R82), the set-points left are those of that entry, stated above. With no
active header the spray is off and the latch clear (outside IDLE, assumption 30). -/
def Obligations.QuenchSetPoints : Prop :=
  (∀ s : State, s.zt.activeBank.header = none → s.pe.nextUpdate ≤ s.cu.cellTime → s.sq.st ≠ .approach .wait →
    ∃ t, exec .updateExpiry s = .next t ∧ t.pe.latch = false ∧ t.pe.mask = 0 ∧ t.pe.flow = 0 ∧ t.pe.flood = false ∧
      t.pe.quenchZone = none) ∧
  ∀ (h : RecipeHeader) (s : State), s.zt.activeBank.header = some h → s.pe.nextUpdate ≤ s.cu.cellTime →
    (s.sq.st = .approach .wait → spindleAt h s 0 = s.pe.spindle ∨
      ¬ AllHold (judgedStart false (s.setPe { s.pe with spindle := spindleAt h s 0 }))) →
    ∃ t, exec .updateExpiry s = .next t ∧ SprayPoints h s.pe.latch s t.pe

/-- With a bank that validates active, an update sets no power above p_max, no spindle speed above n_max, no flow above
q_max, no carriage speed above 50,000 um/s, and in HEATING none below v_min: the limits of R26, which R33 to R36
enforce. In DWELL the zone named is a DWELL zone, and so is the pointed one, as R84 makes them; phase WAIT, from which an
update may enter HEATING (R82), is covered. -/
def Obligations.SetPointsStayWithinTheRecipe : Prop :=
  ∀ (k : Nat) (h : RecipeHeader) (s : State), validate k s.zt.activeBank = none → s.zt.activeBank.header = some h →
    s.pe.nextUpdate ≤ s.cu.cellTime →
    (∀ z, s.sq.dwellZone = some z → ∃ e, s.zt.activeBank.zoneList[z]? = some e ∧ e.kind = .dwell) →
    (∀ z, s.sq.st = .approach .wait → s.sq.nextDwell = some z →
      ∃ e, s.zt.activeBank.zoneList[z]? = some e ∧ e.kind = .dwell) →
    ∃ t, exec .updateExpiry s = .next t ∧ t.pe.power ≤ h.pMax ∧ t.pe.spindle ≤ h.nMax ∧ t.pe.flow ≤ h.qMax ∧
      t.pe.speed ≤ 50000 ∧ (t.sq.st = .heating → h.vMin ≤ t.pe.speed)

/-! ## Control words, RUN and resume -/

/-- A hold request (R121, R122, R125): a CONTROL frame that sets a clear hold field its port may change, keeps the
other fields and carries no event. The field is set, and the request meets the state. From SEEK and APPROACH it enters
HELD, with the start-condition record cleared; from HEATING and DWELL it enters QUENCHOUT with the break frontier,
heat-enable clear, power off, the open slice closed with HOLD_BREAK, heating no longer noted and the seam at the
high-water index; with no slice left on the track post-quench begins at once (R123). Each change of state places its
notice on every ONLINE port and makes the set-point frames of its update due (R72, R155; assumption 46 for what counts
as last sent). In every other state it has no further effect. -/
def Obligations.HoldRequestByState : Prop :=
  ∀ (port field : Port) (tag : Byte) (w : ControlWord) (s : State),
    port.mayHold field = true → ControlTaken port s → KeepsOtherFields port field w s.lp.control → NoEvent port w →
    s.lp.control.hold field = false →
    let r := s.arrive port
    let set := r.setLp { r.lp with control := r.lp.control.setHold true field }
    ∃ u, exec (.holdRequest port tag field w) s = .next (controlDone port tag .none .none u) ∧
      HoldMet set u ∧ u.lp.control = s.lp.control.setHold true field ∧
      (s.sq.st = .idle ∨ s.sq.st = .armed ∨ s.sq.st = .done ∨ s.sq.st = .held ∨ s.sq.st.isFault = true ∨
        (∃ ph, s.sq.st = .runout ph ∨ s.sq.st = .quenchout ph) → u = set) ∧
      (s.sq.st = .seek ∨ (∃ ph, s.sq.st = .approach ph) →
        u.sq.st = .held ∧ u.sq.heldFrom = some (if s.sq.st = .seek then .seek else .approach) ∧
        u.sq.startRecord = StartRecord.cleared ∧ u.sq.approachWait = none ∧ u.stk = s.stk) ∧
      (s.sq.st.isHeat = true →
        (u.sq.st = (if s.stk.track = [] then .quenchout .postQuench else .quenchout .travel)) ∧
        u.sq.heldFrom = some (if s.sq.st = .heating then .heating s.cu.frontier else .dwell s.cu.frontier) ∧
        u.sq.dwellZone = none ∧ u.sq.dwellTimer = none ∧ u.sq.indexWatch = none ∧ u.lu.heatEnable = false ∧
        u.pe.power = 0 ∧ u.pe.enable = false ∧ u.stk.heating = false ∧ u.stk.seam = s.stk.highWater ∧
        u.stk.track.length = s.stk.track.length ∧ u.stk.summary = s.stk.summary ∧
        ∀ (i : Nat) (r v : SliceRecord), s.stk.track[i]? = some r → u.stk.track[i]? = some v →
          (r.closeTime ≠ none → v = r) ∧
          (r.closeTime = none → v.closeTime = some s.cu.cellTime ∧ v.flags = { r.flags with holdBreak := true } ∧
            v.index = r.index ∧ v.energy = r.energy)) ∧
      u.cu = s.cu ∧ u.zt = s.zt ∧ u.rs = s.rs ∧ u.lp.power = s.lp.power ∧ u.lp.drive = s.lp.drive ∧
      u.lp.quench = s.lp.quench ∧ u.lp.acks = s.lp.acks ∧ u.pending = s.pending

/-- A CONTROL frame of any of the six rows, whatever fields its word carries (assumption 6), is taken field by field
(R137, R183, R184): the four hold fields, abort, and the keep-on field, each where the port has the right and complete
before the next; then on the S-port fault clear and run, judged in the state the fields before them left, and the one
answer with the word as it stands and both outcomes. What an accepted RUN or resume enters is as stated below, with the
model's choices named there (assumptions 8, 25, 43, 44, 45). The last set-point frame sent is counted from the start of
its transmission (assumption 46). A port may change its own hold field, the S-port every one; keep-on is the S- and the
Q-port's. In particular a hold field carried clear, and the keep-on field at either level, take their value and change
nothing else of the control word and of the other blocks (R91): clearing a hold resumes nothing. -/
def Obligations.ControlFieldsAreKept : Prop :=
  (∀ (c : Instr) (port : Port) (tag : Byte) (w : ControlWord) (s : State),
    carriedWord c = some (port, tag, w) → ControlTaken port s →
    ∃ u clear run, WordTaken port w (s.arrive port) u clear run ∧
      exec c s = .next (controlDone port tag clear run u)) ∧
  (∀ port field : Port, port.mayHold field = true ↔ port = .s ∨ port = field) ∧
  (∀ port : Port, port.mayKeepOn = true ↔ port = .s ∨ port = .q) ∧
  ∀ (port field : Port) (tag : Byte) (on : Bool) (w : ControlWord) (s : State),
    ControlTaken port s → NoEvent port w →
    (port.mayHold field = true → KeepsOtherFields port field w s.lp.control →
      exec (.holdFieldCleared port tag field w) s = .next (controlDone port tag .none .none
        ((s.arrive port).setLp
          { (s.arrive port).lp with control := (s.arrive port).lp.control.setHold false field }))) ∧
    (port.mayKeepOn = true → KeepsFields port { w with keepOn := s.lp.control.keepOn } s.lp.control →
      exec (.quenchKeepOn port tag on w) s = .next (controlDone port tag .none .none
        ((s.arrive port).setLp
          { (s.arrive port).lp with control := { (s.arrive port).lp.control with keepOn := on } })))

/-- ABORT from any port (R137): no effect in IDLE, a secondary fault in FAULT, and from every other state fault ABORTED
with the port as its source. The last set-point frame sent is counted from the start of its transmission (assumption
46). -/
def Obligations.AbortBringsTheFault : Prop :=
  ∀ (port : Port) (tag : Byte) (w : ControlWord) (s : State),
    ControlTaken port s → KeepsFields port w s.lp.control →
    (port = .s → w.faultClear = false ∧ w.run = false) →
    ∃ u, exec (.abort port tag w) s = .next (controlDone port tag .none .none u) ∧
      FaultOrSecondary .aborted (.port port) (s.arrive port) u

/-- FAULT_CLEAR (R143): BUSY while the flood runs; with the flood over, CONDITION_PRESENT with the first condition of
the table that holds, and else IDLE with the fault record and the secondary faults emptied, its notice on every ONLINE
port and its update's set-point frames (R72, R155; assumption 46 for what counts as last sent); no effect outside
FAULT. -/
def Obligations.FaultClearJudged : Prop :=
  ∀ (tag : Byte) (w : ControlWord) (s : State),
    Taken s → KeepsFields .s w s.lp.control → w.abort = false → w.run = false →
    (s.sq.st.isFault = false →
      exec (.faultClear tag w) s = .next (controlDone .s tag .none .none (s.arrive .s))) ∧
    (s.sq.st = .fault .flood →
      exec (.faultClear tag w) s = .next (controlDone .s tag (.refused .busy none) .none (s.arrive .s))) ∧
    (∀ r, s.sq.st = .fault .standing → firstOf (clearTable s) = some r →
      exec (.faultClear tag w) s =
        .next (controlDone .s tag (.refused .conditionPresent (some r)) .none (s.arrive .s))) ∧
    (s.sq.st = .fault .standing → firstOf (clearTable s) = none →
      ∃ u, exec (.faultClear tag w) s = .next (controlDone .s tag .ok .none u) ∧ ClearAccepted (s.arrive .s) u ∧
        u.sq.st = .idle ∧ u.sq.faultRecord = none ∧ u.sq.secondaryCount = 0 ∧ u.sq.latestSecondary = none ∧
        u.sq.scanNumber = s.sq.scanNumber ∧ u.sq.supplyLow = s.sq.supplyLow ∧
        u.pe = { s.pe with
          power := 0, enable := false, heatingZone := none, powerLimited := false, speed := 0, stop := true,
          spindle := 0, mask := 0, flow := 0, flood := false, quenchZone := none, latch := false,
          readFrontier := s.cu.frontier } ∧
        u.lp.pressureLow = false ∧ u.lp.quenchantOut = false ∧ u.lp.control = s.lp.control ∧ u.stk = s.stk ∧
        u.cu = s.cu ∧ u.zt = s.zt ∧ u.rs = s.rs ∧ u.lp.acks = s.lp.acks ∧ u.pending = s.pending)

/-- When RUN is refused, and with what (R75, R76, R126): NOT_ARMED in IDLE and FAULT; SCANNING in the states of a scan
but HELD; in ARMED and DONE RESULT_PENDING for a closed and unread summary; there and in HELD HOLD_ACTIVE for a hold
field set, then START_BLOCKED with the first reason of R76's table; and in HELD, for a scan held from HEATING or DWELL,
START_BLOCKED for a spindle or an inverter that is not ready. Nothing else changes. -/
def Obligations.RunIsRefused : Prop :=
  ∀ (tag : Byte) (w : ControlWord) (s : State),
    Taken s → KeepsFields .s w s.lp.control → w.abort = false → w.faultClear = false →
    let refused (st : Status) (r : Option BlockReason) : State :=
      controlDone .s tag .none (.refused st r) (s.arrive .s)
    let atStart := s.sq.st = .armed ∨ s.sq.st = .done
    let unread := ∃ u, s.stk.summary = some u ∧ u.status ≠ .opened ∧ u.read = false
    (s.sq.st = .idle ∨ s.sq.st.isFault = true → exec (.run tag w) s = .next (refused .notArmed none)) ∧
    (s.sq.st.isMotion = true → exec (.run tag w) s = .next (refused .scanning none)) ∧
    (atStart → unread → exec (.run tag w) s = .next (refused .resultPending none)) ∧
    (atStart ∧ ¬ unread ∨ s.sq.st = .held → s.lp.control.anyHold = true →
      exec (.run tag w) s = .next (refused .holdActive none)) ∧
    (∀ h r, atStart ∧ ¬ unread ∨ s.sq.st = .held → s.lp.control.anyHold = false →
      s.zt.activeBank.header = some h → firstOf (startTable h s) = some r →
      exec (.run tag w) s = .next (refused .startBlocked (some r))) ∧
    (∀ h from', s.sq.st = .held → s.lp.control.anyHold = false → s.zt.activeBank.header = some h →
      firstOf (startTable h s) = none → s.sq.heldFrom = some from' → from'.brk ≠ none →
      (¬ SpindleReady s.lu s.pe.spindle → exec (.run tag w) s = .next (refused .startBlocked (some .spindle))) ∧
      (SpindleReady s.lu s.pe.spindle → s.lp.power.map (·.state) ≠ some .ready →
        exec (.run tag w) s = .next (refused .startBlocked (some .inverter))))

/-- RUN in ARMED or DONE with nothing against it (R76, R77, R79, R80). The scan number goes up by one, the summary
opens under it, the exceptions and the tracker's working state are emptied, the frontier is set to x and no datum is
taken yet. With datum mode PROBE SEEK is entered with its start at that frontier. With NONE APPROACH is entered: a
frontier beyond the run-in point already is fault OVERTRAVEL, and one exactly on it is the arrival of R81 at once. A
carriage beyond the travel limits is fault OVERTRAVEL at either entry (R17; that an earlier step held at the range does
not count there is assumption 44). Each change of state is notified on every ONLINE port, with its update's set-point
frames (R72, R155; assumption 46 for what counts as last sent). The travel limits are judged before the run-in point
(assumption 25). Where the arrival enters HEATING, the update's power-limited notice comes before the heating-start
notice (assumption 8), reversal is judged before the arrivals (assumption 25), and the index watch is timed by the
spindle set-point of the update before (assumption 43). -/
def Obligations.RunStartsAScan : Prop :=
  ∀ (tag : Byte) (w : ControlWord) (h : RecipeHeader) (s : State),
    Taken s → KeepsFields .s w s.lp.control → w.abort = false → w.faultClear = false →
    s.sq.st = .armed ∨ s.sq.st = .done → s.zt.activeBank.header = some h →
    (∀ u, s.stk.summary = some u → u.status = .opened ∨ u.read = true) → s.lp.control.anyHold = false →
    firstOf (startTable h s) = none →
    ∃ t, exec (.run tag w) s = .next (controlDone .s tag .none .ok t) ∧ RunStarted h (s.arrive .s) t ∧
      t.sq.scanNumber = s.sq.scanNumber + 1 ∧
      t.cu = { s.cu with frontier := s.cu.x, datumTaken := false } ∧
      t.zt = s.zt ∧ t.rs = s.rs ∧ t.lp.control = s.lp.control ∧ t.lp.acks = s.lp.acks ∧ t.pending = s.pending ∧
      (WithinLimits s.cu → h.datumModeCode = 1 ∨ s.cu.x < -(h.runIn : Int) →
        t.sq.faultRecord = none ∧ t.sq.heldFrom = none ∧ t.sq.dwellZone = none ∧
        t.sq.startRecord = StartRecord.cleared ∧ t.sq.nextDwell = dwellFrom 0 s.zt.activeBank.zoneList ∧
        t.stk = { s.stk with
          exceptions := [], summary := some (Summary.opening (s.sq.scanNumber + 1) h.identifier), heating := false,
          highWater := none, seam := none, dwellAccount := none } ∧
        t.pe.power = 0) ∧
      (WithinLimits s.cu → h.datumModeCode = 1 →
        t.sq.st = .seek ∧ t.sq.seekStart = some s.cu.x ∧ t.pe.speed = h.seekSpeed ∧ t.pe.spindle = h.nBase) ∧
      (WithinLimits s.cu → h.datumModeCode ≠ 1 → s.cu.x < -(h.runIn : Int) →
        t.sq.st = .approach .travel ∧ t.pe.speed = h.approachSpeed) ∧
      (¬ WithinLimits s.cu ∨ h.datumModeCode ≠ 1 ∧ -(h.runIn : Int) < s.cu.x →
        t.sq.st = .fault .flood ∧ t.sq.faultRecord.map (·.code) = some .overtravel)

/-- RUN in HELD with nothing against it resumes the scan (R126 to R128): the held-from record is emptied, the frontier
stays, and the state held from is entered again, HEATING for a scan held from HEATING or DWELL, each with the checks of
its entry: the travel limits (R17, assumption 44), in APPROACH the arrival at once at or beyond the run-in point
(R127), and in HEATING the slice that opens there with SEAM and the skipped count (R100, R102), the reversal tolerance,
the pointed dwell and x_end (R128, R131). Short of all these the state entered stays. At the entry to HEATING the
update comes first, with its notices before it and its power-limited notice before the heating-start notice (assumption
8); then reversal is judged, then the arrivals, then the travel limits, where R128 names the checks in another order
(assumption 25). The index watch is timed by the spindle set-point of the update before (assumption 43). A resume that
passes from HEATING into RUNOUT at once meets no liveness expiry between the two (assumption 45). The last set-point
frame sent is counted from the start of its transmission (assumption 46). -/
def Obligations.ResumeEntersTheStateHeldFrom : Prop :=
  ∀ (tag : Byte) (w : ControlWord) (h : RecipeHeader) (from' : HeldFrom) (s : State),
    Taken s → KeepsFields .s w s.lp.control → w.abort = false → w.faultClear = false →
    s.sq.st = .held → s.sq.heldFrom = some from' → s.zt.activeBank.header = some h →
    s.lp.control.anyHold = false → firstOf (startTable h s) = none →
    (from'.brk ≠ none → SpindleReady s.lu s.pe.spindle ∧ s.lp.power.map (·.state) = some .ready) →
    ∃ t, exec (.run tag w) s = .next (controlDone .s tag .none .ok t) ∧ Resumed h from' (s.arrive .s) t ∧
      t.sq.heldFrom = none ∧ t.sq.scanNumber = s.sq.scanNumber ∧ t.cu = s.cu ∧
      t.zt = s.zt ∧ t.rs = s.rs ∧ t.lp.acks = s.lp.acks ∧ t.pending = s.pending ∧
      (WithinLimits s.cu → (from' = .approach → s.cu.frontier < -(h.runIn : Int)) →
        (from'.brk ≠ none → s.cu.frontier - s.cu.x ≤ h.reversalTol ∧
          s.cu.frontier < zonesEnd s.zt.activeBank.zoneList ∧
          (∀ z, s.sq.nextDwell = some z → s.cu.frontier < s.zoneStart z)) →
        t.sq.nextDwell = s.sq.nextDwell ∧
        (from' = .seek → t.sq.st = .seek ∧ t.pe.speed = h.seekSpeed ∧ t.stk = s.stk) ∧
        (from' = .approach → t.sq.st = .approach .travel ∧ t.pe.speed = h.approachSpeed ∧ t.stk = s.stk) ∧
        (from'.brk ≠ none →
          t.sq.st = .heating ∧ t.lu.heatEnable = true ∧ t.pe.enable = true ∧ t.stk.heating = true ∧
          t.sq.overPitch = 0 ∧ t.sq.firstRevolution = true ∧
          t.sq.indexWatch = some (s.cu.cellTime + 240000000 / s.pe.spindle)))

/-! ## The slice track and the shaft's results -/

/-- A frontier advance within the limits in the states whose scan has slices on the track. The open slice closes once
its far boundary is reached; closed slices depart from the oldest on while their arrival point is reached, each
entering the summary and the exceptions as stated below; and slice floor(f / p) opens where heating is noted, no slice
is open, it lies above the high-water index and starts before x_end, with its kind, its flags SEAM and DWELL and the
skipped slices counted (R98, R99, R102, R103, R108, R110). The marks then fire (R171; assumption 7 for the order, 54
for a repeating target that passes +4,000,000). In HEATING the next dwell's start enters DWELL, else x_end enters
RUNOUT (R84, R87); in DWELL the start of the zone that follows is fault DRIVE (R85), at any advance that finds the
frontier there, even where it stood there at the entry (assumption 51); in RUNOUT post-quench begins once the frontier
is at x_end + D and the track is empty, and a track not empty 50 mm further on is fault OVERTRAVEL (R87); in QUENCHOUT
the pointer moves on, an emptied track begins post-quench, and a track not empty 50 mm beyond the break frontier + D is
fault OVERTRAVEL (R84, R123). The last set-point frame sent is counted from the start of its transmission (assumption
46). Otherwise the sequencer, the set-points and the links stay. That at most the newest record is open is an invariant
of the machine, stated below. -/
def Obligations.HeatingAdvanceMovesTheTrack : Prop :=
  ∀ (a b : Bool) (h : RecipeHeader) (s : State),
    let new := EncPhase.ofLevels a b
    let up := (new == s.cu.phase.next) != s.cu.invert
    let c := edgeTaken up new s.cu
    let f := c.frontier
    let k := trackRecipe s.zt.activeBank
    let q : QuenchCondition := { pressureLow := s.lp.pressureLow, quenchantOut := s.lp.quenchantOut }
    let passed := passedStk k q f s.cu.cellTime s.stk
    let moved := (s.setCu c).setStk (openedStk k f passed)
    let startOf (z : Nat) : Int := (((s.zones[z]?.map (·.startX)).getD 0 : Nat) : Int)
    let undrained (limit : Int) : Prop := limit + 50000 ≤ f ∧ passed.track ≠ []
    let breakEnd : Int := ((s.sq.heldFrom.bind HeldFrom.brk).getD 0) + (h.offsetD : Int)
    let drained : Int := ((zonesEnd s.zones + h.offsetD : Nat) : Int)
    (new = s.cu.phase.next ∨ s.cu.phase = new.next) → CountedBoundary s.cu.edgeMode s.cu.phase new →
    s.cu.frontier < f → s.zt.activeBank.header = some h → WithinLimits c →
    c.coord = (if up then s.cu.coord + stepMagnitude s.cu else s.cu.coord - stepMagnitude s.cu) →
    (∀ r ∈ s.stk.track.dropLast, r.closeTime ≠ none) → (s.stk.heating = true → s.sq.st.isHeat = true) →
    s.sq.st.isHeat = true ∨ s.sq.st = .runout .travel ∨ s.sq.st = .quenchout .travel ∧ s.stk.track ≠ [] →
    ∃ v t, exec (.encoderTransition a b) s = .next t ∧ MarksTaken s.cu.frontier moved v ∧
      (s.sq.st = .heating → ArrivalsJudged h v t) ∧
      (∀ z, s.sq.st.isHeat = true → s.sq.st ≠ .heating → s.sq.dwellZone = some z →
        (startOf (z + 1) ≤ f → EnteredFault .drive .sq v t) ∧ (f < startOf (z + 1) → t = v)) ∧
      (s.sq.st = .runout .travel →
        (drained ≤ f → passed.track = [] → PostQuenchBegun h (.runout .postQuench) v t) ∧
        (undrained drained → EnteredFault .overtravel .sq v t) ∧
        (¬ undrained drained → ¬ (drained ≤ f ∧ passed.track = []) → t = v)) ∧
      (s.sq.st = .quenchout .travel →
        (passed.track = [] → PostQuenchBegun h (.quenchout .postQuench) (pointedPast v) t) ∧
        (undrained breakEnd → EnteredFault .overtravel .sq (pointedPast v) t) ∧
        (¬ undrained breakEnd → passed.track ≠ [] → t = pointedPast v))

/-- The verdicts of a departing slice (R107, R109). A HEATED slice with target e_t greater than 0 has the ratio
floor(e * 1,000 / e_t), and misses its target when |e - e_t| * 1,000 exceeds tol * e_t: UNDER_ENERGY below, OVER_ENERGY
above. With e_t 0 it has no ratio, and OVER_ENERGY when e is greater than 0. One that leaves at quench arrival is judged
on its interval, EARLY_QUENCH below the zone's window and LATE_QUENCH above it, either end conforming. GAP slices are
judged on neither, and a slice that leaves in a flood has no interval. -/
def Obligations.SliceVerdicts : Prop :=
  ∀ (c : TrackRecipe) (r : SliceRecord) (now : Nat) (flooded : Bool) (interval : Option Nat),
    let reasons := reasonsOf c r interval flooded
    (∀ target, r.kind = .heated → r.target = some target → 0 < target →
      energyRatio r = some (r.energy * 1000 / target) ∧
      (reasons.underEnergy = true ↔ c.energyTol * target < (target - r.energy) * 1000) ∧
      (reasons.overEnergy = true ↔ c.energyTol * target < (r.energy - target) * 1000)) ∧
    (r.kind = .heated → r.target = some 0 →
      energyRatio r = none ∧ reasons.underEnergy = false ∧ (reasons.overEnergy = true ↔ 0 < r.energy)) ∧
    (r.kind = .gap → energyRatio r = none ∧ reasons.underEnergy = false ∧ reasons.overEnergy = false) ∧
    (∀ closed, r.kind = .heated → r.closeTime = some closed →
      judgedInterval r now false = some ((now - closed) / 1000)) ∧
    (r.kind = .gap → judgedInterval r now flooded = none) ∧ judgedInterval r now true = none ∧
    (interval = none → reasons.earlyQuench = false ∧ reasons.lateQuench = false) ∧
    (∀ z low high i, c.zones[r.zone]? = some z → z.windowMin = some low → z.windowMax = some high → interval = some i →
      (reasons.earlyQuench = true ↔ i < low) ∧ (reasons.lateQuench = true ↔ high < i))

/-- A departure with an open summary (R110, R112, R115). The slice takes the flags of the quench conditions that are
set; with no reason it counts as conforming, and else as nonconforming, each reason counted, the first such index kept,
and an exception record placed while fewer than 32 are held, the detail marked incomplete when not. The ratio and the
interval widen their minimum and maximum. Every count holds at 2^32 - 1. -/
def Obligations.DepartureIsCounted : Prop :=
  ∀ (c : TrackRecipe) (q : QuenchCondition) (now : Nat) (flooded : Bool) (r : SliceRecord) (k : Stk) (u : Summary),
    k.summary = some u → u.status = .opened →
    let f := { r.flags with
      quenchLow := r.flags.quenchLow || q.pressureLow, quenchant := r.flags.quenchant || q.quenchantOut }
    let i := judgedInterval r now flooded
    let reasons := reasonsOf c { r with flags := f } i flooded
    let more (n : Nat) (b : Bool) : Nat := min (n + if b then 1 else 0) (2 ^ 32 - 1)
    let entry : ExceptionRecord :=
      { index := r.index, zone := r.zone, reasons := reasons, energy := r.energy, target := r.target, interval := i,
        closeTime := r.closeTime.getD 0 }
    reasons.powerLimited = r.flags.powerLimited ∧ reasons.holdBreak = r.flags.holdBreak ∧
    reasons.seam = r.flags.seam ∧ reasons.quenchLow = (r.flags.quenchLow || q.pressureLow) ∧
    reasons.quenchant = (r.flags.quenchant || q.quenchantOut) ∧ reasons.flooded = flooded ∧
    ∃ v, (k.depart c q now flooded r).summary = some v ∧ v.status = .opened ∧ v.total = more u.total true ∧
      (reasons.any = false →
        v.conforming = more u.conforming true ∧ v.nonconforming = u.nonconforming ∧
        v.firstNonconforming = u.firstNonconforming ∧ (k.depart c q now flooded r).exceptions = k.exceptions) ∧
      (reasons.any = true →
        v.conforming = u.conforming ∧ v.nonconforming = more u.nonconforming true ∧
        v.firstNonconforming = some (u.firstNonconforming.getD r.index) ∧
        (k.exceptions.length < 32 → (k.depart c q now flooded r).exceptions = k.exceptions ++ [entry] ∧
          v.detailIncomplete = u.detailIncomplete) ∧
        (32 ≤ k.exceptions.length → (k.depart c q now flooded r).exceptions = k.exceptions ∧
          v.detailIncomplete = true)) ∧
      v.counts = { underEnergy := more u.counts.underEnergy reasons.underEnergy
                   overEnergy := more u.counts.overEnergy reasons.overEnergy
                   earlyQuench := more u.counts.earlyQuench reasons.earlyQuench
                   lateQuench := more u.counts.lateQuench reasons.lateQuench
                   powerLimited := more u.counts.powerLimited reasons.powerLimited
                   holdBreak := more u.counts.holdBreak reasons.holdBreak
                   seam := more u.counts.seam reasons.seam
                   quenchant := more u.counts.quenchant reasons.quenchant
                   quenchLow := more u.counts.quenchLow reasons.quenchLow
                   flooded := more u.counts.flooded flooded
                   dwell := more u.counts.dwell r.flags.dwell } ∧
      (energyRatio r = none → v.ratio = u.ratio) ∧
      (∀ n, energyRatio r = some n → (u.ratio = none → v.ratio = some (n, n)) ∧
        ∀ lo hi, u.ratio = some (lo, hi) → v.ratio = some (min lo n, max hi n)) ∧
      (i = none → v.interval = u.interval) ∧
      (∀ n, i = some n → (u.interval = none → v.interval = some (n, n)) ∧
        ∀ lo hi, u.interval = some (lo, hi) → v.interval = some (min lo n, max hi n))

/-! ## Requests: recipes -/

/-- WRITE_HEADER (R29, R185). Part 1 with an identifier is staged; with identifier 0 it empties the staging, and the
shadow header too unless a load or a store is in flight, which is BUSY. Part 2 without a staged part 1 is INVALID naming
the part number; with one it is BUSY while a load or a store is in flight, and else replaces the shadow header whole and
empties the staging. Any other part number is INVALID, naming the part number in a payload of either part's length
(assumption 28). -/
def Obligations.WriteHeaderStagesAndReplaces : Prop :=
  ∀ (tag : Byte) (h1 : HeaderPart1) (h2 : HeaderPart2) (n : Nat) (s : State), Taken s →
    let r := s.arrive .s
    let unstaged := r.setLp { r.lp with staging := none }
    let header (h : Option RecipeHeader) : State := unstaged.setZt (s.zt.setShadow { s.zt.shadowBank with header := h })
    (h1.identifier ≠ 0 → exec (.writeHeader tag (.fields (.part1 h1))) s =
      .next ((r.setLp { r.lp with staging := some h1 }).answer tag (Answer.ok []))) ∧
    (h1.identifier = 0 → ShadowLocked s → exec (.writeHeader tag (.fields (.part1 h1))) s =
      .next (unstaged.answer tag (Answer.refuse .busy))) ∧
    (h1.identifier = 0 → ¬ ShadowLocked s → exec (.writeHeader tag (.fields (.part1 h1))) s =
      .next ((header none).answer tag (Answer.ok []))) ∧
    (s.lp.staging = none → exec (.writeHeader tag (.fields (.part2 h2))) s =
      .next (repliedTo tag (Answer.invalid 53 none) s)) ∧
    (s.lp.staging = some h1 → ShadowLocked s → exec (.writeHeader tag (.fields (.part2 h2))) s =
      .next (repliedTo tag (Answer.refuse .busy) s)) ∧
    (s.lp.staging = some h1 → h1.identifier ≠ 0 → ¬ ShadowLocked s →
      exec (.writeHeader tag (.fields (.part2 h2))) s =
        .next ((header (some { toHeaderPart1 := h1, toHeaderPart2 := h2 })).answer tag (Answer.ok []))) ∧
    exec (.writeHeader tag (.fields (.otherPart n))) s = .next (repliedTo tag (Answer.invalid 53 none) s)

/-- WRITE_ZONE (R30): INVALID for a position outside 0 ... 63, then for a kind that is none, BUSY while a load or a store
is in flight; else the named shadow position takes the carried entry, or becomes empty, and the other positions, the
header and the active bank stay. -/
def Obligations.WriteZoneReplacesOnePosition : Prop :=
  ∀ (tag : Byte) (w : ZoneWrite) (s : State), Taken s →
    (64 ≤ w.position →
      exec (.writeZone tag (.fields w)) s = .next (repliedTo tag (Answer.invalid 51 none) s)) ∧
    (w.position < 64 → carriedZone w = none →
      exec (.writeZone tag (.fields w)) s = .next (repliedTo tag (Answer.invalid 32 (some w.position)) s)) ∧
    (∀ e, w.position < 64 → carriedZone w = some e → ShadowLocked s →
      exec (.writeZone tag (.fields w)) s = .next (repliedTo tag (Answer.refuse .busy) s)) ∧
    (∀ e (p : ZonePos), w.position = p.val → carriedZone w = some e → ¬ ShadowLocked s →
      exec (.writeZone tag (.fields w)) s =
        .next (((s.arrive .s).setZt (s.zt.setShadow
          { s.zt.shadowBank with zones := s.zt.shadowBank.zones.set p e })).answer tag (Answer.ok [])))

/-- READ_ZONE (R31, R186). A bank code that is neither is INVALID; part 1 of the header or of a position 0 ... 63 forms
the answer in the answer buffer, two parts for the header and one for a position, and delivers part 1; a position
outside is INVALID; part 1 of the shadow bank, header or position, is BUSY while a load is in flight; a later part comes
from the buffer when its contents answer this read, a load in flight or not, and is INVALID when not. That the answer
does not repeat the position is assumption 17; that part number 0 is INVALID, and that bank, part and position are judged
in this order, is assumption 28. -/
def Obligations.ReadZoneDeliversTheContents : Prop :=
  ∀ (tag : Byte) (bank : BankId) (code n : Nat) (s : State), Taken s →
    let b := s.zt.bank bank
    let r := s.arrive .s
    let first (pos : Option Nat) (parts : List (List Byte)) (a : List Byte) : State :=
      (r.setLp { r.lp with buffer := some { kind := .zone code pos, parts := parts } }).answer tag (Answer.ok a)
    (code = 1 ∧ bank = s.zt.active ∨ code = 2 ∧ bank = s.zt.active.other ∧ ¬ LoadInFlight s →
      exec (.readZone tag (.fields { bankCode := code, position := none, part := 1 })) s =
        .next (first none [header1Data b.header, header2Data b.header] ([1, 2] ++ header1Data b.header)) ∧
      (∀ p : ZonePos, exec (.readZone tag (.fields { bankCode := code, position := some p.val, part := 1 })) s =
        .next (first (some p.val) [zoneData b.zones[p]] ([1, 1] ++ zoneData b.zones[p])))) ∧
    (code = 1 ∨ code = 2 →
      (64 ≤ n → exec (.readZone tag (.fields { bankCode := code, position := some n, part := 1 })) s =
        .next (repliedTo tag (Answer.invalid 51 none) s)) ∧
      (∀ d1 d2, s.lp.buffer = some { kind := .zone code none, parts := [d1, d2] } →
        exec (.readZone tag (.fields { bankCode := code, position := none, part := 2 })) s =
          .next (repliedTo tag (Answer.ok ([2, 2] ++ d2)) s)) ∧
      (∀ pos, n ≠ 1 → (∀ v, s.lp.buffer = some v → v.kind ≠ .zone code pos ∨ n = 0 ∨ v.parts.length < n) →
        exec (.readZone tag (.fields { bankCode := code, position := pos, part := n })) s =
          .next (repliedTo tag (Answer.invalid 53 none) s))) ∧
    (∀ pos part, n ≠ 1 → n ≠ 2 → exec (.readZone tag (.fields { bankCode := n, position := pos, part := part })) s =
      .next (repliedTo tag (Answer.invalid 56 none) s)) ∧
    (LoadInFlight s →
      exec (.readZone tag (.fields { bankCode := 2, position := none, part := 1 })) s =
        .next (repliedTo tag (Answer.refuse .busy) s) ∧
      ∀ p : ZonePos, exec (.readZone tag (.fields { bankCode := 2, position := some p.val, part := 1 })) s =
        .next (repliedTo tag (Answer.refuse .busy) s))

/-- COMMIT (R32, R37, R38). BUSY while a load is in flight, SCANNING outside IDLE, ARMED and DONE, INVALID with the
first failing check's field and zone (where R34's wording allows two zones, assumptions 26 and 53); a shadow bank that
validates becomes the active one: origin and direction are taken from its header, the frontier is set to x, the quench
conditions are judged against it (R160), and the state is ARMED: from IDLE and DONE a change, with its notice on every
ONLINE port and its update's set-point frames (R72, R155; assumption 46 for what counts as last sent), in ARMED none. -/
def Obligations.CommitExchangesTheBanks : Prop :=
  ∀ (tag : Byte) (s : State), Taken s →
    let ready := s.sq.st = .idle ∨ s.sq.st = .armed ∨ s.sq.st = .done
    (LoadInFlight s → exec (.commit tag (.fields ())) s = .next (repliedTo tag (Answer.refuse .busy) s)) ∧
    (¬ LoadInFlight s → ¬ ready → exec (.commit tag (.fields ())) s =
      .next (repliedTo tag (Answer.refuse .scanning) s)) ∧
    (∀ f, ¬ LoadInFlight s → ready → validate s.cu.scaleK s.zt.shadowBank = some f →
      exec (.commit tag (.fields ())) s = .next (repliedTo tag (Answer.invalid f.field f.zone) s)) ∧
    (∀ h, ¬ LoadInFlight s → ready → validate s.cu.scaleK s.zt.shadowBank = none →
      s.zt.shadowBank.header = some h →
      let r := s.arrive .s
      let exchanged : State := ((r.setZt { s.zt with active := s.zt.active.other }).setCu { s.cu with
          origin := h.originCoord, direction := h.direction
          frontier := if h.directionCode = 2 then h.originCoord - s.cu.s else s.cu.s - h.originCoord }).setLp { r.lp with
        pressureLow := s.lp.quench.any (fun r => decide (r.pressure < h.pressureMin))
        quenchantOut := s.lp.quench.any
          (fun r => decide (r.temperature < h.windowLow ∨ h.windowHigh < r.temperature)) }
      ∃ t : State, exec (.commit tag (.fields ())) s = .next (t.answer tag (Answer.ok [])) ∧
        (s.sq.st = .armed → t = exchanged) ∧ (s.sq.st ≠ .armed → Changed h .armed exchanged t) ∧
        t.zt = { s.zt with active := s.zt.active.other } ∧
        t.cu = { s.cu with
          origin := h.originCoord, direction := h.direction
          frontier := if h.directionCode = 2 then h.originCoord - s.cu.s else s.cu.s - h.originCoord } ∧
        t.sq.st = .armed ∧ t.sq.scanNumber = s.sq.scanNumber ∧
        t.sq.faultRecord = (if s.sq.st = .armed then s.sq.faultRecord else none) ∧
        t.lp.pressureLow = (s.lp.quench.any (fun r => decide (r.pressure < h.pressureMin))) ∧
        t.lp.quenchantOut =
          (s.lp.quench.any (fun r => decide (r.temperature < h.windowLow ∨ h.windowHigh < r.temperature))) ∧
        (s.sq.st ≠ .armed → t.pe.power = 0 ∧ t.pe.speed = 0 ∧ t.pe.spindle = 0 ∧ t.pe.flow = 0) ∧
        t.stk = s.stk ∧ t.rs = s.rs ∧ t.lp.control = s.lp.control ∧ t.lp.acks = s.lp.acks ∧ t.pending = s.pending)

/-- DISARM (R74): IDLE from ARMED and DONE; from HELD too, with the summary closed ABANDONED and the held-from record
emptied; SCANNING in every other state. The banks, the control word and the coordinate stay. The change is notified on
every ONLINE port (R72, R155), both quench-condition indications are clear in IDLE (R160), and the set-point frames of
its update fall due, POWER_SET and QUENCH_SET where they differ from the last sent, MOTION_SET always (R152 to R154). A
frame counts as sent from the start of its transmission, which is the model's choice (assumption 46). -/
def Obligations.DisarmReturnsToIdle : Prop :=
  ∀ (tag : Byte) (s : State), Taken s →
    (s.sq.st = .armed ∨ s.sq.st = .done ∨ s.sq.st = .held →
      let r := s.arrive .s
      let closed : State := (r.setStk { s.stk with
        summary := s.stk.summary.map (fun u => { u with status := .abandoned, faultCode := none }) }).setSq
          { s.sq with heldFrom := none }
      ∃ t : State, exec (.disarm tag (.fields ())) s = .next (t.answer tag (Answer.ok [])) ∧ t.sq.st = .idle ∧
        IdleEntered (if s.sq.st = .held then closed else r) t ∧
        t.sq.faultRecord = none ∧ t.sq.scanNumber = s.sq.scanNumber ∧
        t.sq.heldFrom = (if s.sq.st = .held then none else s.sq.heldFrom) ∧
        t.stk = (if s.sq.st = .held then
          { s.stk with summary := s.stk.summary.map (fun u => { u with status := .abandoned, faultCode := none }) }
          else s.stk) ∧
        t.pe.power = 0 ∧ t.pe.speed = 0 ∧ t.pe.spindle = 0 ∧ t.pe.flow = 0 ∧ t.pe.mask = 0 ∧
        t.lp.pressureLow = false ∧ t.lp.quenchantOut = false ∧ t.lp.control = s.lp.control ∧
        t.lu = { s.lu with heatEnable := false } ∧
        t.cu = s.cu ∧ t.zt = s.zt ∧ t.rs = s.rs ∧ t.lp.acks = s.lp.acks ∧ t.pending = s.pending) ∧
    (s.sq.st.isMotion = true ∨ s.sq.st = .idle ∨ s.sq.st.isFault = true →
      exec (.disarm tag (.fields ())) s = .next (repliedTo tag (Answer.refuse .scanning) s))

/-- LOAD_RECIPE, STORE_RECIPE, ERASE_RECIPE and WRITE_OPTIONS (R39 to R43, R46): the slot or the settings are judged
first, a store or an erase of a protected slot is PROTECT, an operation in flight is BUSY, a load of a slot that is not
VALID is SLOT_INVALID; else the operation is in flight for its duration, and nothing else changes. -/
def Obligations.RecipeStoreRequests : Prop :=
  ∀ (tag : Byte) (n : Nat) (slot : SlotNo) (w : OptionsWrite) (s : State), Taken s →
    let started (op : RsOp) (time : Nat) : Host.Outcome State Fault Refusal :=
      .next (((s.arrive .s).setRs { s.rs with
        inFlight := some { op := op, completes := s.cu.cellTime + time } }).answer tag (Answer.ok []))
    let replied (a : Answer) : Host.Outcome State Fault Refusal := .next (repliedTo tag a s)
    let filled := (s.zt.shadowBank.zones.toList.filter (·.isSome)).length
    let badOptions : List (Bool × Nat) :=
      [(decide (w.protectedCount ≠ 0 ∧ w.protectedCount ≠ 2 ∧ w.protectedCount ≠ 4 ∧ w.protectedCount ≠ 8), 90),
       (decide (1 < w.lossCode), 91), (w.startUp.any (fun k => decide (16 ≤ k)), 92)]
    (16 ≤ n → exec (.loadRecipe tag (.fields n)) s = replied (Answer.invalid 52 none) ∧
      exec (.storeRecipe tag (.fields n)) s = replied (Answer.invalid 52 none) ∧
      exec (.eraseRecipe tag (.fields n)) s = replied (Answer.invalid 52 none)) ∧
    (slot.val < s.rs.inForce.protectedCount →
      exec (.storeRecipe tag (.fields slot.val)) s = replied (Answer.refuse .protect) ∧
      exec (.eraseRecipe tag (.fields slot.val)) s = replied (Answer.refuse .protect)) ∧
    (s.rs.inFlight ≠ none → exec (.loadRecipe tag (.fields slot.val)) s = replied (Answer.refuse .busy) ∧
      (s.rs.inForce.protectedCount ≤ slot.val →
        exec (.storeRecipe tag (.fields slot.val)) s = replied (Answer.refuse .busy) ∧
        exec (.eraseRecipe tag (.fields slot.val)) s = replied (Answer.refuse .busy)) ∧
      (firstOf badOptions = none → exec (.writeOptions tag (.fields w)) s = replied (Answer.refuse .busy))) ∧
    (s.rs.inFlight = none →
      ((s.rs.slots[slot]).condition ≠ .valid →
        exec (.loadRecipe tag (.fields slot.val)) s = replied (Answer.refuse .slotInvalid)) ∧
      ((s.rs.slots[slot]).condition = .valid →
        exec (.loadRecipe tag (.fields slot.val)) s = started (.load slot) 1000) ∧
      (s.rs.inForce.protectedCount ≤ slot.val →
        exec (.storeRecipe tag (.fields slot.val)) s =
          started (.store slot s.zt.active.other) (10000 + 250 * filled) ∧
        exec (.eraseRecipe tag (.fields slot.val)) s = started (.erase slot) 5000) ∧
      (firstOf badOptions = none → ∃ o : OptionBlock,
        o.protectedCount = w.protectedCount ∧ o.loss = (if w.lossCode = 1 then .hold else .none) ∧
        o.startUp.map (·.val) = w.startUp ∧ exec (.writeOptions tag (.fields w)) s = started (.options o) 5000)) ∧
    (∀ f, firstOf badOptions = some f → exec (.writeOptions tag (.fields w)) s = replied (Answer.invalid f none))

/-- The completions of the recipe store, once their instant is reached (R39 to R43, R46, R47). A load copies the slot's
image to the shadow bank; a store writes the bank named at its start into the slot, an erase an empty image, each with
the check of the image and so VALID or EMPTY (which check that is, is left open: assumption 35); and an option write
goes to the copy R46 chooses with the next write number, the block in force staying until a reset. Which copy is
written when both checks disagree, or when the write numbers differ by 2^31, is the model's choice (assumption 20). The
load of the start-up procedure, which is told by the start-up status LOADING (assumption 38), then commits: the bank
validates and is exchanged, and a part in IDLE is ARMED, the change notified on every ONLINE port (R72, R155;
assumption 46 for what counts as last sent), or the start-up status says what failed (where R34's wording allows two
zones, assumptions 26 and 53). -/
def Obligations.RecipeStoreCompletions : Prop :=
  ∀ (slot : SlotNo) (bank : BankId) (o : OptionBlock) (f : InFlight) (s : State),
    s.rs.inFlight = some f → f.completes ≤ s.cu.cellTime →
    let idle : Rs := { s.rs with inFlight := none }
    let image := (s.rs.slots[slot]).image
    let written (b : Bank) : RecipeSlot :=
      { image := b, check := Config.freeImageCheck b, condition := if b.header.isSome then .valid else .empty }
    (f.op = .load slot →
      (s.rs.startUp ≠ .loading →
        exec .loadComplete s = .next ((s.setZt (s.zt.setShadow image)).setRs idle)) ∧
      (∀ c, s.rs.startUp = .loading → validate s.cu.scaleK image = some c →
        exec .loadComplete s = .next ((s.setZt (s.zt.setShadow image)).setRs
          { idle with startUp := .autoloadInvalid c.field c.zone })) ∧
      (∀ h, s.rs.startUp = .loading → validate s.cu.scaleK image = none → image.header = some h → s.sq.st = .idle →
        let exchanged : State := (((s.setRs idle).setZt
          { s.zt.setShadow image with active := s.zt.active.other }).setCu { s.cu with
            origin := h.originCoord, direction := h.direction
            frontier := if h.directionCode = 2 then h.originCoord - s.cu.s else s.cu.s - h.originCoord }).setLp
          { s.lp with
            pressureLow := s.lp.quench.any (fun r => decide (r.pressure < h.pressureMin))
            quenchantOut := s.lp.quench.any
              (fun r => decide (r.temperature < h.windowLow ∨ h.windowHigh < r.temperature)) }
        ∃ v t, exec .loadComplete s = .next t ∧ Changed h .armed exchanged v ∧
          t = v.setRs { idle with startUp := .autoloaded } ∧ t.rs = { idle with startUp := .autoloaded } ∧
          t.zt = { s.zt.setShadow image with active := s.zt.active.other } ∧ t.sq.st = .armed ∧
          t.cu.origin = h.originCoord ∧ t.cu.frontier = t.cu.x ∧ t.cu.coord = s.cu.coord ∧ t.stk = s.stk)) ∧
    (f.op = .store slot bank → exec .storeComplete s =
      .next (s.setRs { idle with slots := s.rs.slots.set slot (written (s.zt.bank bank)) })) ∧
    (f.op = .erase slot → exec .eraseComplete s =
      .next (s.setRs { idle with slots := s.rs.slots.set slot (written Bank.empty) })) ∧
    (f.op = .options o →
      let greater := decide (1 ≤ (s.rs.copy2.writeNumber - s.rs.copy1.writeNumber).toNat ∧
        (s.rs.copy2.writeNumber - s.rs.copy1.writeNumber).toNat < 2 ^ 31)
      let first := if s.rs.copy1.checkAgrees && s.rs.copy2.checkAgrees then greater else !s.rs.copy1.checkAgrees
      (first = true → exec .optionWriteComplete s = .next (s.setRs { idle with
        copy1 := { options := o, writeNumber := s.rs.copy2.writeNumber + 1, checkAgrees := true } })) ∧
      (first = false → exec .optionWriteComplete s = .next (s.setRs { idle with
        copy2 := { options := o, writeNumber := s.rs.copy1.writeNumber + 1, checkAgrees := true } })))

/-! ## Requests: results, settings, reset -/

/-- The requests that meet no rule of their own (R181, R182, R188): while eight answers wait, no request is answered,
and only the arrival counts; with a warm reset pending each is BUSY, one of the wrong length among them (assumption 18);
a payload of the wrong length is INVALID naming field 0. A CONTROL frame on the S-port meets the same, BUSY and INVALID
with the control word unchanged and both outcomes NONE in its data (R183, R184; assumption 18); of a wrong length on an
actuator port it is an arrival and nothing more. A kind that is not the S-port's is answered ROLE. RESET itself is
SCANNING while a scan is in progress, BUSY while the recipe store works, and else a warm reset is pending and the answer
OK is placed. -/
def Obligations.RequestsTurnedAwayAndReset : Prop :=
  ∀ (c : Instr) (tag : Byte) (s : State),
    (requestTag c = some tag →
      (8 ≤ s.lp.acks.length → exec c s = .next (s.arrive .s)) ∧
      (s.lp.acks.length < 8 → s.lp.pendingReset = true → exec c s = .next (repliedTo tag (Answer.refuse .busy) s)) ∧
      (Taken s → wrongLength c = true → exec c s = .next (repliedTo tag (Answer.invalid 0 none) s))) ∧
    (∀ w, carriedWord c = some (.s, tag, w) →
      (8 ≤ s.lp.acks.length → exec c s = .next (s.arrive .s)) ∧
      (s.lp.acks.length < 8 → s.lp.pendingReset = true →
        exec c s = .next (repliedTo tag (controlTurnedAway .busy 0xFF s.lp.control) s))) ∧
    (∀ (port : Port) (l : List Byte), l.length ≠ 1 →
      (port ≠ .s ∨ 8 ≤ s.lp.acks.length → s.takeFrame port 0x10 tag l = s.arrive port) ∧
      (port = .s → s.lp.acks.length < 8 → s.lp.pendingReset = true →
        s.takeFrame .s 0x10 tag l = repliedTo tag (controlTurnedAway .busy 0xFF s.lp.control) s) ∧
      (port = .s → Taken s →
        s.takeFrame .s 0x10 tag l = repliedTo tag (controlTurnedAway .invalid 0 s.lp.control) s)) ∧
    (8 ≤ s.lp.acks.length → exec (.answeredRole tag) s = .next (s.arrive .s)) ∧
    (s.lp.acks.length < 8 → exec (.answeredRole tag) s = .next (repliedTo tag (Answer.refuse .role) s)) ∧
    (Taken s → s.sq.st.inScan = true →
      exec (.reset tag (.fields ())) s = .next (repliedTo tag (Answer.refuse .scanning) s)) ∧
    (Taken s → s.sq.st.inScan = false → s.rs.inFlight ≠ none →
      exec (.reset tag (.fields ())) s = .next (repliedTo tag (Answer.refuse .busy) s)) ∧
    (Taken s → s.sq.st.inScan = false → s.rs.inFlight = none → exec (.reset tag (.fields ())) s =
      .next (((s.arrive .s).setLp { (s.arrive .s).lp with pendingReset := true }).answer tag (Answer.ok [])))

/-- READ_STATUS (R186, R187, R192). Part 1 forms the snapshot in the answer buffer, five parts of 42, 36, 43, 37 and 17
bytes, each R192's fields in their order and widths, and delivers the first; the enumerations are coded as R190 has
them. Parts 2 to 5 come from the buffer while it holds a snapshot; any other part is INVALID naming the part number,
part number 0 among them (assumption 28). Nothing but the buffer and the answer changes. The four start-condition flags
show the record in phase WAIT and are clear in every other state (assumption 29). The recipe identifier is the active
bank's in IDLE too, and 0 with no active header, as in the empty header (R26); every field of the summary is absent
without a summary; and the sixteen slot conditions are one four-byte number (assumption 42). -/
def Obligations.ReadStatusDeliversTheSnapshot : Prop :=
  (∀ (tag : Byte) (s : State), Taken s →
    let r := s.arrive .s
    let parts := r.statusParts
    exec (.readStatus tag (.fields 1)) s =
      .next ((r.setLp { r.lp with buffer := some { kind := .status, parts := parts } }).answer tag
        (Answer.ok ([1, 5] ++ r.statusPart1))) ∧
    parts = [statusLayout1 r, statusLayout2 r, statusLayout3 r, statusLayout4 r, statusLayout5 r] ∧
    r.statusPart1 = statusLayout1 r ∧
    parts.map (·.length) = [42, 36, 43, 37, 17] ∧
    r.statusPart1.take 6 = [BitVec.ofNat 8 s.sq.st.code, BitVec.ofNat 8 s.sq.st.phaseCode] ++
      beBytes 4 s.sq.scanNumber.toNat ∧
    r.statusPart2.take 12 = beInt 4 (s.cu.coord / 65536) ++ beInt 4 s.cu.frontier ++ beInt 4 s.cu.speed ∧
    (∀ p1 p2 p3 p4 p5, s.lp.buffer = some { kind := .status, parts := [p1, p2, p3, p4, p5] } →
      exec (.readStatus tag (.fields 2)) s = .next (repliedTo tag (Answer.ok ([2, 5] ++ p2)) s) ∧
      exec (.readStatus tag (.fields 3)) s = .next (repliedTo tag (Answer.ok ([3, 5] ++ p3)) s) ∧
      exec (.readStatus tag (.fields 4)) s = .next (repliedTo tag (Answer.ok ([4, 5] ++ p4)) s) ∧
      exec (.readStatus tag (.fields 5)) s = .next (repliedTo tag (Answer.ok ([5, 5] ++ p5)) s)) ∧
    (∀ n, n ≠ 1 → (∀ b, s.lp.buffer = some b → b.kind ≠ .status ∨ n = 0 ∨ b.parts.length < n) →
      exec (.readStatus tag (.fields n)) s = .next (repliedTo tag (Answer.invalid 53 none) s))) ∧
  ([.idle, .armed, .seek, .approach .travel, .approach .wait, .heating, .dwell .settling, .dwell .timing,
      .runout .travel, .runout .postQuench, .done, .quenchout .travel, .quenchout .postQuench, .held, .fault .flood,
      .fault .standing] : List SeqState).map (fun st => (st.code, st.phaseCode)) =
    [(1, 0), (2, 0), (3, 0), (4, 1), (4, 2), (5, 0), (6, 3), (6, 4), (7, 1), (7, 5), (8, 0), (9, 1), (9, 5), (10, 0),
      (11, 6), (11, 7)] ∧
  (∀ x : Int, ([.seek, .approach, .heating x, .dwell x] : List HeldFrom).map (fun v => (v.stateCode, v.brk)) =
    [(3, none), (4, none), (5, some x), (6, some x)]) ∧
  ([.down, .online, .lost] : List LinkState).map (·.code) = [0, 1, 2] ∧
  ([.ready, .running, .limiting, .tripped] : List InverterState).map (·.code) = [1, 2, 3, 4] ∧
  ([.ready, .enabled, .faulted] : List DriveState).map (·.code) = [1, 2, 3] ∧
  ([.empty, .valid, .corrupt] : List SlotCondition).map (·.code) = [0, 1, 2] ∧
  (∀ (k : SlotNo) (bank : BankId) (o : OptionBlock),
    ([.load k, .store k bank, .erase k, .options o] : List RsOp).map (fun v => (v.code, v.slot)) =
      [(1, some k.val), (2, some k.val), (3, some k.val), (4, none)]) ∧
  ∀ (f : Nat) (z : Option Nat),
    ([.none, .loading, .autoloaded, .autoloadFailed, .autoloadInvalid f z] : List StartUpStatus).map
      (fun v => (v.code, v.field, v.zone)) =
      [(0, none, none), (1, none, none), (2, none, none), (3, none, none), (4, some f, z)]

/-- READ_SUMMARY (R118, R186): EMPTY without a summary; part 1 forms both parts in the answer buffer as the summary stands
before the read, delivers the first, and marks a closed summary read; part 2 comes from the buffer, and any other part
number is INVALID (assumption 28). Both parts are R192's fields in their order and widths, 37 and 24 bytes, counts held
at 65,535 and ratios, intervals and the drift at 65,534 (R190). -/
def Obligations.ReadSummaryDeliversAndMarks : Prop :=
  ∀ (tag : Byte) (u : Summary) (d1 d2 : List Byte) (s : State), Taken s →
    let r := s.arrive .s
    (s.stk.summary = none → exec (.readSummary tag (.fields 1)) s = .next (repliedTo tag (Answer.refuse .empty) s)) ∧
    (s.stk.summary = some u → exec (.readSummary tag (.fields 1)) s =
      .next (((r.setLp { r.lp with buffer := some { kind := .summary, parts := [State.summaryPart1 u, State.summaryPart2 u] } }).setStk
        { s.stk with summary := some (if u.status = .opened then u else { u with read := true }) }).answer tag
          (Answer.ok ([1, 2] ++ State.summaryPart1 u)))) ∧
    (s.lp.buffer = some { kind := .summary, parts := [d1, d2] } →
      exec (.readSummary tag (.fields 2)) s = .next (repliedTo tag (Answer.ok ([2, 2] ++ d2)) s)) ∧
    (∀ n, n ≠ 1 → (∀ b, s.lp.buffer = some b → b.kind ≠ .summary ∨ n = 0 ∨ b.parts.length < n) →
      exec (.readSummary tag (.fields n)) s = .next (repliedTo tag (Answer.invalid 53 none) s)) ∧
    State.summaryPart1 u = summaryLayout1 u ∧ State.summaryPart2 u = summaryLayout2 u ∧
    (State.summaryPart1 u).length = 37 ∧ (State.summaryPart2 u).length = 24 ∧
    ([.opened, .complete, .aborted, .faulted, .abandoned] : List SummaryStatus).map (·.code) = [1, 2, 3, 4, 5]

/-- READ_EXCEPTION and READ_FAULT (R113, R140). READ_EXCEPTION is EMPTY with no record; else it delivers the oldest with
the number left and the detail-incomplete flag, removes it and counts it as delivered. READ_FAULT is EMPTY with no fault
record; else it delivers the record, the count of secondary faults and the latest one, and changes nothing. Both answers
are R192's fields in their order and widths, with R190's fault codes and sources. -/
def Obligations.ReadExceptionAndReadFault : Prop :=
  ∀ (tag : Byte) (e : ExceptionRecord) (rest : List ExceptionRecord) (u : Summary) (f : FaultRecord) (s : State),
    Taken s →
    (s.stk.exceptions = [] →
      exec (.readException tag (.fields ())) s = .next (repliedTo tag (Answer.refuse .empty) s)) ∧
    (s.stk.exceptions = e :: rest → s.stk.summary = some u →
      exec (.readException tag (.fields ())) s =
        .next (((s.arrive .s).setStk { s.stk with
          exceptions := rest
          summary := some { u with delivered := min (u.delivered + 1) (2 ^ 32 - 1) } }).answer tag
            (Answer.ok (State.exceptionBytes e ++ [BitVec.ofNat 8 rest.length, if u.detailIncomplete then 1 else 0])))) ∧
    (s.sq.faultRecord = none →
      exec (.readFault tag (.fields ())) s = .next (repliedTo tag (Answer.refuse .empty) s)) ∧
    (s.sq.faultRecord = some f →
      exec (.readFault tag (.fields ())) s = .next (repliedTo tag
        (Answer.ok (State.faultBytes f ++ [BitVec.ofNat 8 s.sq.secondaryCount] ++
          State.secondaryBytes s.sq.latestSecondary)) s)) ∧
    State.exceptionBytes e = exceptionLayout e ∧ State.faultBytes f = faultLayout f ∧
    State.secondaryBytes s.sq.latestSecondary = secondaryLayout s.sq.latestSecondary ∧
    ([.encoder, .overtravel, .reversal, .datum, .partLength, .spiral, .inverter, .drive, .quenchPressure, .coolant,
        .interlock, .linkP, .linkM, .linkQ, .supply, .aborted] : List FaultCode).map (·.code) =
      [1, 2, 3, 4, 5, 6, 7, 8, 9, 10, 11, 12, 13, 14, 15, 16] ∧
    ([.cu, .sq, .lu, .port .s, .port .p, .port .m, .port .q] : List FaultSource).map (·.code) = [1, 2, 3, 4, 5, 6, 7]

/-- READ_CAPTURE (R22). EMPTY with no stamp. Else the oldest stamp is removed and delivered with the overrun as it stood
and the number of stamps left; the read that empties the queue clears the overrun after it has been placed in the answer.
With 16 stamps held, a stamp that falls together with the read is taken behind the 15 that remain when the read is first;
when the stamp is first it is not kept, the overrun is set, and the read removes the oldest stamp and reports it. A stamp
is delivered as its source, its edge, its cell time and its coordinate (R192). -/
def Obligations.ReadCaptureDrainsTheQueue : Prop :=
  ∀ (tag : Byte) (c e : CaptureStamp) (rest : List CaptureStamp) (s : State), Taken s →
    let answer (overrun : Bool) : Answer :=
      Answer.ok (State.captureBytes c ++ [if overrun then 1 else 0, BitVec.ofNat 8 rest.length])
    let drained : Cu := { s.cu with captures := rest, overrun := s.cu.overrun && !rest.isEmpty }
    State.captureBytes c = captureLayout c ∧
    (s.cu.captures = [] →
      exec (.readCapture tag (.fields ())) s = .next (repliedTo tag (Answer.refuse .empty) s)) ∧
    (s.cu.captures = c :: rest →
      exec (.readCapture tag (.fields ())) s =
        .next (((s.arrive .s).setCu drained).answer tag (answer s.cu.overrun)) ∧
      (rest.length = 15 →
        drained.capture e = { drained with captures := rest ++ [e] } ∧
        s.cu.capture e = { s.cu with overrun := true } ∧
        exec (.readCapture tag (.fields ())) (s.setCu (s.cu.capture e)) =
          .next ((((s.setCu (s.cu.capture e)).arrive .s).setCu
            { s.cu with captures := rest, overrun := true }).answer tag (answer true))))

/-- WRITE_POSITION_CONFIG (R7, R8). SCANNING in the motion states, and in HELD with any field but the trim, so that one
that carries no field is accepted there (assumption 27); INVALID with the first of R7's checks that fails; else the
carried fields take effect together, the encoder-error indicator is cleared, the ring is emptied where K, the edge mode
or invert changes, and nothing else moves. -/
def Obligations.WritePositionConfig : Prop :=
  ∀ (tag : Byte) (w : PositionWrite) (s : State), Taken s →
    let trimAlone := w.scaleK = none ∧ w.edgeModeCode = none ∧ w.invertCode = none ∧ w.lower = none ∧ w.upper = none
    let locked := s.sq.st.isMotion = true ∨ s.sq.st = .held ∧ ¬ trimAlone
    let pitch := if s.sq.st = .armed ∨ s.sq.st = .done then s.zt.activeBank.header.map (·.pitch) else none
    let mode := match w.edgeModeCode with
      | some 1 => EdgeMode.x1
      | some 2 => .x2
      | some 4 => .x4
      | _ => s.cu.edgeMode
    let invert := (w.invertCode.map (· == 1)).getD s.cu.invert
    let k := w.scaleK.getD s.cu.scaleK
    (locked → exec (.writePositionConfig tag (.fields w)) s =
      .next (repliedTo tag (Answer.refuse .scanning) s)) ∧
    (∀ f, ¬ locked → firstOf (positionTable s.cu pitch w) = some f →
      exec (.writePositionConfig tag (.fields w)) s = .next (repliedTo tag (Answer.invalid f none) s)) ∧
    (¬ locked → firstOf (positionTable s.cu pitch w) = none →
      exec (.writePositionConfig tag (.fields w)) s = .next (((s.arrive .s).setCu { s.cu with
        scaleK := k
        trimC := (w.trim.map (·.1)).getD s.cu.trimC
        trimDir := (w.trim.map (fun t => if t.2 = 1 then TrimDir.faster else .slower)).getD s.cu.trimDir
        edgeMode := mode
        invert := invert
        lower := w.lower.getD s.cu.lower
        upper := w.upper.getD s.cu.upper
        ring := if k = s.cu.scaleK ∧ mode = s.cu.edgeMode ∧ invert = s.cu.invert then s.cu.ring else []
        encoderError := false }).answer tag (Answer.ok [])))

/-- WRITE_LINE_CONFIG (R164, R165): INVALID for the line, SCANNING while a scan is in progress, INVALID with the first
field that fails, INVALID for a function that another line holds; else the line's configuration is replaced whole, the
latch kept, the filter stopped, the filtered level at the pin's with no edge, and the spindle items are absent where the
write moves SPINDLE_INDEX. No other line changes. A field that does not apply to the direction carried is ignored
(assumption 47). -/
def Obligations.WriteLineConfig : Prop :=
  ∀ (tag : Byte) (w : LineWrite) (s : State), Taken s →
    let carried (fn : InputFn) : Prop := w.directionCode = 1 ∧ w.inputCode = some fn.code
    let held (k : LineNo) : Prop := ∃ fn j, carried fn ∧ j ≠ k ∧ (s.lu.lines[j]).inputFn = some fn ∧
      (fn = .datum ∨ fn = .spindleIndex ∨ fn = .coilWater ∨ fn = .interlock)
    (8 ≤ w.line → exec (.writeLineConfig tag (.fields w)) s = .next (repliedTo tag (Answer.invalid 54 none) s)) ∧
    (w.line < 8 → s.sq.st.inScan = true →
      exec (.writeLineConfig tag (.fields w)) s = .next (repliedTo tag (Answer.refuse .scanning) s)) ∧
    (∀ f, w.line < 8 → s.sq.st.inScan = false → firstOf (lineTable w) = some f →
      exec (.writeLineConfig tag (.fields w)) s = .next (repliedTo tag (Answer.invalid f none) s)) ∧
    (∀ k : LineNo, w.line = k.val → s.sq.st.inScan = false → firstOf (lineTable w) = none → held k →
      exec (.writeLineConfig tag (.fields w)) s = .next (repliedTo tag (Answer.invalid 75 none) s)) ∧
    (∀ k : LineNo, w.line = k.val → s.sq.st.inScan = false → firstOf (lineTable w) = none → ¬ held k →
      ∃ role u, exec (.writeLineConfig tag (.fields w)) s = .next (((s.arrive .s).setLu u).answer tag (Answer.ok [])) ∧
        u.lines[k] = { s.lu.lines[k] with
          pullUp := w.pullUpCode == 1, role := role, filterTimer := none
          filtered := pinReads (w.pullUpCode == 1) (s.lu.lines[k]).drive } ∧
        (∀ j : LineNo, j ≠ k → u.lines[j] = s.lu.lines[j]) ∧ u.marks = s.lu.marks ∧ u.heatEnable = s.lu.heatEnable ∧
        u.withdrawal = s.lu.withdrawal ∧
        (w.directionCode = 1 → ∃ edge fn, EdgeSetting.ofCode (w.edgeCode.getD 0) = some edge ∧
          fn.code = w.inputCode.getD 0 ∧
          role = .input edge (w.filter.getD 0) (w.latency.getD 0) fn (w.captureCode == some 1)) ∧
        (w.directionCode = 2 → ∃ fn, fn.code = w.outputCode.getD 0 ∧ role = .output fn) ∧
        ((role.isIndex = (s.lu.lines[k]).role.isIndex) → u.rpm = s.lu.rpm ∧ u.travel = s.lu.travel ∧
          u.prevIndexTime = s.lu.prevIndexTime ∧ u.indexFrontier = s.lu.indexFrontier) ∧
        ((role.isIndex ≠ (s.lu.lines[k]).role.isIndex) →
          u.rpm = none ∧ u.travel = none ∧ u.prevIndexTime = none ∧ u.indexFrontier = none))

/-- WRITE_LINE, READ_LINES and WRITE_MARK, each taken whatever else the state holds (R168, R169, R170). WRITE_LINE sets
the latches it names, a later pair for one line winning (assumption 32), and sets none when it names a line outside
0 ... 7; READ_LINES delivers four bytes for each line, its direction, function, level and latch, the level of an IN line
the filtered one and of an OUT line what its function drives, directions and functions coded as R190 has them; WRITE_MARK
replaces a mark whole but for its pulse, or names the first field that fails, an add value in ONCE mode being dropped
(assumption 48). -/
def Obligations.LatchesAndMarks : Prop :=
  ∀ (tag : Byte) (l : List (Nat × Bool)) (w : MarkWrite) (s : State), Taken s →
    ((∃ e ∈ l, 8 ≤ e.1) →
      exec (.writeLine tag (.fields l)) s = .next (repliedTo tag (Answer.invalid 54 none) s)) ∧
    ((∀ e ∈ l, e.1 < 8) →
      ∃ u, exec (.writeLine tag (.fields l)) s = .next (((s.arrive .s).setLu u).answer tag (Answer.ok [])) ∧
        u = { s.lu with lines := u.lines } ∧
        ∀ k : LineNo, u.lines[k] = { s.lu.lines[k] with
          latch := (((l.reverse.find? (fun e => e.1 == k.val)).map (·.2)).getD (s.lu.lines[k]).latch) }) ∧
    (∃ levels : Vector Bool 8, exec (.readLines tag (.fields ())) s = .next (repliedTo tag (Answer.ok
        ((List.finRange 8).flatMap (fun k : LineNo =>
          [BitVec.ofNat 8 (s.lu.lines[k]).role.directionCode, BitVec.ofNat 8 (s.lu.lines[k]).role.functionCode,
            if levels[k] then 1 else 0, if (s.lu.lines[k]).latch then 1 else 0]))) s) ∧
      ∀ k : LineNo,
        ((∀ fn, (s.lu.lines[k]).role ≠ .output fn) → levels[k] = (s.lu.lines[k]).filtered) ∧
        ((s.lu.lines[k]).role = .output .general → levels[k] = (s.lu.lines[k]).latch) ∧
        ((s.lu.lines[k]).role = .output .heatMirror → levels[k] = s.lu.heatEnable) ∧
        ((s.lu.lines[k]).role = .output .quenchOn →
          levels[k] = (s.pe.latch || s.pe.quenchZone.isSome || s.pe.flood)) ∧
        ((s.lu.lines[k]).role = .output .fault → levels[k] = s.sq.faultRecord.isSome) ∧
        ((s.lu.lines[k]).role = .output .done → levels[k] = decide (s.sq.st = .done)) ∧
        (∀ m, (s.lu.lines[k]).role = .output (.mark m) → levels[k] = (s.lu.marks[m]).pulse.isSome)) ∧
    (4 ≤ w.mark → exec (.writeMark tag (.fields w)) s = .next (repliedTo tag (Answer.invalid 55 none) s)) ∧
    (∀ f, w.mark < 4 → firstOf (markTable w) = some f →
      exec (.writeMark tag (.fields w)) s = .next (repliedTo tag (Answer.invalid f none) s)) ∧
    (∀ k : MarkNo, w.mark = k.val → firstOf (markTable w) = none →
      exec (.writeMark tag (.fields w)) s = .next (((s.arrive .s).setLu { s.lu with
        marks := s.lu.marks.set k { s.lu.marks[k] with
          enable := w.enableCode == 1, target := w.target, width := w.width, stamp := w.stampCode == 1
          mode := if w.modeCode = 2 then .repeating (w.addValue.getD 0) else .once } }).answer tag (Answer.ok []))) ∧
    ([.datum, .endProbe, .spindleIndex, .coilWater, .interlock, .general] : List InputFn).map (·.code) =
      [1, 2, 3, 4, 5, 6] ∧
    ([.mark 0, .mark 1, .mark 2, .mark 3, .heatMirror, .quenchOn, .fault, .done, .general] : List OutputFn).map (·.code) =
      [16, 17, 18, 19, 20, 21, 22, 23, 24] ∧
    (∀ edge filter latency fn capture,
      (LineRole.input edge filter latency fn capture).directionCode = 1 ∧
      (LineRole.input edge filter latency fn capture).functionCode = fn.code) ∧
    ∀ fn, (LineRole.output fn).directionCode = 2 ∧ (LineRole.output fn).functionCode = fn.code

/-! ## Reports, links and the supply -/

/-- POWER_REPORT (R104, R105, R136, R156). With none of the four states, or a payload of the wrong length, it is an
arrival and nothing more. Else it is kept, its power held at 800,000, and its energy, the power times the interval held
at 5,000 over 1,000, is credited; LIMITING marks the open slice. A change into TRIPPED brings fault INVERTER as well,
the two in an order left open (assumption 9). While the approach waits, each report that does not trip has the start
conditions judged again (R82). At an entry to HEATING the update's power-limited notice comes before the heating-start
notice (assumption 8), reversal is judged before the arrivals (assumption 25), and the index watch is timed by the
spindle set-point of the update before (assumption 43). The last set-point frame sent is counted from the start of its
transmission (assumption 46). -/
def Obligations.PowerReportCreditsEnergy : Prop :=
  ∀ (r : PowerReport) (st : InverterState) (s : State),
    let a := s.arrive .p
    let power := min r.power 800000
    let kept := a.setLp { a.lp with
      power := some { power := power, interval := r.interval, state := st, time := s.cu.cellTime } }
    let energy := power * min r.interval 5000 / 1000
    let trips := st = .tripped ∧ s.lp.power.map (·.state) ≠ some .tripped
    exec (.powerReport .wrongLength) s = .next a ∧
    ((∀ v : InverterState, r.stateCode ≠ v.code) → exec (.powerReport (.fields r)) s = .next a) ∧
    let credited := kept.setStk
      (if st = .limiting then limitedStk (creditedStk energy s.stk) else creditedStk energy s.stk)
    (r.stateCode = st.code → ¬ trips → s.sq.st ≠ .approach .wait →
      exec (.powerReport (.fields r)) s = .next credited) ∧
    (∀ h, r.stateCode = st.code → ¬ trips → s.sq.st = .approach .wait → s.zt.activeBank.header = some h →
      ∃ t, exec (.powerReport (.fields r)) s = .next t ∧ Rejudged h credited t) ∧
    (r.stateCode = st.code → trips →
      let drawn := { kept with freeCount := s.freeCount + 1 }
      ∃ t, exec (.powerReport (.fields r)) s = .next t ∧
        ((∃ u, FaultOrSecondary .inverter (.port .p) drawn u ∧ t = u.setStk (creditedStk energy u.stk)) ∨
         FaultOrSecondary .inverter (.port .p) (drawn.setStk (creditedStk energy s.stk)) t))

/-- DRIVE_STATUS (R136, R158): with no defined state an arrival and nothing more; else kept, and a change into FAULTED
brings fault DRIVE. The last set-point frame sent is counted from the start of its transmission (assumption 46). -/
def Obligations.DriveStatusIsKept : Prop :=
  ∀ (n : Nat) (st : DriveState) (s : State),
    let a := s.arrive .m
    let kept := a.setLp { a.lp with drive := some st }
    exec (.driveStatus .wrongLength) s = .next a ∧
    ((∀ v : DriveState, n ≠ v.code) → exec (.driveStatus (.fields n)) s = .next a) ∧
    (n = st.code → (st = .faulted → s.lp.drive = some .faulted) →
      exec (.driveStatus (.fields n)) s = .next kept) ∧
    (n = st.code → st = .faulted → s.lp.drive ≠ some .faulted →
      ∃ t, exec (.driveStatus (.fields n)) s = .next t ∧ FaultOrSecondary .drive (.port .m) kept t)

/-- QUENCH_REPORT (R134, R159, R160): kept with its pressure and flow held at their bounds; outside IDLE the two
indications are judged against the active header; a pressure below its minimum starts the 50 ms watch where quench is
commanded on and the watch does not run, and one at or above it stops the watch. -/
def Obligations.QuenchReportIsJudged : Prop :=
  ∀ (r : QuenchReport) (h : RecipeHeader) (s : State),
    let a := s.arrive .q
    let b : QuenchReport := { pressure := min r.pressure 2000, flow := min r.flow 20000, temperature := r.temperature }
    let low := decide (b.pressure < h.pressureMin)
    let out := decide (b.temperature < h.windowLow ∨ h.windowHigh < b.temperature)
    let idle := s.sq.st == .idle
    exec (.quenchReport .wrongLength) s = .next a ∧
    (s.zt.activeBank.header = none →
      exec (.quenchReport (.fields r)) s = .next (a.setLp { a.lp with quench := some b })) ∧
    (s.zt.activeBank.header = some h → exec (.quenchReport (.fields r)) s = .next
      ((a.setLp { a.lp with
        quench := some b
        pressureLow := if idle then s.lp.pressureLow else low
        quenchantOut := if idle then s.lp.quenchantOut else out }).setSq { s.sq with
          pressureWatch :=
            if low then
              if (s.pe.latch || s.pe.quenchZone.isSome) && s.sq.pressureWatch.isNone then some (s.cu.cellTime + 50000)
              else s.sq.pressureWatch
            else none }))

/-- The expiry of an ONLINE port's liveness, at the time in force for the port and the state (R136, R147, R148, R150,
R160): the link is LOST and what waits on it is discarded. An actuator's loss brings its link fault while a scan is in
progress, a secondary fault in FAULT, and nothing else in IDLE, ARMED and DONE; the Q-port's loss sets pressure low
where a report was kept and the minimum is above 0 (assumption 21). The loss of the S-port brings no fault: with loss
policy HOLD and hold.S clear it sets hold.S, a hold request as any other (R121); a pending warm reset is taken. The
last set-point frame sent is counted from the start of its transmission (assumption 46). -/
def Obligations.LivenessExpiryLosesTheLink : Prop :=
  ∀ (port : Port) (s : State), (s.lp.port port).link = .online →
    (s.lp.port port).lastArrival + livenessTime s.sq.st port ≤ s.cu.cellTime →
    let gone : State := withPort port { s.lp.port port with link := .lost, notices := [], setDue := false } s
    let lost (code : FaultCode) (g : State) : Prop :=
      ∃ t, exec (.livenessExpiry port) s = .next t ∧
        (s.sq.st.isFault = true → t = secondaryTaken code (.port port) g) ∧
        (s.sq.st.inScan = true → EnteredFault code (.port port) g t) ∧
        (s.sq.st = .idle ∨ s.sq.st = .armed ∨ s.sq.st = .done → t = g)
    let dry := s.sq.st ≠ .idle ∧ s.lp.quench ≠ none ∧ ∃ h, s.zt.activeBank.header = some h ∧ 0 < h.pressureMin
    let alone := gone.setLp { gone.lp with acks := [] }
    let held := alone.setLp { alone.lp with control := { s.lp.control with holdS := true } }
    (port = .p → lost .linkP gone) ∧ (port = .m → lost .linkM gone) ∧
    (port = .q → dry → lost .linkQ (gone.setLp { gone.lp with pressureLow := true })) ∧
    (port = .q → ¬ dry → lost .linkQ gone) ∧
    (port = .s → s.lp.pendingReset = false → s.rs.inForce.loss = .none ∨ s.lp.control.holdS = true →
      exec (.livenessExpiry .s) s = .next alone) ∧
    (port = .s → s.lp.pendingReset = false → s.rs.inForce.loss = .hold → s.lp.control.holdS = false →
      ∃ t, exec (.livenessExpiry .s) s = .next t ∧ HoldMet held t ∧
        t.lp.control = { s.lp.control with holdS := true } ∧
        (s.sq.st = .seek ∨ (∃ ph, s.sq.st = .approach ph) → t.sq.st = .held) ∧
        (s.sq.st.isHeat = true → ∃ ph, t.sq.st = .quenchout ph) ∧
        (s.sq.st ≠ .seek → (∀ ph, s.sq.st ≠ .approach ph) → s.sq.st.isHeat = false → t = held)) ∧
    (port = .s → s.lp.pendingReset = true → ∃ t, exec (.livenessExpiry .s) s = .next t ∧ t.lp = linksAfterReset ∧
      t.pe = peAfterReset s.cu.cellTime ∧ t.stk = stkAfterReset ∧ t.cu = cuAfterReset s.cu.cellTime s.cu.phase ∧
      t.sq = sqAfterReset s.sq.scanNumber s.sq.railMv t.sq.supplyLow ∧
      t.lu = luAfterReset (s.lu.lines.map (·.drive)))

/-- The end of a frame and the two send timers (R150, R152, R154). A transmitter that comes free on an ONLINE port
begins the oldest notice, else on the S-port the oldest answer, else the due set-point frame, built from the latest
record; and else it is idle. The send timers' expiries make POWER_SET and QUENCH_SET due, and a free transmitter begins
them at once, which restarts the timer. A set-point frame becomes the last one sent at the start of its transmission,
not at its end (assumption 46). A frame's end is judged in half microseconds (assumption 23); a send timer that has
expired stays stopped until a frame is sent, and it runs on while the link is LOST (assumption 24). -/
def Obligations.TransmittersSendInOrder : Prop :=
  ∀ (port : Port) (j : TxJob) (s : State),
    let w := s.lp.port port
    let i := s.sendInput
    (w.tx = some j → j.endsAt2 ≤ 2 * s.cu.cellTime →
      (w.link ≠ .online → exec (.transmitComplete port) s = .next (withPort port { w with tx := none } s)) ∧
      (∀ n rest, w.link = .online → w.notices = n :: rest → exec (.transmitComplete port) s =
        .next (withPort port { w with
          notices := rest, sendCount := w.sendCount + 1, tx := some (begun (.notice w.sendCount n) s) } s)) ∧
      (∀ a rest, port = .s → w.link = .online → w.notices = [] → s.lp.acks = a :: rest →
        exec (.transmitComplete .s) s =
          .next (s.setLp { s.lp.setPort { w with tx := some (begun (.ack a) s) } .s with acks := rest })) ∧
      (∀ f, w.link = .online → w.notices = [] → w.setDue = true → setPointFrame port s = some f →
        ∃ t, exec (.transmitComplete port) s = .next t ∧ SameButLinks s t ∧ OnlyPort port s.lp t.lp ∧
          t.lp.port port = { w with setDue := false, sendCount := w.sendCount + 1, tx := some (begun f s) } ∧
          (port = .p → t.lp.sentPower = some { power := s.pe.power, enable := s.pe.enable } ∧
            t.lp.powerSend = some (s.cu.cellTime + 10000)) ∧
          (port = .q → t.lp.sentQuench = some
              { mask := s.pe.mask, flow := s.pe.flow, flood := s.pe.flood, quenchZone := s.pe.quenchZone } ∧
            t.lp.quenchSend = some (s.cu.cellTime + 5000))) ∧
      (w.link = .online → w.notices = [] → (port = .s → s.lp.acks = []) → w.setDue = false ∨ port = .s →
        exec (.transmitComplete port) s = .next (withPort port { w with tx := none } s))) ∧
    (∀ x, s.lp.powerSend = some x → x ≤ s.cu.cellTime →
      (s.lp.portP.link ≠ .online →
        exec .powerSendExpiry s = .next (s.setLp { s.lp with powerSend := none })) ∧
      (s.lp.portP.link = .online → s.lp.portP.tx ≠ none → exec .powerSendExpiry s =
        .next (s.setLp { s.lp with powerSend := none, portP := { s.lp.portP with setDue := true } })) ∧
      (s.lp.portP.link = .online → s.lp.portP.tx = none → s.lp.portP.notices = [] →
        exec .powerSendExpiry s = .next (s.setLp (s.lp.sendSet i .p)) ∧
        (s.lp.sendSet i .p).powerSend = some (s.cu.cellTime + 10000))) ∧
    (∀ x, s.lp.quenchSend = some x → x ≤ s.cu.cellTime →
      (s.lp.portQ.link ≠ .online →
        exec .quenchSendExpiry s = .next (s.setLp { s.lp with quenchSend := none })) ∧
      (s.lp.portQ.link = .online → s.lp.portQ.tx ≠ none → exec .quenchSendExpiry s =
        .next (s.setLp { s.lp with quenchSend := none, portQ := { s.lp.portQ with setDue := true } })) ∧
      (s.lp.portQ.link = .online → s.lp.portQ.tx = none → s.lp.portQ.notices = [] →
        exec .quenchSendExpiry s = .next (s.setLp (s.lp.sendSet i .q)) ∧
        (s.lp.sendSet i .q).quenchSend = some (s.cu.cellTime + 5000)))

/-- A valid arrival, seen at a frame of a kind that its role discards (R146, R150, R151, R179, R181): an ONLINE port's
liveness is restarted and its receiver hunts again; a port that was DOWN or LOST comes ONLINE, its free transmitter
begins a notice of the present state, whose frontier is the present one (assumption 52), its set-point frame is due on
an actuator port, and its send timer starts. And an answer placed (R150, R182): begun at once by a free transmitter,
else last in the ACK place. -/
def Obligations.ArrivalsAndAnswers : Prop :=
  (∀ (port : Port) (s : State),
    let w := s.lp.port port
    let arrived : PortState := { w with link := .online, lastArrival := s.cu.cellTime, rx := .hunt, gap := none }
    let timed : State := s.setLp { s.lp with
      powerSend := if port = .p then some (s.cu.cellTime + 10000) else s.lp.powerSend
      quenchSend := if port = .q then some (s.cu.cellTime + 5000) else s.lp.quenchSend }
    exec (.discardedKindArrival port) s = .next (s.arrive port) ∧
    (w.link = .online → s.arrive port = withPort port arrived s) ∧
    (w.link ≠ .online → w.tx = none → w.notices = [] → s.arrive port = withPort port
      { arrived with
        sendCount := w.sendCount + 1, tx := some (begun (.notice w.sendCount (noticeOf s)) s)
        setDue := w.setDue || port.isActuator } timed) ∧
    (w.link ≠ .online → w.tx ≠ none → w.notices = [] → s.arrive port = withPort port
      { arrived with notices := [noticeOf s], setDue := w.setDue || port.isActuator } timed)) ∧
  (∀ (tag : Byte) (a : Answer) (s : State),
    let w := s.lp.portS
    (w.link = .online → w.tx = none → w.notices = [] → s.lp.acks = [] →
      s.answer tag a = withPort .s { w with tx := some (begun (.ack { tag := tag, answer := a }) s) } s) ∧
    (w.tx ≠ none → s.answer tag a = s.setLp { s.lp with acks := s.lp.acks ++ [{ tag := tag, answer := a }] }))

/-- The rail (R138): a level below 4.5 V sets the supply-low indication and, where it was clear, brings fault SUPPLY; a
level of 4.6 V or above clears it; between the two it stays. The last set-point frame sent is counted from the start of
its transmission (assumption 46). A level from 4.5 V up to 4.6 V that changes nothing, and one below 4.0 V, where R138
takes a power-on reset, that brings only the fault, are the model's choice (assumption 34). -/
def Obligations.SupplyMonitor : Prop :=
  ∀ (mv : Nat) (s : State),
    let railed (low : Bool) : State := s.setSq { s.sq with railMv := mv, supplyLow := low }
    (mv < 4500 → s.sq.supplyLow = true → exec (.supply mv) s = .next (railed true)) ∧
    (mv < 4500 → s.sq.supplyLow = false →
      ∃ t, exec (.supply mv) s = .next t ∧ FaultOrSecondary .supply .sq (railed true) t) ∧
    (4600 ≤ mv → exec (.supplyRestored mv) s = .next (railed false)) ∧
    (4500 ≤ mv → mv < 4600 → exec (.supply mv) s = .next (railed s.sq.supplyLow) ∧
      exec (.supplyRestored mv) s = .next (railed s.sq.supplyLow))

/-- The receiver's phases (R177, R179). A framing error, a discard and a gap of 20 us put the port back in HUNT, where
only the delimiter begins a frame; a length above 48 is a discard; each character restarts the gap; a frame whose check
disagrees is dropped. None of it touches anything but the port's receiver. -/
def Obligations.ReceiverPhases : Prop :=
  ∀ (port : Port) (c k t : Byte) (n : Nat) (got : List Byte) (s : State),
    let w := s.lp.port port
    let put (rx : RxPhase) : Host.Outcome State Fault Refusal :=
      .next (withPort port { w with rx := rx, gap := some (s.cu.cellTime + 20) } s)
    let hunt : Host.Outcome State Fault Refusal := .next (withPort port { w with rx := .hunt, gap := none } s)
    exec (.frameDiscard port) s = hunt ∧
    (∀ x, w.gap = some x → x ≤ s.cu.cellTime → exec (.interCharacterTimeout port) s = hunt) ∧
    exec (.characterReceived port c false) s = hunt ∧
    (w.rx = .hunt → c ≠ 0x5A → exec (.characterReceived port c true) s = .next s) ∧
    (w.rx = .hunt → exec (.characterReceived port 0x5A true) s = put (.header [])) ∧
    (w.rx = .header [] → exec (.characterReceived port c true) s = put (.header [c])) ∧
    (w.rx = .header [k] → exec (.characterReceived port c true) s = put (.header [k, c])) ∧
    (w.rx = .header [k, t] → c = 0 → exec (.characterReceived port c true) s = put (.check k t [] none)) ∧
    (w.rx = .header [k, t] → c ≠ 0 → c.toNat ≤ 48 →
      exec (.characterReceived port c true) s = put (.payload k t c.toNat [])) ∧
    (w.rx = .header [k, t] → 48 < c.toNat → exec (.characterReceived port c true) s = hunt) ∧
    (w.rx = .payload k t n got → got.length + 1 < n →
      exec (.characterReceived port c true) s = put (.payload k t n (got ++ [c]))) ∧
    (w.rx = .payload k t n got → n = got.length + 1 →
      exec (.characterReceived port c true) s = put (.check k t (got ++ [c]) none)) ∧
    (w.rx = .check k t got none → exec (.characterReceived port c true) s = put (.check k t got (some c))) ∧
    (∀ c1, w.rx = .check k t got (some c1) →
      [c1, c] ≠ beBytes 2 (crc16 ([k, t, BitVec.ofNat 8 got.length] ++ got)).toNat →
      exec (.characterReceived port c true) s = hunt)

/-! ## Timers and lines -/

/-- The expiries of the scan's timers, at their instant (R82, R86, R88, R125, R133, R134, R142). The approach wait's
expiry is fault SPIRAL without a ready spindle, else fault INVERTER without a ready inverter, and else the wait goes on
for the coil water, its expiry marked. The dwell timer's returns to HEATING with the dwell zone emptied and the checks
of the entry: the slice that opens, the reversal tolerance, the next dwell and x_end (R83, R84, R100, R131). At an
entry to HEATING the update's power-limited notice comes before the heating-start notice (assumption 8), reversal is
judged before the arrivals (assumption 25), and the index watch is timed by the spindle set-point of the update before
(assumption 43). Post-quench ends in DONE with the summary COMPLETE, or in HELD, the change notified on every ONLINE
port with its update's set-point frames (R72, R155; assumption 46 for what counts as last sent). The flood's end closes
the summary ABORTED or FAULTED and stops the spray at an update at once. The index watch is fault SPIRAL, the pressure
watch fault QUENCH_PRESSURE where quench is commanded on. -/
def Obligations.ScanTimerExpiries : Prop :=
  ∀ (h : RecipeHeader) (x : Nat) (s : State), s.zt.activeBank.header = some h → x ≤ s.cu.cellTime →
    (s.sq.st = .approach .wait → s.sq.approachWait = some x →
      (¬ SpindleReady s.lu s.pe.spindle →
        ∃ t, exec .approachWaitExpiry s = .next t ∧ EnteredFault .spiral .sq s t) ∧
      (SpindleReady s.lu s.pe.spindle → s.lp.power.map (·.state) ≠ some .ready →
        ∃ t, exec .approachWaitExpiry s = .next t ∧ EnteredFault .inverter .sq s t) ∧
      (SpindleReady s.lu s.pe.spindle → s.lp.power.map (·.state) = some .ready →
        exec .approachWaitExpiry s = .next (s.setSq { s.sq with
          approachWait := none, startRecord := { s.sq.startRecord with waitExpired := true } }))) ∧
    (s.sq.st = .dwell .timing → s.sq.dwellTimer = some x →
      ∃ t, exec .dwellTimerExpiry s = .next t ∧ HeatingBegun h (s.setSq { s.sq with dwellZone := none }) t ∧
        t.cu = s.cu ∧ t.zt = s.zt ∧ t.rs = s.rs ∧
        (s.cu.frontier - s.cu.x ≤ h.reversalTol → s.cu.frontier < zonesEnd s.zt.activeBank.zoneList →
          (∀ z, s.sq.nextDwell = some z → s.cu.frontier < s.zoneStart z) →
          t.sq.st = .heating ∧ t.sq.dwellZone = none ∧ t.sq.dwellTimer = none ∧
          t.sq.indexWatch = some (s.cu.cellTime + 240000000 / s.pe.spindle) ∧ t.lu.heatEnable = true ∧
          t.pe.enable = true ∧ t.stk.heating = true)) ∧
    (s.sq.st = .runout .postQuench → s.sq.postQuench = some x →
      ∃ v t, exec .postQuenchExpiry s = .next t ∧ Changed h .done s v ∧ t = v.setStk t.stk ∧
        t.sq.st = .done ∧ t.sq.postQuench = none ∧
        t.stk = { s.stk with
          summary := s.stk.summary.map (fun u => { u with status := .complete, faultCode := none }) } ∧
        t.pe.power = 0 ∧ t.pe.speed = 0 ∧ t.pe.spindle = 0 ∧ t.pe.latch = false ∧ t.cu = s.cu ∧ t.zt = s.zt ∧
        t.rs = s.rs) ∧
    (s.sq.st = .quenchout .postQuench → s.sq.postQuench = some x →
      ∃ t, exec .postQuenchExpiry s = .next t ∧ Changed h .held s t ∧ t.sq.st = .held ∧ t.sq.postQuench = none ∧
        t.sq.heldFrom = s.sq.heldFrom ∧ t.pe.power = 0 ∧ t.pe.spindle = h.nBase ∧ t.stk = s.stk ∧ t.cu = s.cu) ∧
    (s.sq.st = .fault .flood → s.sq.floodTimer = some x →
      let code := s.sq.faultRecord.map (·.code)
      ∃ t, exec .floodExpiry s = .next t ∧
        t.sq = { s.sq with st := .fault .standing, floodTimer := none, pressureWatch := none } ∧
        t.stk = { s.stk with summary := s.stk.summary.map (fun u =>
          { u with status := if code = some .aborted then .aborted else .faulted, faultCode := code }) } ∧
        SetPointsSent s t ∧ SetPointsOf h s.pe.latch t ∧ Kept s t ∧
        t.pe.flood = false ∧ t.pe.mask = 0 ∧ t.pe.flow = 0 ∧ t.pe.power = 0 ∧ t.cu = s.cu ∧ t.lu = s.lu) ∧
    (s.sq.st = .heating → s.sq.indexWatch = some x →
      ∃ t, exec .indexWatchExpiry s = .next t ∧ EnteredFault .spiral .sq s t) ∧
    (s.sq.pressureWatch = some x →
      let stopped := s.setSq { s.sq with pressureWatch := none }
      ((s.pe.latch || s.pe.quenchZone.isSome) = true → s.sq.st ≠ .idle → s.sq.st.isFault = false →
        ∃ t, exec .pressureWatchExpiry s = .next t ∧ EnteredFault .quenchPressure (.port .q) stopped t) ∧
      ((s.pe.latch || s.pe.quenchZone.isSome) = false ∨ s.sq.st = .idle ∨ s.sq.st.isFault = true →
        exec .pressureWatchExpiry s = .next stopped))

/-- Pins and filters (R135, R166, R167), marks and the withdrawal (R172, R173). A pin's change starts or stops the
filter. The filter's expiry takes the pin's level as the filtered one, stamps a taken edge where capture is ON, and
hands the change on: a fall of INTERLOCK is fault INTERLOCK outside IDLE and FAULT, a fall of COIL_WATER fault COOLANT
in HEATING and DWELL, a taken END_PROBE edge before x_end fault PART_LENGTH where the check is on, in the states R132
names and in no other, and GENERAL nothing. While the approach waits, every change of the coil-water line's filtered
level, one that the edge setting does not take included, has the start conditions judged again: R82 names each edge
taken, and R135 and R167 hand on every level (assumption 22). So does the withdrawal of the spindle speed (R82). At an
entry to HEATING the update's power-limited notice comes before the heating-start notice (assumption 8), reversal is
judged before the arrivals (assumption 25), and the index watch is timed by the spindle set-point of the update before
(assumption 43). The last set-point frame sent is counted from the start of its transmission (assumption 46). -/
def Obligations.LinesTakeChanges : Prop :=
  ∀ (k : LineNo) (d : PinDrive) (edge : EdgeSetting) (filter latency x : Nat) (fn : InputFn) (capture : Bool)
    (s : State),
    let n := s.lu.lines[k]
    let line (v : Line) : State := s.setLu { s.lu with lines := s.lu.lines.set k v }
    let level := pinReads n.pullUp n.drive
    let taken := edge.takes (if level then .rise else .fall)
    let stamp : CaptureStamp :=
      { source := .line k, edge := some (if level then .rise else .fall), time := s.cu.cellTime
        coord := s.cu.compensated latency }
    let cu := if taken && capture then
        if s.cu.captures.length < 16 then { s.cu with captures := s.cu.captures ++ [stamp] }
        else { s.cu with overrun := true }
      else s.cu
    let after := (line { n with filtered := level, filterTimer := none }).setCu cu
    (∀ f, n.role = .output f → exec (.auxPinChange k d) s = .next (line { n with drive := d })) ∧
    (n.role = .input edge filter latency fn capture →
      (pinReads n.pullUp d = level → exec (.auxPinChange k d) s = .next (line { n with drive := d })) ∧
      (pinReads n.pullUp d ≠ level → pinReads n.pullUp d = n.filtered →
        exec (.auxPinChange k d) s = .next (line { n with drive := d, filterTimer := none })) ∧
      (pinReads n.pullUp d ≠ level → pinReads n.pullUp d ≠ n.filtered →
        exec (.auxPinChange k d) s =
          .next (line { n with drive := d, filterTimer := some (s.cu.cellTime + filter) })) ∧
      (n.filterTimer = some x → x ≤ s.cu.cellTime →
        (level = n.filtered → exec (.filterExpiry k) s = .next (line { n with filterTimer := none })) ∧
        (level ≠ n.filtered →
          (fn = .general ∨ taken = false ∧ (fn = .datum ∨ fn = .endProbe ∨ fn = .spindleIndex) →
            exec (.filterExpiry k) s = .next after) ∧
          (fn = .interlock → level = true ∨ s.sq.st = .idle ∨ s.sq.st.isFault = true →
            exec (.filterExpiry k) s = .next after) ∧
          (fn = .interlock → level = false → s.sq.st ≠ .idle → s.sq.st.isFault = false →
            ∃ t, exec (.filterExpiry k) s = .next t ∧ EnteredFault .interlock .lu after t) ∧
          (fn = .coilWater → level = false → s.sq.st.isHeat = true →
            ∃ t, exec (.filterExpiry k) s = .next t ∧ EnteredFault .coolant .lu after t) ∧
          (fn = .coilWater → level = true ∨ s.sq.st.isHeat = false → s.sq.st ≠ .approach .wait →
            exec (.filterExpiry k) s = .next after) ∧
          (∀ h, fn = .coilWater → s.sq.st = .approach .wait → s.zt.activeBank.header = some h →
            ∃ t, exec (.filterExpiry k) s = .next t ∧ Rejudged h after t) ∧
          (∀ h, fn = .endProbe → taken = true → s.zt.activeBank.header = some h →
            (h.endProbeCode = 1 ∧ s.cu.frontier < zonesEnd s.zt.activeBank.zoneList →
              s.sq.st.isHeat = true ∨ s.sq.st = .held ∨ (∃ ph, s.sq.st = .approach ph) ∨ (∃ ph, s.sq.st = .quenchout ph) →
              ∃ t, exec (.filterExpiry k) s = .next t ∧ EnteredFault .partLength .lu after t) ∧
            (s.sq.st = .idle ∨ s.sq.st = .armed ∨ s.sq.st = .seek ∨ (∃ ph, s.sq.st = .runout ph) ∨ s.sq.st = .done ∨
                s.sq.st.isFault = true →
              exec (.filterExpiry k) s = .next after) ∧
            (h.endProbeCode ≠ 1 ∨ (zonesEnd s.zt.activeBank.zoneList : Int) ≤ s.cu.frontier →
              exec (.filterExpiry k) s = .next after))))) ∧
    (∀ m : MarkNo, (s.lu.marks[m]).pulse = some x → x ≤ s.cu.cellTime → exec (.markPulseExpiry m) s =
      .next (s.setLu { s.lu with marks := s.lu.marks.set m { s.lu.marks[m] with pulse := none } })) ∧
    (s.lu.withdrawal = some x → x ≤ s.cu.cellTime →
      let withdrawn := s.setLu { s.lu with rpm := none, withdrawal := none }
      (s.sq.st ≠ .approach .wait → exec .withdrawalExpiry s = .next withdrawn) ∧
      (∀ h, s.sq.st = .approach .wait → s.zt.activeBank.header = some h →
        ∃ t, exec .withdrawalExpiry s = .next t ∧ Rejudged h withdrawn t))

/-- A taken edge of the spindle index and of the datum (R19, R20, R79, R80, R133, R173). Where the line has capture ON
its stamp, with the coordinate before any step, enters the capture queue (R21, R167). An index edge replaces the
previous time and frontier; with a previous one it measures the speed and the travel and starts the withdrawal timer,
and in HEATING restarts the index watch, the second over-pitched revolution in a row being fault SPIRAL, the first
after an entry not judged; while the approach waits it has the start conditions judged again (R82). At an entry to
HEATING the update's power-limited notice comes before the heating-start notice (assumption 8), reversal is judged
before the arrivals (assumption 25), and the index watch is timed by the spindle set-point of the update before
(assumption 43). The last set-point frame sent is counted from the start of its transmission (assumption 46). A datum
edge in SEEK steps the coordinate and the ring by the datum's error and sets the frontier to x. A step held at the
range's bound, or one that ends beyond the travel limits, is fault OVERTRAVEL (R17); any other leaves for APPROACH,
where a frontier beyond the run-in point is fault OVERTRAVEL and one on it arrives there at once (R80). Outside SEEK,
once a datum is taken, its error is the drift of the open summary, and with none open the edge changes nothing. -/
def Obligations.IndexAndDatumEdges : Prop :=
  ∀ (k : LineNo) (edge : EdgeSetting) (filter latency x t0 : Nat) (f0 : Int) (h : RecipeHeader) (capture : Bool)
    (s : State),
    let n := s.lu.lines[k]
    let stamp : CaptureStamp :=
      { source := .line k, edge := some (edgeTo n.pin), time := s.cu.cellTime, coord := s.cu.compensated latency }
    let cu := if capture then
        if s.cu.captures.length < 16 then { s.cu with captures := s.cu.captures ++ [stamp] }
        else { s.cu with overrun := true }
      else s.cu
    let after := (s.setLu { s.lu with
      lines := s.lu.lines.set k { n with filtered := n.pin, filterTimer := none } }).setCu cu
    let period := max 1 (s.cu.cellTime - t0)
    let measured := after.setLu { after.lu with
      rpm := some (min (60000000 / period) 65535), travel := some (s.cu.frontier - f0)
      withdrawal := some (s.cu.cellTime + min (2 * period) 60000000)
      prevIndexTime := some s.cu.cellTime, indexFrontier := some s.cu.frontier }
    let turn (count : Nat) : State := measured.setSq { s.sq with
      indexWatch := some (s.cu.cellTime + 240000000 / s.pe.spindle), overPitch := count, firstRevolution := false }
    let pitched := (helixAt s.zones s.pe.heatingZone : Int) * 5 < (s.cu.frontier - f0) * 4
    let off := h.datumCoord - s.cu.compensated latency
    edge.takes (edgeTo n.pin) = true → n.pin ≠ n.filtered → n.filterTimer = some x → x ≤ s.cu.cellTime →
    (n.role = .input edge filter latency .spindleIndex capture →
      (s.lu.prevIndexTime = none → exec (.filterExpiry k) s = .next (after.setLu { after.lu with
        prevIndexTime := some s.cu.cellTime, indexFrontier := some s.cu.frontier })) ∧
      (s.lu.prevIndexTime = some t0 → s.lu.indexFrontier = some f0 →
        (s.sq.st ≠ .heating → s.sq.st ≠ .approach .wait → exec (.filterExpiry k) s = .next measured) ∧
        (s.sq.st = .approach .wait → s.zt.activeBank.header = some h →
          ∃ t, exec (.filterExpiry k) s = .next t ∧ Rejudged h measured t) ∧
        (s.sq.st = .heating → s.sq.firstRevolution = true → s.sq.overPitch < 2 →
          exec (.filterExpiry k) s = .next (turn s.sq.overPitch)) ∧
        (s.sq.st = .heating → s.sq.firstRevolution = false → ¬ pitched →
          exec (.filterExpiry k) s = .next (turn 0)) ∧
        (s.sq.st = .heating → s.sq.firstRevolution = false → pitched → s.sq.overPitch = 0 →
          exec (.filterExpiry k) s = .next (turn 1)) ∧
        (s.sq.st = .heating → s.sq.firstRevolution = false → pitched → 0 < s.sq.overPitch →
          ∃ t, exec (.filterExpiry k) s = .next t ∧
            EnteredFault .spiral .sq (turn (s.sq.overPitch + 1)) t))) ∧
    (n.role = .input edge filter latency .datum capture → s.zt.activeBank.header = some h →
      (s.sq.st = .seek →
        let stepped := s.cu.coord + off * 65536
        let moved := after.setCu { cu with
          coord := boundedCoord stepped
          ring := s.cu.ring.map (fun e => { e with coord := e.coord + off * 65536 })
          frontier := distanceAt s.cu (boundedCoord stepped)
          datumTaken := true }
        ∃ v t, exec (.filterExpiry k) s = .next t ∧ t.cu = moved.cu ∧
          (boundedCoord stepped ≠ stepped ∨ ¬ WithinLimits moved.cu → EnteredFault .overtravel .cu moved t) ∧
          (boundedCoord stepped = stepped → WithinLimits moved.cu →
            Changed h (.approach .travel) moved v ∧ RunInJudged h v t ∧
            (t.cu.frontier < -(h.runIn : Int) → t.sq.st = .approach .travel ∧ t.pe.speed = h.approachSpeed))) ∧
      (s.sq.st ≠ .seek → s.cu.datumTaken = false → exec (.filterExpiry k) s = .next after) ∧
      (s.sq.st ≠ .seek → (∀ u, s.stk.summary = some u → u.status ≠ .opened) →
        exec (.filterExpiry k) s = .next after) ∧
      (∀ u, s.sq.st ≠ .seek → s.cu.datumTaken = true → s.stk.summary = some u → u.status = .opened →
        let drift := max (u.drift.getD 0) off.natAbs
        let v : Summary := { u with
          drift := some drift, datumDrift := u.datumDrift || decide (h.datumTol < drift) }
        exec (.filterExpiry k) s = .next (after.setStk { s.stk with summary := some v })))

/-! ## Frames and their encoding -/

/-- A whole frame received on a hunting port, its characters one after another with good stop bits, reaches the rule of
its kind with exactly its tag and its payload: what the port then holds is what taking that frame from the state before
its first character leaves (R178, R179, R181). And taking a frame is the command that its kind's code and the port's role
make of it (R181, R191): the request, report or control word of that code, read from the payload, a ROLE answer for a
kind of the table that is not the S-port's, and an arrival and nothing more for a kind that the role discards or a code
that is not in the table. A CONTROL frame of a wrong length on the S-port, which is no row, is stated above. That a frame
completed by its characters is its own row is assumption 5. -/
def Obligations.FrameReachesItsKind : Prop :=
  (∀ (port : Port) (kind tag : Byte) (l : List Byte) (c : Instr) (s : State),
    frameCommand port kind tag l = some c → exec c s = .next (s.takeFrame port kind tag l)) ∧
  ∀ (port : Port) (kind tag : Byte) (l : List Byte) (s : State), (s.lp.port port).rx = .hunt → l.length ≤ 48 →
    feed port (frameChars kind tag l) s = some (s.takeFrame port kind tag l)

/-- The payloads of the requests and reports, every field at every value its width admits, read back as they were written
(R185, R190 to R192); of a field that may be absent, but the value that stands for absent. Each has one length, WRITE_HEADER
one for each part, and at any other is refused (R181, R192). Numbers go most significant byte first, absent ones as FF in
every byte, or 80 and then 00 where they are signed (R190). That a header field of all ones reads as its number, since a
header field is never absent, is assumption 16; that bits 6 and 7 of WRITE_POSITION_CONFIG's flags are ignored is
assumption 50. -/
def Obligations.RecipePayloadsReadBack : Prop :=
  (∀ h : HeaderPart1, h.wf = true → readHeaderWrite (1 :: HeaderPart1.bytes h) = .fields (.part1 h)) ∧
  (∀ h : HeaderPart2, h.wf = true → readHeaderWrite (2 :: HeaderPart2.bytes h) = .fields (.part2 h)) ∧
  (∀ w : ZoneWrite, w.wf = true → NoneReadsAbsent w → readZoneWrite (zoneBytes w) = .fields w) ∧
  (∀ (w filler : PositionWrite) (high : Bool × Bool), w.wf = true → filler.wf = true →
    readPositionWrite (positionBytes w filler high) = .fields w) ∧
  (∀ w : LineWrite, w.wf = true → LineReadsWhole w → readLineWrite (lineWriteBytes w) = .fields w) ∧
  (∀ w : MarkWrite, w.wf = true → w.addValue ≠ some (2 ^ 32 - 1) → readMarkWrite (markWriteBytes w) = .fields w) ∧
  (∀ w : OptionsWrite, w.wf = true → w.startUp ≠ some 255 →
    readOptionsWrite (beBytes 2 w.protectedCount ++ beBytes 1 w.lossCode ++ beOpt 1 w.startUp) = .fields w) ∧
  (∀ r : PowerReport, r.wf = true →
    readPowerReport (beBytes 4 r.power ++ beBytes 2 r.interval ++ beBytes 1 r.stateCode) = .fields r) ∧
  (∀ r : QuenchReport, r.wf = true →
    readQuenchReport (beBytes 2 r.pressure ++ beBytes 2 r.flow ++ beInt 2 r.temperature) = .fields r) ∧
  (∀ b : Byte, readByte [b] = .fields b.toNat ∧ readControl [b] = .fields (wordOf b)) ∧
  (∀ bank pos part : Byte, readZoneRead [bank, pos, part] = .fields
    { bankCode := bank.toNat, position := if pos = 0xFF then none else some pos.toNat, part := part.toNat }) ∧
  (∀ mask levels : Byte, ∃ l, readLineLevels [mask, levels] = .fields l ∧
    ∀ k v, (k, v) ∈ l ↔ k < 8 ∧ mask.getLsbD k = true ∧ v = levels.getLsbD k) ∧
  (∀ l : List Byte,
    (readNothing l = .wrongLength ↔ l.length ≠ 0) ∧ (readByte l = .wrongLength ↔ l.length ≠ 1) ∧
    (readControl l = .wrongLength ↔ l.length ≠ 1) ∧ (readZoneWrite l = .wrongLength ↔ l.length ≠ 25) ∧
    (readZoneRead l = .wrongLength ↔ l.length ≠ 3) ∧ (readPositionWrite l = .wrongLength ↔ l.length ≠ 20) ∧
    (readLineWrite l = .wrongLength ↔ l.length ≠ 11) ∧ (readLineLevels l = .wrongLength ↔ l.length ≠ 2) ∧
    (readMarkWrite l = .wrongLength ↔ l.length ≠ 14) ∧ (readOptionsWrite l = .wrongLength ↔ l.length ≠ 4) ∧
    (readPowerReport l = .wrongLength ↔ l.length ≠ 7) ∧ (readQuenchReport l = .wrongLength ↔ l.length ≠ 6) ∧
    (readHeaderWrite (1 :: l) = .wrongLength ↔ l.length ≠ 43) ∧
    (readHeaderWrite (2 :: l) = .wrongLength ↔ l.length ≠ 26)) ∧
  (∀ n v : Nat, beBytes n v = (List.range n).map (fun k => BitVec.ofNat 8 (v / 256 ^ (n - 1 - k)))) ∧
  (∀ (n : Nat) (v : Int), beInt n v = beBytes n (v % (256 ^ n : Nat)).toNat) ∧
  (∀ n v : Nat, beOpt n (some v) = beBytes n v ∧ beOpt n none = List.replicate n 0xFF) ∧
  (∀ (n : Nat) (v : Int), beOptInt n (some v) = beInt n v ∧ beOptInt (n + 1) none = 0x80 :: List.replicate n 0)

/-! ## Invariants -/

/-- FAULT goes with a fault record and heat-enable with HEATING and DWELL; power and enable are set in those two alone and
the stop flag goes with speed 0; and each timer of the scan runs in its own state and phase alone. Every step keeps it
(R59, R62, R72, R90, R133, R140, R142). -/
def Obligations.StepKeepsTheSequencer : Prop :=
  ∀ s t : State, FaultInv s → SetPointInv s → TimerInv s → step s = .next t →
    FaultInv t ∧ SetPointInv t ∧ TimerInv t

/-- The coordinate, the scale and the limits stay within their bounds through every step, and so do the edge-stamp ring
(9), the capture queue (16), the exception queue (32), the count of secondary faults (255), the ACK place (8) and each
port's notices (4) (R7, R10, R17, R21, R112, R141, R150, R182). The slice track's bound is stated with its order, below. -/
def Obligations.StepKeepsTheRanges : Prop := ∀ s t : State, RangeInv s → step s = .next t → RangeInv t

/-- Outside IDLE the active bank is always one that has passed the checks of a commit (R32 to R38); and every recipe
slot's condition is always the one that its image and its check give (R39; assumption 35). -/
def Obligations.StepKeepsTheBankValidated : Prop :=
  ∀ s t : State, step s = .next t → (BankInv s → BankInv t) ∧ (SlotInv s → SlotInv t)

/-- The slice track keeps its order, at most its newest record open and none above the high-water index; heating is noted,
slices are held and the summary is open in their states alone; and the exceptions held and delivered account for every
nonconforming slice, but for those whose detail is marked incomplete. With a validated bank in force the slices on the
track are those between the coil and the quench, the open one the slice at the frontier, and the track never holds more
than 64. Every step keeps it (R33, R97, R98, R99, R108, R112, R113, R116, R117, R124, R139). -/
def Obligations.StepKeepsTheScan : Prop :=
  ∀ s t : State, ScanInv s → ExceptionInv s → BankInv s → TrackInv s → step s = .next t →
    ScanInv t ∧ ExceptionInv t ∧ TrackInv t ∧ t.stk.track.length ≤ 64

/-- The state after reset satisfies every one of these invariants. -/
def Obligations.ResetSatisfiesTheInvariants : Prop :=
  FaultInv State.reset ∧ SetPointInv State.reset ∧ TimerInv State.reset ∧ RangeInv State.reset ∧
  BankInv State.reset ∧ SlotInv State.reset ∧ ScanInv State.reset ∧ ExceptionInv State.reset ∧ TrackInv State.reset
end

