-- ==== Sys2Proof/Laws/State.lean ====
section
/-! SUPPORT. What each field reads after each update of the state, each true by definition. -/

namespace Sys2Proof.Machine

namespace State

@[simp] theorem setCu_pending (s : State) (v : Cu) : (s.setCu v).pending = s.pending := rfl
@[simp] theorem setCu_cu (s : State) (v : Cu) : (s.setCu v).cu = v := rfl
@[simp] theorem setCu_zt (s : State) (v : Cu) : (s.setCu v).zt = s.zt := rfl
@[simp] theorem setCu_rs (s : State) (v : Cu) : (s.setCu v).rs = s.rs := rfl
@[simp] theorem setCu_pe (s : State) (v : Cu) : (s.setCu v).pe = s.pe := rfl
@[simp] theorem setCu_sq (s : State) (v : Cu) : (s.setCu v).sq = s.sq := rfl
@[simp] theorem setCu_stk (s : State) (v : Cu) : (s.setCu v).stk = s.stk := rfl
@[simp] theorem setCu_lu (s : State) (v : Cu) : (s.setCu v).lu = s.lu := rfl
@[simp] theorem setCu_lp (s : State) (v : Cu) : (s.setCu v).lp = s.lp := rfl
@[simp] theorem setCu_freeCount (s : State) (v : Cu) : (s.setCu v).freeCount = s.freeCount := rfl

@[simp] theorem setZt_pending (s : State) (v : Zt) : (s.setZt v).pending = s.pending := rfl
@[simp] theorem setZt_cu (s : State) (v : Zt) : (s.setZt v).cu = s.cu := rfl
@[simp] theorem setZt_zt (s : State) (v : Zt) : (s.setZt v).zt = v := rfl
@[simp] theorem setZt_rs (s : State) (v : Zt) : (s.setZt v).rs = s.rs := rfl
@[simp] theorem setZt_pe (s : State) (v : Zt) : (s.setZt v).pe = s.pe := rfl
@[simp] theorem setZt_sq (s : State) (v : Zt) : (s.setZt v).sq = s.sq := rfl
@[simp] theorem setZt_stk (s : State) (v : Zt) : (s.setZt v).stk = s.stk := rfl
@[simp] theorem setZt_lu (s : State) (v : Zt) : (s.setZt v).lu = s.lu := rfl
@[simp] theorem setZt_lp (s : State) (v : Zt) : (s.setZt v).lp = s.lp := rfl
@[simp] theorem setZt_freeCount (s : State) (v : Zt) : (s.setZt v).freeCount = s.freeCount := rfl

@[simp] theorem setRs_pending (s : State) (v : Rs) : (s.setRs v).pending = s.pending := rfl
@[simp] theorem setRs_cu (s : State) (v : Rs) : (s.setRs v).cu = s.cu := rfl
@[simp] theorem setRs_zt (s : State) (v : Rs) : (s.setRs v).zt = s.zt := rfl
@[simp] theorem setRs_rs (s : State) (v : Rs) : (s.setRs v).rs = v := rfl
@[simp] theorem setRs_pe (s : State) (v : Rs) : (s.setRs v).pe = s.pe := rfl
@[simp] theorem setRs_sq (s : State) (v : Rs) : (s.setRs v).sq = s.sq := rfl
@[simp] theorem setRs_stk (s : State) (v : Rs) : (s.setRs v).stk = s.stk := rfl
@[simp] theorem setRs_lu (s : State) (v : Rs) : (s.setRs v).lu = s.lu := rfl
@[simp] theorem setRs_lp (s : State) (v : Rs) : (s.setRs v).lp = s.lp := rfl
@[simp] theorem setRs_freeCount (s : State) (v : Rs) : (s.setRs v).freeCount = s.freeCount := rfl

@[simp] theorem setPe_pending (s : State) (v : Pe) : (s.setPe v).pending = s.pending := rfl
@[simp] theorem setPe_cu (s : State) (v : Pe) : (s.setPe v).cu = s.cu := rfl
@[simp] theorem setPe_zt (s : State) (v : Pe) : (s.setPe v).zt = s.zt := rfl
@[simp] theorem setPe_rs (s : State) (v : Pe) : (s.setPe v).rs = s.rs := rfl
@[simp] theorem setPe_pe (s : State) (v : Pe) : (s.setPe v).pe = v := rfl
@[simp] theorem setPe_sq (s : State) (v : Pe) : (s.setPe v).sq = s.sq := rfl
@[simp] theorem setPe_stk (s : State) (v : Pe) : (s.setPe v).stk = s.stk := rfl
@[simp] theorem setPe_lu (s : State) (v : Pe) : (s.setPe v).lu = s.lu := rfl
@[simp] theorem setPe_lp (s : State) (v : Pe) : (s.setPe v).lp = s.lp := rfl
@[simp] theorem setPe_freeCount (s : State) (v : Pe) : (s.setPe v).freeCount = s.freeCount := rfl

@[simp] theorem setSq_pending (s : State) (v : Sq) : (s.setSq v).pending = s.pending := rfl
@[simp] theorem setSq_cu (s : State) (v : Sq) : (s.setSq v).cu = s.cu := rfl
@[simp] theorem setSq_zt (s : State) (v : Sq) : (s.setSq v).zt = s.zt := rfl
@[simp] theorem setSq_rs (s : State) (v : Sq) : (s.setSq v).rs = s.rs := rfl
@[simp] theorem setSq_pe (s : State) (v : Sq) : (s.setSq v).pe = s.pe := rfl
@[simp] theorem setSq_sq (s : State) (v : Sq) : (s.setSq v).sq = v := rfl
@[simp] theorem setSq_stk (s : State) (v : Sq) : (s.setSq v).stk = s.stk := rfl
@[simp] theorem setSq_lu (s : State) (v : Sq) : (s.setSq v).lu = s.lu := rfl
@[simp] theorem setSq_lp (s : State) (v : Sq) : (s.setSq v).lp = s.lp := rfl
@[simp] theorem setSq_freeCount (s : State) (v : Sq) : (s.setSq v).freeCount = s.freeCount := rfl

@[simp] theorem setStk_pending (s : State) (v : Stk) : (s.setStk v).pending = s.pending := rfl
@[simp] theorem setStk_cu (s : State) (v : Stk) : (s.setStk v).cu = s.cu := rfl
@[simp] theorem setStk_zt (s : State) (v : Stk) : (s.setStk v).zt = s.zt := rfl
@[simp] theorem setStk_rs (s : State) (v : Stk) : (s.setStk v).rs = s.rs := rfl
@[simp] theorem setStk_pe (s : State) (v : Stk) : (s.setStk v).pe = s.pe := rfl
@[simp] theorem setStk_sq (s : State) (v : Stk) : (s.setStk v).sq = s.sq := rfl
@[simp] theorem setStk_stk (s : State) (v : Stk) : (s.setStk v).stk = v := rfl
@[simp] theorem setStk_lu (s : State) (v : Stk) : (s.setStk v).lu = s.lu := rfl
@[simp] theorem setStk_lp (s : State) (v : Stk) : (s.setStk v).lp = s.lp := rfl
@[simp] theorem setStk_freeCount (s : State) (v : Stk) : (s.setStk v).freeCount = s.freeCount := rfl

@[simp] theorem setLu_pending (s : State) (v : Lu) : (s.setLu v).pending = s.pending := rfl
@[simp] theorem setLu_cu (s : State) (v : Lu) : (s.setLu v).cu = s.cu := rfl
@[simp] theorem setLu_zt (s : State) (v : Lu) : (s.setLu v).zt = s.zt := rfl
@[simp] theorem setLu_rs (s : State) (v : Lu) : (s.setLu v).rs = s.rs := rfl
@[simp] theorem setLu_pe (s : State) (v : Lu) : (s.setLu v).pe = s.pe := rfl
@[simp] theorem setLu_sq (s : State) (v : Lu) : (s.setLu v).sq = s.sq := rfl
@[simp] theorem setLu_stk (s : State) (v : Lu) : (s.setLu v).stk = s.stk := rfl
@[simp] theorem setLu_lu (s : State) (v : Lu) : (s.setLu v).lu = v := rfl
@[simp] theorem setLu_lp (s : State) (v : Lu) : (s.setLu v).lp = s.lp := rfl
@[simp] theorem setLu_freeCount (s : State) (v : Lu) : (s.setLu v).freeCount = s.freeCount := rfl

@[simp] theorem setLp_pending (s : State) (v : Lp) : (s.setLp v).pending = s.pending := rfl
@[simp] theorem setLp_cu (s : State) (v : Lp) : (s.setLp v).cu = s.cu := rfl
@[simp] theorem setLp_zt (s : State) (v : Lp) : (s.setLp v).zt = s.zt := rfl
@[simp] theorem setLp_rs (s : State) (v : Lp) : (s.setLp v).rs = s.rs := rfl
@[simp] theorem setLp_pe (s : State) (v : Lp) : (s.setLp v).pe = s.pe := rfl
@[simp] theorem setLp_sq (s : State) (v : Lp) : (s.setLp v).sq = s.sq := rfl
@[simp] theorem setLp_stk (s : State) (v : Lp) : (s.setLp v).stk = s.stk := rfl
@[simp] theorem setLp_lu (s : State) (v : Lp) : (s.setLp v).lu = s.lu := rfl
@[simp] theorem setLp_lp (s : State) (v : Lp) : (s.setLp v).lp = v := rfl
@[simp] theorem setLp_freeCount (s : State) (v : Lp) : (s.setLp v).freeCount = s.freeCount := rfl

@[simp] theorem setPending_pending (s : State) (v : List Instr) : (s.setPending v).pending = v := rfl
@[simp] theorem setPending_cu (s : State) (v : List Instr) : (s.setPending v).cu = s.cu := rfl
@[simp] theorem setPending_zt (s : State) (v : List Instr) : (s.setPending v).zt = s.zt := rfl
@[simp] theorem setPending_rs (s : State) (v : List Instr) : (s.setPending v).rs = s.rs := rfl
@[simp] theorem setPending_pe (s : State) (v : List Instr) : (s.setPending v).pe = s.pe := rfl
@[simp] theorem setPending_sq (s : State) (v : List Instr) : (s.setPending v).sq = s.sq := rfl
@[simp] theorem setPending_stk (s : State) (v : List Instr) : (s.setPending v).stk = s.stk := rfl
@[simp] theorem setPending_lu (s : State) (v : List Instr) : (s.setPending v).lu = s.lu := rfl
@[simp] theorem setPending_lp (s : State) (v : List Instr) : (s.setPending v).lp = s.lp := rfl
@[simp] theorem setPending_freeCount (s : State) (v : List Instr) : (s.setPending v).freeCount = s.freeCount := rfl

@[simp] theorem drawn_pending (s : State) : s.drawn.pending = s.pending := rfl
@[simp] theorem drawn_cu (s : State) : s.drawn.cu = s.cu := rfl
@[simp] theorem drawn_zt (s : State) : s.drawn.zt = s.zt := rfl
@[simp] theorem drawn_rs (s : State) : s.drawn.rs = s.rs := rfl
@[simp] theorem drawn_pe (s : State) : s.drawn.pe = s.pe := rfl
@[simp] theorem drawn_sq (s : State) : s.drawn.sq = s.sq := rfl
@[simp] theorem drawn_stk (s : State) : s.drawn.stk = s.stk := rfl
@[simp] theorem drawn_lu (s : State) : s.drawn.lu = s.lu := rfl
@[simp] theorem drawn_lp (s : State) : s.drawn.lp = s.lp := rfl
@[simp] theorem drawn_freeCount (s : State) : s.drawn.freeCount = s.freeCount + 1 := rfl

end State

end Sys2Proof.Machine
end

