-- ==== Sys2Proof/Laws/Frames.lean ====
section
/-! SUPPORT. The frame of each shared operation: the fields that it leaves as they stand. -/

namespace Sys2Proof.Machine

namespace State

/-- The present instant is cell time (R9). -/
@[simp] theorem now_eq (s : State) : s.now = s.cu.cellTime := rfl

@[simp] theorem arrive_pending (s : State) (w : Port) : (s.arrive w).pending = s.pending := by
  unfold State.arrive; (repeat' split) <;> simp
@[simp] theorem arrive_cu (s : State) (w : Port) : (s.arrive w).cu = s.cu := by
  unfold State.arrive; (repeat' split) <;> simp
@[simp] theorem arrive_zt (s : State) (w : Port) : (s.arrive w).zt = s.zt := by
  unfold State.arrive; (repeat' split) <;> simp
@[simp] theorem arrive_rs (s : State) (w : Port) : (s.arrive w).rs = s.rs := by
  unfold State.arrive; (repeat' split) <;> simp
@[simp] theorem arrive_pe (s : State) (w : Port) : (s.arrive w).pe = s.pe := by
  unfold State.arrive; (repeat' split) <;> simp
@[simp] theorem arrive_sq (s : State) (w : Port) : (s.arrive w).sq = s.sq := by
  unfold State.arrive; (repeat' split) <;> simp
@[simp] theorem arrive_stk (s : State) (w : Port) : (s.arrive w).stk = s.stk := by
  unfold State.arrive; (repeat' split) <;> simp
@[simp] theorem arrive_lu (s : State) (w : Port) : (s.arrive w).lu = s.lu := by
  unfold State.arrive; (repeat' split) <;> simp
@[simp] theorem arrive_freeCount (s : State) (w : Port) : (s.arrive w).freeCount = s.freeCount := by
  unfold State.arrive; (repeat' split) <;> simp

@[simp] theorem answer_pending (s : State) (tag : Byte) (a : Answer) : (s.answer tag a).pending = s.pending := by
  unfold State.answer; (repeat' split) <;> simp
@[simp] theorem answer_cu (s : State) (tag : Byte) (a : Answer) : (s.answer tag a).cu = s.cu := by
  unfold State.answer; (repeat' split) <;> simp
@[simp] theorem answer_zt (s : State) (tag : Byte) (a : Answer) : (s.answer tag a).zt = s.zt := by
  unfold State.answer; (repeat' split) <;> simp
@[simp] theorem answer_rs (s : State) (tag : Byte) (a : Answer) : (s.answer tag a).rs = s.rs := by
  unfold State.answer; (repeat' split) <;> simp
@[simp] theorem answer_pe (s : State) (tag : Byte) (a : Answer) : (s.answer tag a).pe = s.pe := by
  unfold State.answer; (repeat' split) <;> simp
@[simp] theorem answer_sq (s : State) (tag : Byte) (a : Answer) : (s.answer tag a).sq = s.sq := by
  unfold State.answer; (repeat' split) <;> simp
@[simp] theorem answer_stk (s : State) (tag : Byte) (a : Answer) : (s.answer tag a).stk = s.stk := by
  unfold State.answer; (repeat' split) <;> simp
@[simp] theorem answer_lu (s : State) (tag : Byte) (a : Answer) : (s.answer tag a).lu = s.lu := by
  unfold State.answer; (repeat' split) <;> simp
@[simp] theorem answer_freeCount (s : State) (tag : Byte) (a : Answer) : (s.answer tag a).freeCount = s.freeCount := by
  unfold State.answer; (repeat' split) <;> simp

@[simp] theorem announce_pending (s : State) : (s.announce).pending = s.pending := by
  unfold State.announce; (repeat' split) <;> simp
@[simp] theorem announce_cu (s : State) : (s.announce).cu = s.cu := by
  unfold State.announce; (repeat' split) <;> simp
@[simp] theorem announce_zt (s : State) : (s.announce).zt = s.zt := by
  unfold State.announce; (repeat' split) <;> simp
@[simp] theorem announce_rs (s : State) : (s.announce).rs = s.rs := by
  unfold State.announce; (repeat' split) <;> simp
@[simp] theorem announce_pe (s : State) : (s.announce).pe = s.pe := by
  unfold State.announce; (repeat' split) <;> simp
@[simp] theorem announce_sq (s : State) : (s.announce).sq = s.sq := by
  unfold State.announce; (repeat' split) <;> simp
@[simp] theorem announce_stk (s : State) : (s.announce).stk = s.stk := by
  unfold State.announce; (repeat' split) <;> simp
@[simp] theorem announce_lu (s : State) : (s.announce).lu = s.lu := by
  unfold State.announce; (repeat' split) <;> simp
@[simp] theorem announce_freeCount (s : State) : (s.announce).freeCount = s.freeCount := by
  unfold State.announce; (repeat' split) <;> simp

@[simp] theorem clearIndications_pending (s : State) : (s.clearIndications).pending = s.pending := by
  unfold State.clearIndications; (repeat' split) <;> simp
@[simp] theorem clearIndications_cu (s : State) : (s.clearIndications).cu = s.cu := by
  unfold State.clearIndications; (repeat' split) <;> simp
@[simp] theorem clearIndications_zt (s : State) : (s.clearIndications).zt = s.zt := by
  unfold State.clearIndications; (repeat' split) <;> simp
@[simp] theorem clearIndications_rs (s : State) : (s.clearIndications).rs = s.rs := by
  unfold State.clearIndications; (repeat' split) <;> simp
@[simp] theorem clearIndications_pe (s : State) : (s.clearIndications).pe = s.pe := by
  unfold State.clearIndications; (repeat' split) <;> simp
@[simp] theorem clearIndications_sq (s : State) : (s.clearIndications).sq = s.sq := by
  unfold State.clearIndications; (repeat' split) <;> simp
@[simp] theorem clearIndications_stk (s : State) : (s.clearIndications).stk = s.stk := by
  unfold State.clearIndications; (repeat' split) <;> simp
@[simp] theorem clearIndications_lu (s : State) : (s.clearIndications).lu = s.lu := by
  unfold State.clearIndications; (repeat' split) <;> simp
@[simp] theorem clearIndications_freeCount (s : State) : (s.clearIndications).freeCount = s.freeCount := by
  unfold State.clearIndications; (repeat' split) <;> simp

@[simp] theorem rejudgeQuench_pending (s : State) : (s.rejudgeQuench).pending = s.pending := by
  unfold State.rejudgeQuench; (repeat' split) <;> simp
@[simp] theorem rejudgeQuench_cu (s : State) : (s.rejudgeQuench).cu = s.cu := by
  unfold State.rejudgeQuench; (repeat' split) <;> simp
@[simp] theorem rejudgeQuench_zt (s : State) : (s.rejudgeQuench).zt = s.zt := by
  unfold State.rejudgeQuench; (repeat' split) <;> simp
@[simp] theorem rejudgeQuench_rs (s : State) : (s.rejudgeQuench).rs = s.rs := by
  unfold State.rejudgeQuench; (repeat' split) <;> simp
@[simp] theorem rejudgeQuench_pe (s : State) : (s.rejudgeQuench).pe = s.pe := by
  unfold State.rejudgeQuench; (repeat' split) <;> simp
@[simp] theorem rejudgeQuench_sq (s : State) : (s.rejudgeQuench).sq = s.sq := by
  unfold State.rejudgeQuench; (repeat' split) <;> simp
@[simp] theorem rejudgeQuench_stk (s : State) : (s.rejudgeQuench).stk = s.stk := by
  unfold State.rejudgeQuench; (repeat' split) <;> simp
@[simp] theorem rejudgeQuench_lu (s : State) : (s.rejudgeQuench).lu = s.lu := by
  unfold State.rejudgeQuench; (repeat' split) <;> simp
@[simp] theorem rejudgeQuench_freeCount (s : State) : (s.rejudgeQuench).freeCount = s.freeCount := by
  unfold State.rejudgeQuench; (repeat' split) <;> simp

@[simp] theorem stopDryWatch_pending (s : State) : (s.stopDryWatch).pending = s.pending := by
  unfold State.stopDryWatch; (repeat' split) <;> simp
@[simp] theorem stopDryWatch_cu (s : State) : (s.stopDryWatch).cu = s.cu := by
  unfold State.stopDryWatch; (repeat' split) <;> simp
@[simp] theorem stopDryWatch_zt (s : State) : (s.stopDryWatch).zt = s.zt := by
  unfold State.stopDryWatch; (repeat' split) <;> simp
@[simp] theorem stopDryWatch_rs (s : State) : (s.stopDryWatch).rs = s.rs := by
  unfold State.stopDryWatch; (repeat' split) <;> simp
@[simp] theorem stopDryWatch_pe (s : State) : (s.stopDryWatch).pe = s.pe := by
  unfold State.stopDryWatch; (repeat' split) <;> simp
@[simp] theorem stopDryWatch_stk (s : State) : (s.stopDryWatch).stk = s.stk := by
  unfold State.stopDryWatch; (repeat' split) <;> simp
@[simp] theorem stopDryWatch_lu (s : State) : (s.stopDryWatch).lu = s.lu := by
  unfold State.stopDryWatch; (repeat' split) <;> simp
@[simp] theorem stopDryWatch_lp (s : State) : (s.stopDryWatch).lp = s.lp := by
  unfold State.stopDryWatch; (repeat' split) <;> simp
@[simp] theorem stopDryWatch_freeCount (s : State) : (s.stopDryWatch).freeCount = s.freeCount := by
  unfold State.stopDryWatch; (repeat' split) <;> simp

@[simp] theorem noticeLimited_pending (s : State) : (s.noticeLimited).pending = s.pending := by
  unfold State.noticeLimited; (repeat' split) <;> simp
@[simp] theorem noticeLimited_cu (s : State) : (s.noticeLimited).cu = s.cu := by
  unfold State.noticeLimited; (repeat' split) <;> simp
@[simp] theorem noticeLimited_zt (s : State) : (s.noticeLimited).zt = s.zt := by
  unfold State.noticeLimited; (repeat' split) <;> simp
@[simp] theorem noticeLimited_rs (s : State) : (s.noticeLimited).rs = s.rs := by
  unfold State.noticeLimited; (repeat' split) <;> simp
@[simp] theorem noticeLimited_pe (s : State) : (s.noticeLimited).pe = s.pe := by
  unfold State.noticeLimited; (repeat' split) <;> simp
@[simp] theorem noticeLimited_sq (s : State) : (s.noticeLimited).sq = s.sq := by
  unfold State.noticeLimited; (repeat' split) <;> simp
@[simp] theorem noticeLimited_lu (s : State) : (s.noticeLimited).lu = s.lu := by
  unfold State.noticeLimited; (repeat' split) <;> simp
@[simp] theorem noticeLimited_lp (s : State) : (s.noticeLimited).lp = s.lp := by
  unfold State.noticeLimited; (repeat' split) <;> simp
@[simp] theorem noticeLimited_freeCount (s : State) : (s.noticeLimited).freeCount = s.freeCount := by
  unfold State.noticeLimited; (repeat' split) <;> simp

@[simp] theorem sendUpdate_pending (s : State) : (s.sendUpdate).pending = s.pending := by
  unfold State.sendUpdate; (repeat' split) <;> simp
@[simp] theorem sendUpdate_cu (s : State) : (s.sendUpdate).cu = s.cu := by
  unfold State.sendUpdate; (repeat' split) <;> simp
@[simp] theorem sendUpdate_zt (s : State) : (s.sendUpdate).zt = s.zt := by
  unfold State.sendUpdate; (repeat' split) <;> simp
@[simp] theorem sendUpdate_rs (s : State) : (s.sendUpdate).rs = s.rs := by
  unfold State.sendUpdate; (repeat' split) <;> simp
@[simp] theorem sendUpdate_pe (s : State) : (s.sendUpdate).pe = s.pe := by
  unfold State.sendUpdate; (repeat' split) <;> simp
@[simp] theorem sendUpdate_sq (s : State) : (s.sendUpdate).sq = s.sq := by
  unfold State.sendUpdate; (repeat' split) <;> simp
@[simp] theorem sendUpdate_stk (s : State) : (s.sendUpdate).stk = s.stk := by
  unfold State.sendUpdate; (repeat' split) <;> simp
@[simp] theorem sendUpdate_lu (s : State) : (s.sendUpdate).lu = s.lu := by
  unfold State.sendUpdate; (repeat' split) <;> simp
@[simp] theorem sendUpdate_freeCount (s : State) : (s.sendUpdate).freeCount = s.freeCount := by
  unfold State.sendUpdate; (repeat' split) <;> simp

@[simp] theorem handUpdate_pending (s : State) : (s.handUpdate).pending = s.pending := by
  unfold State.handUpdate; (repeat' split) <;> simp
@[simp] theorem handUpdate_cu (s : State) : (s.handUpdate).cu = s.cu := by
  unfold State.handUpdate; (repeat' split) <;> simp
@[simp] theorem handUpdate_zt (s : State) : (s.handUpdate).zt = s.zt := by
  unfold State.handUpdate; (repeat' split) <;> simp
@[simp] theorem handUpdate_rs (s : State) : (s.handUpdate).rs = s.rs := by
  unfold State.handUpdate; (repeat' split) <;> simp
@[simp] theorem handUpdate_pe (s : State) : (s.handUpdate).pe = s.pe := by
  unfold State.handUpdate; (repeat' split) <;> simp
@[simp] theorem handUpdate_lu (s : State) : (s.handUpdate).lu = s.lu := by
  unfold State.handUpdate; (repeat' split) <;> simp
@[simp] theorem handUpdate_freeCount (s : State) : (s.handUpdate).freeCount = s.freeCount := by
  unfold State.handUpdate; (repeat' split) <;> simp

@[simp] theorem updateCore_pending (s : State) : (s.updateCore).pending = s.pending := by
  unfold State.updateCore; (repeat' split) <;> simp
@[simp] theorem updateCore_cu (s : State) : (s.updateCore).cu = s.cu := by
  unfold State.updateCore; (repeat' split) <;> simp
@[simp] theorem updateCore_zt (s : State) : (s.updateCore).zt = s.zt := by
  unfold State.updateCore; (repeat' split) <;> simp
@[simp] theorem updateCore_rs (s : State) : (s.updateCore).rs = s.rs := by
  unfold State.updateCore; (repeat' split) <;> simp
@[simp] theorem updateCore_lu (s : State) : (s.updateCore).lu = s.lu := by
  unfold State.updateCore; (repeat' split) <;> simp
@[simp] theorem updateCore_freeCount (s : State) : (s.updateCore).freeCount = s.freeCount := by
  unfold State.updateCore; (repeat' split) <;> simp

@[simp] theorem enter_pending (s : State) (st : SeqState) (r : Option FaultRecord) : (s.enter st r).pending = s.pending := by
  unfold State.enter; (repeat' split) <;> simp
@[simp] theorem enter_cu (s : State) (st : SeqState) (r : Option FaultRecord) : (s.enter st r).cu = s.cu := by
  unfold State.enter; (repeat' split) <;> simp
@[simp] theorem enter_zt (s : State) (st : SeqState) (r : Option FaultRecord) : (s.enter st r).zt = s.zt := by
  unfold State.enter; (repeat' split) <;> simp
@[simp] theorem enter_rs (s : State) (st : SeqState) (r : Option FaultRecord) : (s.enter st r).rs = s.rs := by
  unfold State.enter; (repeat' split) <;> simp
@[simp] theorem enter_pe (s : State) (st : SeqState) (r : Option FaultRecord) : (s.enter st r).pe = s.pe := by
  unfold State.enter; (repeat' split) <;> simp
@[simp] theorem enter_stk (s : State) (st : SeqState) (r : Option FaultRecord) : (s.enter st r).stk = s.stk := by
  unfold State.enter; (repeat' split) <;> simp
@[simp] theorem enter_lp (s : State) (st : SeqState) (r : Option FaultRecord) : (s.enter st r).lp = s.lp := by
  unfold State.enter; (repeat' split) <;> simp
@[simp] theorem enter_freeCount (s : State) (st : SeqState) (r : Option FaultRecord) : (s.enter st r).freeCount = s.freeCount := by
  unfold State.enter; (repeat' split) <;> simp

@[simp] theorem handOn_pending (s : State) : (s.handOn).pending = s.pending := by
  unfold State.handOn; (repeat' split) <;> simp
@[simp] theorem handOn_cu (s : State) : (s.handOn).cu = s.cu := by
  unfold State.handOn; (repeat' split) <;> simp
@[simp] theorem handOn_zt (s : State) : (s.handOn).zt = s.zt := by
  unfold State.handOn; (repeat' split) <;> simp
@[simp] theorem handOn_rs (s : State) : (s.handOn).rs = s.rs := by
  unfold State.handOn; (repeat' split) <;> simp
@[simp] theorem handOn_lu (s : State) : (s.handOn).lu = s.lu := by
  unfold State.handOn; (repeat' split) <;> simp
@[simp] theorem handOn_freeCount (s : State) : (s.handOn).freeCount = s.freeCount := by
  unfold State.handOn; (repeat' split) <;> simp

@[simp] theorem change_pending (s : State) (st : SeqState) : (s.change st).pending = s.pending := by
  unfold State.change; (repeat' split) <;> simp
@[simp] theorem change_cu (s : State) (st : SeqState) : (s.change st).cu = s.cu := by
  unfold State.change; (repeat' split) <;> simp
@[simp] theorem change_zt (s : State) (st : SeqState) : (s.change st).zt = s.zt := by
  unfold State.change; (repeat' split) <;> simp
@[simp] theorem change_rs (s : State) (st : SeqState) : (s.change st).rs = s.rs := by
  unfold State.change; (repeat' split) <;> simp
@[simp] theorem change_freeCount (s : State) (st : SeqState) : (s.change st).freeCount = s.freeCount := by
  unfold State.change; (repeat' split) <;> simp

@[simp] theorem setPhase_pending (s : State) (st : SeqState) : (s.setPhase st).pending = s.pending := by
  unfold State.setPhase; (repeat' split) <;> simp
@[simp] theorem setPhase_cu (s : State) (st : SeqState) : (s.setPhase st).cu = s.cu := by
  unfold State.setPhase; (repeat' split) <;> simp
@[simp] theorem setPhase_zt (s : State) (st : SeqState) : (s.setPhase st).zt = s.zt := by
  unfold State.setPhase; (repeat' split) <;> simp
@[simp] theorem setPhase_rs (s : State) (st : SeqState) : (s.setPhase st).rs = s.rs := by
  unfold State.setPhase; (repeat' split) <;> simp
@[simp] theorem setPhase_pe (s : State) (st : SeqState) : (s.setPhase st).pe = s.pe := by
  unfold State.setPhase; (repeat' split) <;> simp
@[simp] theorem setPhase_stk (s : State) (st : SeqState) : (s.setPhase st).stk = s.stk := by
  unfold State.setPhase; (repeat' split) <;> simp
@[simp] theorem setPhase_lu (s : State) (st : SeqState) : (s.setPhase st).lu = s.lu := by
  unfold State.setPhase; (repeat' split) <;> simp
@[simp] theorem setPhase_lp (s : State) (st : SeqState) : (s.setPhase st).lp = s.lp := by
  unfold State.setPhase; (repeat' split) <;> simp
@[simp] theorem setPhase_freeCount (s : State) (st : SeqState) : (s.setPhase st).freeCount = s.freeCount := by
  unfold State.setPhase; (repeat' split) <;> simp

@[simp] theorem startFlood_pending (s : State) : (s.startFlood).pending = s.pending := by
  unfold State.startFlood; (repeat' split) <;> simp
@[simp] theorem startFlood_cu (s : State) : (s.startFlood).cu = s.cu := by
  unfold State.startFlood; (repeat' split) <;> simp
@[simp] theorem startFlood_zt (s : State) : (s.startFlood).zt = s.zt := by
  unfold State.startFlood; (repeat' split) <;> simp
@[simp] theorem startFlood_rs (s : State) : (s.startFlood).rs = s.rs := by
  unfold State.startFlood; (repeat' split) <;> simp
@[simp] theorem startFlood_pe (s : State) : (s.startFlood).pe = s.pe := by
  unfold State.startFlood; (repeat' split) <;> simp
@[simp] theorem startFlood_lu (s : State) : (s.startFlood).lu = s.lu := by
  unfold State.startFlood; (repeat' split) <;> simp
@[simp] theorem startFlood_lp (s : State) : (s.startFlood).lp = s.lp := by
  unfold State.startFlood; (repeat' split) <;> simp
@[simp] theorem startFlood_freeCount (s : State) : (s.startFlood).freeCount = s.freeCount := by
  unfold State.startFlood; (repeat' split) <;> simp

@[simp] theorem dropScan_pending (s : State) : (s.dropScan).pending = s.pending := by
  unfold State.dropScan; (repeat' split) <;> simp
@[simp] theorem dropScan_cu (s : State) : (s.dropScan).cu = s.cu := by
  unfold State.dropScan; (repeat' split) <;> simp
@[simp] theorem dropScan_zt (s : State) : (s.dropScan).zt = s.zt := by
  unfold State.dropScan; (repeat' split) <;> simp
@[simp] theorem dropScan_rs (s : State) : (s.dropScan).rs = s.rs := by
  unfold State.dropScan; (repeat' split) <;> simp
@[simp] theorem dropScan_pe (s : State) : (s.dropScan).pe = s.pe := by
  unfold State.dropScan; (repeat' split) <;> simp
@[simp] theorem dropScan_stk (s : State) : (s.dropScan).stk = s.stk := by
  unfold State.dropScan; (repeat' split) <;> simp
@[simp] theorem dropScan_lu (s : State) : (s.dropScan).lu = s.lu := by
  unfold State.dropScan; (repeat' split) <;> simp
@[simp] theorem dropScan_lp (s : State) : (s.dropScan).lp = s.lp := by
  unfold State.dropScan; (repeat' split) <;> simp
@[simp] theorem dropScan_freeCount (s : State) : (s.dropScan).freeCount = s.freeCount := by
  unfold State.dropScan; (repeat' split) <;> simp

@[simp] theorem floodIf_pending (s : State) (b : Bool) : (s.floodIf b).pending = s.pending := by
  unfold State.floodIf; (repeat' split) <;> simp
@[simp] theorem floodIf_cu (s : State) (b : Bool) : (s.floodIf b).cu = s.cu := by
  unfold State.floodIf; (repeat' split) <;> simp
@[simp] theorem floodIf_zt (s : State) (b : Bool) : (s.floodIf b).zt = s.zt := by
  unfold State.floodIf; (repeat' split) <;> simp
@[simp] theorem floodIf_rs (s : State) (b : Bool) : (s.floodIf b).rs = s.rs := by
  unfold State.floodIf; (repeat' split) <;> simp
@[simp] theorem floodIf_pe (s : State) (b : Bool) : (s.floodIf b).pe = s.pe := by
  unfold State.floodIf; (repeat' split) <;> simp
@[simp] theorem floodIf_lu (s : State) (b : Bool) : (s.floodIf b).lu = s.lu := by
  unfold State.floodIf; (repeat' split) <;> simp
@[simp] theorem floodIf_lp (s : State) (b : Bool) : (s.floodIf b).lp = s.lp := by
  unfold State.floodIf; (repeat' split) <;> simp
@[simp] theorem floodIf_freeCount (s : State) (b : Bool) : (s.floodIf b).freeCount = s.freeCount := by
  unfold State.floodIf; (repeat' split) <;> simp

@[simp] theorem enterFault_pending (s : State) (code : FaultCode) (src : FaultSource) : (s.enterFault code src).pending = s.pending := by
  unfold State.enterFault; (repeat' split) <;> simp
@[simp] theorem enterFault_cu (s : State) (code : FaultCode) (src : FaultSource) : (s.enterFault code src).cu = s.cu := by
  unfold State.enterFault; (repeat' split) <;> simp
@[simp] theorem enterFault_zt (s : State) (code : FaultCode) (src : FaultSource) : (s.enterFault code src).zt = s.zt := by
  unfold State.enterFault; (repeat' split) <;> simp
@[simp] theorem enterFault_rs (s : State) (code : FaultCode) (src : FaultSource) : (s.enterFault code src).rs = s.rs := by
  unfold State.enterFault; (repeat' split) <;> simp
@[simp] theorem enterFault_freeCount (s : State) (code : FaultCode) (src : FaultSource) : (s.enterFault code src).freeCount = s.freeCount := by
  unfold State.enterFault; (repeat' split) <;> simp

@[simp] theorem secondaryFault_pending (s : State) (code : FaultCode) (src : FaultSource) : (s.secondaryFault code src).pending = s.pending := by
  unfold State.secondaryFault; (repeat' split) <;> simp
@[simp] theorem secondaryFault_cu (s : State) (code : FaultCode) (src : FaultSource) : (s.secondaryFault code src).cu = s.cu := by
  unfold State.secondaryFault; (repeat' split) <;> simp
@[simp] theorem secondaryFault_zt (s : State) (code : FaultCode) (src : FaultSource) : (s.secondaryFault code src).zt = s.zt := by
  unfold State.secondaryFault; (repeat' split) <;> simp
@[simp] theorem secondaryFault_rs (s : State) (code : FaultCode) (src : FaultSource) : (s.secondaryFault code src).rs = s.rs := by
  unfold State.secondaryFault; (repeat' split) <;> simp
@[simp] theorem secondaryFault_pe (s : State) (code : FaultCode) (src : FaultSource) : (s.secondaryFault code src).pe = s.pe := by
  unfold State.secondaryFault; (repeat' split) <;> simp
@[simp] theorem secondaryFault_stk (s : State) (code : FaultCode) (src : FaultSource) : (s.secondaryFault code src).stk = s.stk := by
  unfold State.secondaryFault; (repeat' split) <;> simp
@[simp] theorem secondaryFault_lu (s : State) (code : FaultCode) (src : FaultSource) : (s.secondaryFault code src).lu = s.lu := by
  unfold State.secondaryFault; (repeat' split) <;> simp
@[simp] theorem secondaryFault_lp (s : State) (code : FaultCode) (src : FaultSource) : (s.secondaryFault code src).lp = s.lp := by
  unfold State.secondaryFault; (repeat' split) <;> simp
@[simp] theorem secondaryFault_freeCount (s : State) (code : FaultCode) (src : FaultSource) : (s.secondaryFault code src).freeCount = s.freeCount := by
  unfold State.secondaryFault; (repeat' split) <;> simp

@[simp] theorem reportFault_pending (s : State) (code : FaultCode) (src : FaultSource) : (s.reportFault code src).pending = s.pending := by
  unfold State.reportFault; (repeat' split) <;> simp
@[simp] theorem reportFault_cu (s : State) (code : FaultCode) (src : FaultSource) : (s.reportFault code src).cu = s.cu := by
  unfold State.reportFault; (repeat' split) <;> simp
@[simp] theorem reportFault_zt (s : State) (code : FaultCode) (src : FaultSource) : (s.reportFault code src).zt = s.zt := by
  unfold State.reportFault; (repeat' split) <;> simp
@[simp] theorem reportFault_rs (s : State) (code : FaultCode) (src : FaultSource) : (s.reportFault code src).rs = s.rs := by
  unfold State.reportFault; (repeat' split) <;> simp
@[simp] theorem reportFault_freeCount (s : State) (code : FaultCode) (src : FaultSource) : (s.reportFault code src).freeCount = s.freeCount := by
  unfold State.reportFault; (repeat' split) <;> simp

@[simp] theorem travelCheck_pending (s : State) (b : Bool) : (s.travelCheck b).pending = s.pending := by
  unfold State.travelCheck; (repeat' split) <;> simp
@[simp] theorem travelCheck_cu (s : State) (b : Bool) : (s.travelCheck b).cu = s.cu := by
  unfold State.travelCheck; (repeat' split) <;> simp
@[simp] theorem travelCheck_zt (s : State) (b : Bool) : (s.travelCheck b).zt = s.zt := by
  unfold State.travelCheck; (repeat' split) <;> simp
@[simp] theorem travelCheck_rs (s : State) (b : Bool) : (s.travelCheck b).rs = s.rs := by
  unfold State.travelCheck; (repeat' split) <;> simp
@[simp] theorem travelCheck_freeCount (s : State) (b : Bool) : (s.travelCheck b).freeCount = s.freeCount := by
  unfold State.travelCheck; (repeat' split) <;> simp

@[simp] theorem reversalCheck_pending (s : State) : (s.reversalCheck).pending = s.pending := by
  unfold State.reversalCheck; (repeat' split) <;> simp
@[simp] theorem reversalCheck_cu (s : State) : (s.reversalCheck).cu = s.cu := by
  unfold State.reversalCheck; (repeat' split) <;> simp
@[simp] theorem reversalCheck_zt (s : State) : (s.reversalCheck).zt = s.zt := by
  unfold State.reversalCheck; (repeat' split) <;> simp
@[simp] theorem reversalCheck_rs (s : State) : (s.reversalCheck).rs = s.rs := by
  unfold State.reversalCheck; (repeat' split) <;> simp
@[simp] theorem reversalCheck_freeCount (s : State) : (s.reversalCheck).freeCount = s.freeCount := by
  unfold State.reversalCheck; (repeat' split) <;> simp

@[simp] theorem startPostTimer_pending (s : State) : (s.startPostTimer).pending = s.pending := by
  unfold State.startPostTimer; (repeat' split) <;> simp
@[simp] theorem startPostTimer_cu (s : State) : (s.startPostTimer).cu = s.cu := by
  unfold State.startPostTimer; (repeat' split) <;> simp
@[simp] theorem startPostTimer_zt (s : State) : (s.startPostTimer).zt = s.zt := by
  unfold State.startPostTimer; (repeat' split) <;> simp
@[simp] theorem startPostTimer_rs (s : State) : (s.startPostTimer).rs = s.rs := by
  unfold State.startPostTimer; (repeat' split) <;> simp
@[simp] theorem startPostTimer_pe (s : State) : (s.startPostTimer).pe = s.pe := by
  unfold State.startPostTimer; (repeat' split) <;> simp
@[simp] theorem startPostTimer_stk (s : State) : (s.startPostTimer).stk = s.stk := by
  unfold State.startPostTimer; (repeat' split) <;> simp
@[simp] theorem startPostTimer_lu (s : State) : (s.startPostTimer).lu = s.lu := by
  unfold State.startPostTimer; (repeat' split) <;> simp
@[simp] theorem startPostTimer_lp (s : State) : (s.startPostTimer).lp = s.lp := by
  unfold State.startPostTimer; (repeat' split) <;> simp
@[simp] theorem startPostTimer_freeCount (s : State) : (s.startPostTimer).freeCount = s.freeCount := by
  unfold State.startPostTimer; (repeat' split) <;> simp

@[simp] theorem startPostQuench_pending (s : State) (st : SeqState) : (s.startPostQuench st).pending = s.pending := by
  unfold State.startPostQuench; (repeat' split) <;> simp
@[simp] theorem startPostQuench_cu (s : State) (st : SeqState) : (s.startPostQuench st).cu = s.cu := by
  unfold State.startPostQuench; (repeat' split) <;> simp
@[simp] theorem startPostQuench_zt (s : State) (st : SeqState) : (s.startPostQuench st).zt = s.zt := by
  unfold State.startPostQuench; (repeat' split) <;> simp
@[simp] theorem startPostQuench_rs (s : State) (st : SeqState) : (s.startPostQuench st).rs = s.rs := by
  unfold State.startPostQuench; (repeat' split) <;> simp
@[simp] theorem startPostQuench_freeCount (s : State) (st : SeqState) : (s.startPostQuench st).freeCount = s.freeCount := by
  unfold State.startPostQuench; (repeat' split) <;> simp
@[simp] theorem startPostQuench_lu (s : State) (st : SeqState) : (s.startPostQuench st).lu = s.lu := by
  unfold State.startPostQuench; (repeat' split) <;> simp

@[simp] theorem judgePostQuench_pending (s : State) : (s.judgePostQuench).pending = s.pending := by
  unfold State.judgePostQuench; (repeat' split) <;> simp
@[simp] theorem judgePostQuench_cu (s : State) : (s.judgePostQuench).cu = s.cu := by
  unfold State.judgePostQuench; (repeat' split) <;> simp
@[simp] theorem judgePostQuench_zt (s : State) : (s.judgePostQuench).zt = s.zt := by
  unfold State.judgePostQuench; (repeat' split) <;> simp
@[simp] theorem judgePostQuench_rs (s : State) : (s.judgePostQuench).rs = s.rs := by
  unfold State.judgePostQuench; (repeat' split) <;> simp
@[simp] theorem judgePostQuench_freeCount (s : State) : (s.judgePostQuench).freeCount = s.freeCount := by
  unfold State.judgePostQuench; (repeat' split) <;> simp
@[simp] theorem judgePostQuench_lu (s : State) : (s.judgePostQuench).lu = s.lu := by
  unfold State.judgePostQuench; (repeat' split) <;> simp

@[simp] theorem startDwellTimer_pending (s : State) : (s.startDwellTimer).pending = s.pending := by
  unfold State.startDwellTimer; (repeat' split) <;> simp
@[simp] theorem startDwellTimer_cu (s : State) : (s.startDwellTimer).cu = s.cu := by
  unfold State.startDwellTimer; (repeat' split) <;> simp
@[simp] theorem startDwellTimer_zt (s : State) : (s.startDwellTimer).zt = s.zt := by
  unfold State.startDwellTimer; (repeat' split) <;> simp
@[simp] theorem startDwellTimer_rs (s : State) : (s.startDwellTimer).rs = s.rs := by
  unfold State.startDwellTimer; (repeat' split) <;> simp
@[simp] theorem startDwellTimer_pe (s : State) : (s.startDwellTimer).pe = s.pe := by
  unfold State.startDwellTimer; (repeat' split) <;> simp
@[simp] theorem startDwellTimer_stk (s : State) : (s.startDwellTimer).stk = s.stk := by
  unfold State.startDwellTimer; (repeat' split) <;> simp
@[simp] theorem startDwellTimer_lu (s : State) : (s.startDwellTimer).lu = s.lu := by
  unfold State.startDwellTimer; (repeat' split) <;> simp
@[simp] theorem startDwellTimer_lp (s : State) : (s.startDwellTimer).lp = s.lp := by
  unfold State.startDwellTimer; (repeat' split) <;> simp
@[simp] theorem startDwellTimer_freeCount (s : State) : (s.startDwellTimer).freeCount = s.freeCount := by
  unfold State.startDwellTimer; (repeat' split) <;> simp

@[simp] theorem settle_pending (s : State) : (s.settle).pending = s.pending := by
  unfold State.settle; (repeat' split) <;> simp
@[simp] theorem settle_cu (s : State) : (s.settle).cu = s.cu := by
  unfold State.settle; (repeat' split) <;> simp
@[simp] theorem settle_zt (s : State) : (s.settle).zt = s.zt := by
  unfold State.settle; (repeat' split) <;> simp
@[simp] theorem settle_rs (s : State) : (s.settle).rs = s.rs := by
  unfold State.settle; (repeat' split) <;> simp
@[simp] theorem settle_pe (s : State) : (s.settle).pe = s.pe := by
  unfold State.settle; (repeat' split) <;> simp
@[simp] theorem settle_stk (s : State) : (s.settle).stk = s.stk := by
  unfold State.settle; (repeat' split) <;> simp
@[simp] theorem settle_lu (s : State) : (s.settle).lu = s.lu := by
  unfold State.settle; (repeat' split) <;> simp
@[simp] theorem settle_lp (s : State) : (s.settle).lp = s.lp := by
  unfold State.settle; (repeat' split) <;> simp
@[simp] theorem settle_freeCount (s : State) : (s.settle).freeCount = s.freeCount := by
  unfold State.settle; (repeat' split) <;> simp

@[simp] theorem noticeDwell_pending (s : State) (z : Nat) : (s.noticeDwell z).pending = s.pending := by
  unfold State.noticeDwell; (repeat' split) <;> simp
@[simp] theorem noticeDwell_cu (s : State) (z : Nat) : (s.noticeDwell z).cu = s.cu := by
  unfold State.noticeDwell; (repeat' split) <;> simp
@[simp] theorem noticeDwell_zt (s : State) (z : Nat) : (s.noticeDwell z).zt = s.zt := by
  unfold State.noticeDwell; (repeat' split) <;> simp
@[simp] theorem noticeDwell_rs (s : State) (z : Nat) : (s.noticeDwell z).rs = s.rs := by
  unfold State.noticeDwell; (repeat' split) <;> simp
@[simp] theorem noticeDwell_pe (s : State) (z : Nat) : (s.noticeDwell z).pe = s.pe := by
  unfold State.noticeDwell; (repeat' split) <;> simp
@[simp] theorem noticeDwell_sq (s : State) (z : Nat) : (s.noticeDwell z).sq = s.sq := by
  unfold State.noticeDwell; (repeat' split) <;> simp
@[simp] theorem noticeDwell_lu (s : State) (z : Nat) : (s.noticeDwell z).lu = s.lu := by
  unfold State.noticeDwell; (repeat' split) <;> simp
@[simp] theorem noticeDwell_lp (s : State) (z : Nat) : (s.noticeDwell z).lp = s.lp := by
  unfold State.noticeDwell; (repeat' split) <;> simp
@[simp] theorem noticeDwell_freeCount (s : State) (z : Nat) : (s.noticeDwell z).freeCount = s.freeCount := by
  unfold State.noticeDwell; (repeat' split) <;> simp

@[simp] theorem pointDwell_pending (s : State) (z : Nat) : (s.pointDwell z).pending = s.pending := by
  unfold State.pointDwell; (repeat' split) <;> simp
@[simp] theorem pointDwell_cu (s : State) (z : Nat) : (s.pointDwell z).cu = s.cu := by
  unfold State.pointDwell; (repeat' split) <;> simp
@[simp] theorem pointDwell_zt (s : State) (z : Nat) : (s.pointDwell z).zt = s.zt := by
  unfold State.pointDwell; (repeat' split) <;> simp
@[simp] theorem pointDwell_rs (s : State) (z : Nat) : (s.pointDwell z).rs = s.rs := by
  unfold State.pointDwell; (repeat' split) <;> simp
@[simp] theorem pointDwell_pe (s : State) (z : Nat) : (s.pointDwell z).pe = s.pe := by
  unfold State.pointDwell; (repeat' split) <;> simp
@[simp] theorem pointDwell_stk (s : State) (z : Nat) : (s.pointDwell z).stk = s.stk := by
  unfold State.pointDwell; (repeat' split) <;> simp
@[simp] theorem pointDwell_lu (s : State) (z : Nat) : (s.pointDwell z).lu = s.lu := by
  unfold State.pointDwell; (repeat' split) <;> simp
@[simp] theorem pointDwell_lp (s : State) (z : Nat) : (s.pointDwell z).lp = s.lp := by
  unfold State.pointDwell; (repeat' split) <;> simp
@[simp] theorem pointDwell_freeCount (s : State) (z : Nat) : (s.pointDwell z).freeCount = s.freeCount := by
  unfold State.pointDwell; (repeat' split) <;> simp

@[simp] theorem enterDwell_pending (s : State) (z : Nat) : (s.enterDwell z).pending = s.pending := by
  unfold State.enterDwell; (repeat' split) <;> simp
@[simp] theorem enterDwell_cu (s : State) (z : Nat) : (s.enterDwell z).cu = s.cu := by
  unfold State.enterDwell; (repeat' split) <;> simp
@[simp] theorem enterDwell_zt (s : State) (z : Nat) : (s.enterDwell z).zt = s.zt := by
  unfold State.enterDwell; (repeat' split) <;> simp
@[simp] theorem enterDwell_rs (s : State) (z : Nat) : (s.enterDwell z).rs = s.rs := by
  unfold State.enterDwell; (repeat' split) <;> simp
@[simp] theorem enterDwell_freeCount (s : State) (z : Nat) : (s.enterDwell z).freeCount = s.freeCount := by
  unfold State.enterDwell; (repeat' split) <;> simp

@[simp] theorem noticeHeatingEnd_pending (s : State) : (s.noticeHeatingEnd).pending = s.pending := by
  unfold State.noticeHeatingEnd; (repeat' split) <;> simp
@[simp] theorem noticeHeatingEnd_cu (s : State) : (s.noticeHeatingEnd).cu = s.cu := by
  unfold State.noticeHeatingEnd; (repeat' split) <;> simp
@[simp] theorem noticeHeatingEnd_zt (s : State) : (s.noticeHeatingEnd).zt = s.zt := by
  unfold State.noticeHeatingEnd; (repeat' split) <;> simp
@[simp] theorem noticeHeatingEnd_rs (s : State) : (s.noticeHeatingEnd).rs = s.rs := by
  unfold State.noticeHeatingEnd; (repeat' split) <;> simp
@[simp] theorem noticeHeatingEnd_pe (s : State) : (s.noticeHeatingEnd).pe = s.pe := by
  unfold State.noticeHeatingEnd; (repeat' split) <;> simp
@[simp] theorem noticeHeatingEnd_sq (s : State) : (s.noticeHeatingEnd).sq = s.sq := by
  unfold State.noticeHeatingEnd; (repeat' split) <;> simp
@[simp] theorem noticeHeatingEnd_lu (s : State) : (s.noticeHeatingEnd).lu = s.lu := by
  unfold State.noticeHeatingEnd; (repeat' split) <;> simp
@[simp] theorem noticeHeatingEnd_lp (s : State) : (s.noticeHeatingEnd).lp = s.lp := by
  unfold State.noticeHeatingEnd; (repeat' split) <;> simp
@[simp] theorem noticeHeatingEnd_freeCount (s : State) : (s.noticeHeatingEnd).freeCount = s.freeCount := by
  unfold State.noticeHeatingEnd; (repeat' split) <;> simp

@[simp] theorem enterRunout_pending (s : State) : (s.enterRunout).pending = s.pending := by
  unfold State.enterRunout; (repeat' split) <;> simp
@[simp] theorem enterRunout_cu (s : State) : (s.enterRunout).cu = s.cu := by
  unfold State.enterRunout; (repeat' split) <;> simp
@[simp] theorem enterRunout_zt (s : State) : (s.enterRunout).zt = s.zt := by
  unfold State.enterRunout; (repeat' split) <;> simp
@[simp] theorem enterRunout_rs (s : State) : (s.enterRunout).rs = s.rs := by
  unfold State.enterRunout; (repeat' split) <;> simp
@[simp] theorem enterRunout_freeCount (s : State) : (s.enterRunout).freeCount = s.freeCount := by
  unfold State.enterRunout; (repeat' split) <;> simp

@[simp] theorem arrivalChecks_pending (s : State) : (s.arrivalChecks).pending = s.pending := by
  unfold State.arrivalChecks; (repeat' split) <;> simp
@[simp] theorem arrivalChecks_cu (s : State) : (s.arrivalChecks).cu = s.cu := by
  unfold State.arrivalChecks; (repeat' split) <;> simp
@[simp] theorem arrivalChecks_zt (s : State) : (s.arrivalChecks).zt = s.zt := by
  unfold State.arrivalChecks; (repeat' split) <;> simp
@[simp] theorem arrivalChecks_rs (s : State) : (s.arrivalChecks).rs = s.rs := by
  unfold State.arrivalChecks; (repeat' split) <;> simp
@[simp] theorem arrivalChecks_freeCount (s : State) : (s.arrivalChecks).freeCount = s.freeCount := by
  unfold State.arrivalChecks; (repeat' split) <;> simp

@[simp] theorem startWatches_pending (s : State) : (s.startWatches).pending = s.pending := by
  unfold State.startWatches; (repeat' split) <;> simp
@[simp] theorem startWatches_cu (s : State) : (s.startWatches).cu = s.cu := by
  unfold State.startWatches; (repeat' split) <;> simp
@[simp] theorem startWatches_zt (s : State) : (s.startWatches).zt = s.zt := by
  unfold State.startWatches; (repeat' split) <;> simp
@[simp] theorem startWatches_rs (s : State) : (s.startWatches).rs = s.rs := by
  unfold State.startWatches; (repeat' split) <;> simp
@[simp] theorem startWatches_pe (s : State) : (s.startWatches).pe = s.pe := by
  unfold State.startWatches; (repeat' split) <;> simp
@[simp] theorem startWatches_stk (s : State) : (s.startWatches).stk = s.stk := by
  unfold State.startWatches; (repeat' split) <;> simp
@[simp] theorem startWatches_lu (s : State) : (s.startWatches).lu = s.lu := by
  unfold State.startWatches; (repeat' split) <;> simp
@[simp] theorem startWatches_lp (s : State) : (s.startWatches).lp = s.lp := by
  unfold State.startWatches; (repeat' split) <;> simp
@[simp] theorem startWatches_freeCount (s : State) : (s.startWatches).freeCount = s.freeCount := by
  unfold State.startWatches; (repeat' split) <;> simp

@[simp] theorem noticeHeatingStart_pending (s : State) : (s.noticeHeatingStart).pending = s.pending := by
  unfold State.noticeHeatingStart; (repeat' split) <;> simp
@[simp] theorem noticeHeatingStart_cu (s : State) : (s.noticeHeatingStart).cu = s.cu := by
  unfold State.noticeHeatingStart; (repeat' split) <;> simp
@[simp] theorem noticeHeatingStart_zt (s : State) : (s.noticeHeatingStart).zt = s.zt := by
  unfold State.noticeHeatingStart; (repeat' split) <;> simp
@[simp] theorem noticeHeatingStart_rs (s : State) : (s.noticeHeatingStart).rs = s.rs := by
  unfold State.noticeHeatingStart; (repeat' split) <;> simp
@[simp] theorem noticeHeatingStart_pe (s : State) : (s.noticeHeatingStart).pe = s.pe := by
  unfold State.noticeHeatingStart; (repeat' split) <;> simp
@[simp] theorem noticeHeatingStart_sq (s : State) : (s.noticeHeatingStart).sq = s.sq := by
  unfold State.noticeHeatingStart; (repeat' split) <;> simp
@[simp] theorem noticeHeatingStart_lu (s : State) : (s.noticeHeatingStart).lu = s.lu := by
  unfold State.noticeHeatingStart; (repeat' split) <;> simp
@[simp] theorem noticeHeatingStart_lp (s : State) : (s.noticeHeatingStart).lp = s.lp := by
  unfold State.noticeHeatingStart; (repeat' split) <;> simp
@[simp] theorem noticeHeatingStart_freeCount (s : State) : (s.noticeHeatingStart).freeCount = s.freeCount := by
  unfold State.noticeHeatingStart; (repeat' split) <;> simp

@[simp] theorem enterHeating_pending (s : State) : (s.enterHeating).pending = s.pending := by
  unfold State.enterHeating; (repeat' split) <;> simp
@[simp] theorem enterHeating_cu (s : State) : (s.enterHeating).cu = s.cu := by
  unfold State.enterHeating; (repeat' split) <;> simp
@[simp] theorem enterHeating_zt (s : State) : (s.enterHeating).zt = s.zt := by
  unfold State.enterHeating; (repeat' split) <;> simp
@[simp] theorem enterHeating_rs (s : State) : (s.enterHeating).rs = s.rs := by
  unfold State.enterHeating; (repeat' split) <;> simp
@[simp] theorem enterHeating_freeCount (s : State) : (s.enterHeating).freeCount = s.freeCount := by
  unfold State.enterHeating; (repeat' split) <;> simp

@[simp] theorem judgeStart_pending (s : State) (b : Bool) : (s.judgeStart b).pending = s.pending := by
  unfold State.judgeStart; (repeat' split) <;> simp
@[simp] theorem judgeStart_cu (s : State) (b : Bool) : (s.judgeStart b).cu = s.cu := by
  unfold State.judgeStart; (repeat' split) <;> simp
@[simp] theorem judgeStart_zt (s : State) (b : Bool) : (s.judgeStart b).zt = s.zt := by
  unfold State.judgeStart; (repeat' split) <;> simp
@[simp] theorem judgeStart_rs (s : State) (b : Bool) : (s.judgeStart b).rs = s.rs := by
  unfold State.judgeStart; (repeat' split) <;> simp
@[simp] theorem judgeStart_pe (s : State) (b : Bool) : (s.judgeStart b).pe = s.pe := by
  unfold State.judgeStart; (repeat' split) <;> simp
@[simp] theorem judgeStart_stk (s : State) (b : Bool) : (s.judgeStart b).stk = s.stk := by
  unfold State.judgeStart; (repeat' split) <;> simp
@[simp] theorem judgeStart_lu (s : State) (b : Bool) : (s.judgeStart b).lu = s.lu := by
  unfold State.judgeStart; (repeat' split) <;> simp
@[simp] theorem judgeStart_lp (s : State) (b : Bool) : (s.judgeStart b).lp = s.lp := by
  unfold State.judgeStart; (repeat' split) <;> simp
@[simp] theorem judgeStart_freeCount (s : State) (b : Bool) : (s.judgeStart b).freeCount = s.freeCount := by
  unfold State.judgeStart; (repeat' split) <;> simp

@[simp] theorem heatIfMet_pending (s : State) : (s.heatIfMet).pending = s.pending := by
  unfold State.heatIfMet; (repeat' split) <;> simp
@[simp] theorem heatIfMet_cu (s : State) : (s.heatIfMet).cu = s.cu := by
  unfold State.heatIfMet; (repeat' split) <;> simp
@[simp] theorem heatIfMet_zt (s : State) : (s.heatIfMet).zt = s.zt := by
  unfold State.heatIfMet; (repeat' split) <;> simp
@[simp] theorem heatIfMet_rs (s : State) : (s.heatIfMet).rs = s.rs := by
  unfold State.heatIfMet; (repeat' split) <;> simp
@[simp] theorem heatIfMet_freeCount (s : State) : (s.heatIfMet).freeCount = s.freeCount := by
  unfold State.heatIfMet; (repeat' split) <;> simp

@[simp] theorem rejudge_pending (s : State) : (s.rejudge).pending = s.pending := by
  unfold State.rejudge; (repeat' split) <;> simp
@[simp] theorem rejudge_cu (s : State) : (s.rejudge).cu = s.cu := by
  unfold State.rejudge; (repeat' split) <;> simp
@[simp] theorem rejudge_zt (s : State) : (s.rejudge).zt = s.zt := by
  unfold State.rejudge; (repeat' split) <;> simp
@[simp] theorem rejudge_rs (s : State) : (s.rejudge).rs = s.rs := by
  unfold State.rejudge; (repeat' split) <;> simp
@[simp] theorem rejudge_freeCount (s : State) : (s.rejudge).freeCount = s.freeCount := by
  unfold State.rejudge; (repeat' split) <;> simp

@[simp] theorem rejudgeChanged_pending (s : State) (n : Nat) : (s.rejudgeChanged n).pending = s.pending := by
  unfold State.rejudgeChanged; (repeat' split) <;> simp
@[simp] theorem rejudgeChanged_cu (s : State) (n : Nat) : (s.rejudgeChanged n).cu = s.cu := by
  unfold State.rejudgeChanged; (repeat' split) <;> simp
@[simp] theorem rejudgeChanged_zt (s : State) (n : Nat) : (s.rejudgeChanged n).zt = s.zt := by
  unfold State.rejudgeChanged; (repeat' split) <;> simp
@[simp] theorem rejudgeChanged_rs (s : State) (n : Nat) : (s.rejudgeChanged n).rs = s.rs := by
  unfold State.rejudgeChanged; (repeat' split) <;> simp
@[simp] theorem rejudgeChanged_freeCount (s : State) (n : Nat) : (s.rejudgeChanged n).freeCount = s.freeCount := by
  unfold State.rejudgeChanged; (repeat' split) <;> simp

@[simp] theorem update_pending (s : State) : (s.update).pending = s.pending := by
  unfold State.update; (repeat' split) <;> simp
@[simp] theorem update_cu (s : State) : (s.update).cu = s.cu := by
  unfold State.update; (repeat' split) <;> simp
@[simp] theorem update_zt (s : State) : (s.update).zt = s.zt := by
  unfold State.update; (repeat' split) <;> simp
@[simp] theorem update_rs (s : State) : (s.update).rs = s.rs := by
  unfold State.update; (repeat' split) <;> simp
@[simp] theorem update_freeCount (s : State) : (s.update).freeCount = s.freeCount := by
  unfold State.update; (repeat' split) <;> simp

@[simp] theorem startWait_pending (s : State) : (s.startWait).pending = s.pending := by
  unfold State.startWait; (repeat' split) <;> simp
@[simp] theorem startWait_cu (s : State) : (s.startWait).cu = s.cu := by
  unfold State.startWait; (repeat' split) <;> simp
@[simp] theorem startWait_zt (s : State) : (s.startWait).zt = s.zt := by
  unfold State.startWait; (repeat' split) <;> simp
@[simp] theorem startWait_rs (s : State) : (s.startWait).rs = s.rs := by
  unfold State.startWait; (repeat' split) <;> simp
@[simp] theorem startWait_freeCount (s : State) : (s.startWait).freeCount = s.freeCount := by
  unfold State.startWait; (repeat' split) <;> simp

@[simp] theorem heatOrWait_pending (s : State) : (s.heatOrWait).pending = s.pending := by
  unfold State.heatOrWait; (repeat' split) <;> simp
@[simp] theorem heatOrWait_cu (s : State) : (s.heatOrWait).cu = s.cu := by
  unfold State.heatOrWait; (repeat' split) <;> simp
@[simp] theorem heatOrWait_zt (s : State) : (s.heatOrWait).zt = s.zt := by
  unfold State.heatOrWait; (repeat' split) <;> simp
@[simp] theorem heatOrWait_rs (s : State) : (s.heatOrWait).rs = s.rs := by
  unfold State.heatOrWait; (repeat' split) <;> simp
@[simp] theorem heatOrWait_freeCount (s : State) : (s.heatOrWait).freeCount = s.freeCount := by
  unfold State.heatOrWait; (repeat' split) <;> simp

@[simp] theorem arriveRunIn_pending (s : State) : (s.arriveRunIn).pending = s.pending := by
  unfold State.arriveRunIn; (repeat' split) <;> simp
@[simp] theorem arriveRunIn_cu (s : State) : (s.arriveRunIn).cu = s.cu := by
  unfold State.arriveRunIn; (repeat' split) <;> simp
@[simp] theorem arriveRunIn_zt (s : State) : (s.arriveRunIn).zt = s.zt := by
  unfold State.arriveRunIn; (repeat' split) <;> simp
@[simp] theorem arriveRunIn_rs (s : State) : (s.arriveRunIn).rs = s.rs := by
  unfold State.arriveRunIn; (repeat' split) <;> simp
@[simp] theorem arriveRunIn_freeCount (s : State) : (s.arriveRunIn).freeCount = s.freeCount := by
  unfold State.arriveRunIn; (repeat' split) <;> simp

@[simp] theorem runInCheck_pending (s : State) : (s.runInCheck).pending = s.pending := by
  unfold State.runInCheck; (repeat' split) <;> simp
@[simp] theorem runInCheck_cu (s : State) : (s.runInCheck).cu = s.cu := by
  unfold State.runInCheck; (repeat' split) <;> simp
@[simp] theorem runInCheck_zt (s : State) : (s.runInCheck).zt = s.zt := by
  unfold State.runInCheck; (repeat' split) <;> simp
@[simp] theorem runInCheck_rs (s : State) : (s.runInCheck).rs = s.rs := by
  unfold State.runInCheck; (repeat' split) <;> simp
@[simp] theorem runInCheck_freeCount (s : State) : (s.runInCheck).freeCount = s.freeCount := by
  unfold State.runInCheck; (repeat' split) <;> simp

@[simp] theorem enterHeld_pending (s : State) (r : HeldFrom) : (s.enterHeld r).pending = s.pending := by
  unfold State.enterHeld; (repeat' split) <;> simp
@[simp] theorem enterHeld_cu (s : State) (r : HeldFrom) : (s.enterHeld r).cu = s.cu := by
  unfold State.enterHeld; (repeat' split) <;> simp
@[simp] theorem enterHeld_zt (s : State) (r : HeldFrom) : (s.enterHeld r).zt = s.zt := by
  unfold State.enterHeld; (repeat' split) <;> simp
@[simp] theorem enterHeld_rs (s : State) (r : HeldFrom) : (s.enterHeld r).rs = s.rs := by
  unfold State.enterHeld; (repeat' split) <;> simp
@[simp] theorem enterHeld_freeCount (s : State) (r : HeldFrom) : (s.enterHeld r).freeCount = s.freeCount := by
  unfold State.enterHeld; (repeat' split) <;> simp

@[simp] theorem noticeHoldBreak_pending (s : State) : (s.noticeHoldBreak).pending = s.pending := by
  unfold State.noticeHoldBreak; (repeat' split) <;> simp
@[simp] theorem noticeHoldBreak_cu (s : State) : (s.noticeHoldBreak).cu = s.cu := by
  unfold State.noticeHoldBreak; (repeat' split) <;> simp
@[simp] theorem noticeHoldBreak_zt (s : State) : (s.noticeHoldBreak).zt = s.zt := by
  unfold State.noticeHoldBreak; (repeat' split) <;> simp
@[simp] theorem noticeHoldBreak_rs (s : State) : (s.noticeHoldBreak).rs = s.rs := by
  unfold State.noticeHoldBreak; (repeat' split) <;> simp
@[simp] theorem noticeHoldBreak_pe (s : State) : (s.noticeHoldBreak).pe = s.pe := by
  unfold State.noticeHoldBreak; (repeat' split) <;> simp
@[simp] theorem noticeHoldBreak_sq (s : State) : (s.noticeHoldBreak).sq = s.sq := by
  unfold State.noticeHoldBreak; (repeat' split) <;> simp
@[simp] theorem noticeHoldBreak_lu (s : State) : (s.noticeHoldBreak).lu = s.lu := by
  unfold State.noticeHoldBreak; (repeat' split) <;> simp
@[simp] theorem noticeHoldBreak_lp (s : State) : (s.noticeHoldBreak).lp = s.lp := by
  unfold State.noticeHoldBreak; (repeat' split) <;> simp
@[simp] theorem noticeHoldBreak_freeCount (s : State) : (s.noticeHoldBreak).freeCount = s.freeCount := by
  unfold State.noticeHoldBreak; (repeat' split) <;> simp

@[simp] theorem enterQuenchout_pending (s : State) (r : HeldFrom) : (s.enterQuenchout r).pending = s.pending := by
  unfold State.enterQuenchout; (repeat' split) <;> simp
@[simp] theorem enterQuenchout_cu (s : State) (r : HeldFrom) : (s.enterQuenchout r).cu = s.cu := by
  unfold State.enterQuenchout; (repeat' split) <;> simp
@[simp] theorem enterQuenchout_zt (s : State) (r : HeldFrom) : (s.enterQuenchout r).zt = s.zt := by
  unfold State.enterQuenchout; (repeat' split) <;> simp
@[simp] theorem enterQuenchout_rs (s : State) (r : HeldFrom) : (s.enterQuenchout r).rs = s.rs := by
  unfold State.enterQuenchout; (repeat' split) <;> simp
@[simp] theorem enterQuenchout_freeCount (s : State) (r : HeldFrom) : (s.enterQuenchout r).freeCount = s.freeCount := by
  unfold State.enterQuenchout; (repeat' split) <;> simp

@[simp] theorem holdRequest_pending (s : State) : (s.holdRequest).pending = s.pending := by
  unfold State.holdRequest; (repeat' split) <;> simp
@[simp] theorem holdRequest_cu (s : State) : (s.holdRequest).cu = s.cu := by
  unfold State.holdRequest; (repeat' split) <;> simp
@[simp] theorem holdRequest_zt (s : State) : (s.holdRequest).zt = s.zt := by
  unfold State.holdRequest; (repeat' split) <;> simp
@[simp] theorem holdRequest_rs (s : State) : (s.holdRequest).rs = s.rs := by
  unfold State.holdRequest; (repeat' split) <;> simp
@[simp] theorem holdRequest_freeCount (s : State) : (s.holdRequest).freeCount = s.freeCount := by
  unfold State.holdRequest; (repeat' split) <;> simp

@[simp] theorem requestIf_pending (s : State) (b : Bool) : (s.requestIf b).pending = s.pending := by
  unfold State.requestIf; (repeat' split) <;> simp
@[simp] theorem requestIf_cu (s : State) (b : Bool) : (s.requestIf b).cu = s.cu := by
  unfold State.requestIf; (repeat' split) <;> simp
@[simp] theorem requestIf_zt (s : State) (b : Bool) : (s.requestIf b).zt = s.zt := by
  unfold State.requestIf; (repeat' split) <;> simp
@[simp] theorem requestIf_rs (s : State) (b : Bool) : (s.requestIf b).rs = s.rs := by
  unfold State.requestIf; (repeat' split) <;> simp
@[simp] theorem requestIf_freeCount (s : State) (b : Bool) : (s.requestIf b).freeCount = s.freeCount := by
  unfold State.requestIf; (repeat' split) <;> simp

@[simp] theorem writeHold_pending (s : State) (field : Port) (v : Bool) : (s.writeHold field v).pending = s.pending := by
  unfold State.writeHold; (repeat' split) <;> simp
@[simp] theorem writeHold_cu (s : State) (field : Port) (v : Bool) : (s.writeHold field v).cu = s.cu := by
  unfold State.writeHold; (repeat' split) <;> simp
@[simp] theorem writeHold_zt (s : State) (field : Port) (v : Bool) : (s.writeHold field v).zt = s.zt := by
  unfold State.writeHold; (repeat' split) <;> simp
@[simp] theorem writeHold_rs (s : State) (field : Port) (v : Bool) : (s.writeHold field v).rs = s.rs := by
  unfold State.writeHold; (repeat' split) <;> simp
@[simp] theorem writeHold_freeCount (s : State) (field : Port) (v : Bool) : (s.writeHold field v).freeCount = s.freeCount := by
  unfold State.writeHold; (repeat' split) <;> simp

@[simp] theorem passFrontier_pending (s : State) : (s.passFrontier).pending = s.pending := by
  unfold State.passFrontier; (repeat' split) <;> simp
@[simp] theorem passFrontier_cu (s : State) : (s.passFrontier).cu = s.cu := by
  unfold State.passFrontier; (repeat' split) <;> simp
@[simp] theorem passFrontier_zt (s : State) : (s.passFrontier).zt = s.zt := by
  unfold State.passFrontier; (repeat' split) <;> simp
@[simp] theorem passFrontier_rs (s : State) : (s.passFrontier).rs = s.rs := by
  unfold State.passFrontier; (repeat' split) <;> simp
@[simp] theorem passFrontier_pe (s : State) : (s.passFrontier).pe = s.pe := by
  unfold State.passFrontier; (repeat' split) <;> simp
@[simp] theorem passFrontier_sq (s : State) : (s.passFrontier).sq = s.sq := by
  unfold State.passFrontier; (repeat' split) <;> simp
@[simp] theorem passFrontier_lu (s : State) : (s.passFrontier).lu = s.lu := by
  unfold State.passFrontier; (repeat' split) <;> simp
@[simp] theorem passFrontier_lp (s : State) : (s.passFrontier).lp = s.lp := by
  unfold State.passFrontier; (repeat' split) <;> simp
@[simp] theorem passFrontier_freeCount (s : State) : (s.passFrontier).freeCount = s.freeCount := by
  unfold State.passFrontier; (repeat' split) <;> simp

@[simp] theorem noticeEmpty_pending (s : State) (l : List SliceRecord) : (s.noticeEmpty l).pending = s.pending := by
  unfold State.noticeEmpty; (repeat' split) <;> simp
@[simp] theorem noticeEmpty_cu (s : State) (l : List SliceRecord) : (s.noticeEmpty l).cu = s.cu := by
  unfold State.noticeEmpty; (repeat' split) <;> simp
@[simp] theorem noticeEmpty_zt (s : State) (l : List SliceRecord) : (s.noticeEmpty l).zt = s.zt := by
  unfold State.noticeEmpty; (repeat' split) <;> simp
@[simp] theorem noticeEmpty_rs (s : State) (l : List SliceRecord) : (s.noticeEmpty l).rs = s.rs := by
  unfold State.noticeEmpty; (repeat' split) <;> simp
@[simp] theorem noticeEmpty_freeCount (s : State) (l : List SliceRecord) : (s.noticeEmpty l).freeCount = s.freeCount := by
  unfold State.noticeEmpty; (repeat' split) <;> simp
@[simp] theorem noticeEmpty_lu (s : State) (l : List SliceRecord) : (s.noticeEmpty l).lu = s.lu := by
  unfold State.noticeEmpty; (repeat' split) <;> simp

@[simp] theorem openAtFrontier_pending (s : State) : (s.openAtFrontier).pending = s.pending := by
  unfold State.openAtFrontier; (repeat' split) <;> simp
@[simp] theorem openAtFrontier_cu (s : State) : (s.openAtFrontier).cu = s.cu := by
  unfold State.openAtFrontier; (repeat' split) <;> simp
@[simp] theorem openAtFrontier_zt (s : State) : (s.openAtFrontier).zt = s.zt := by
  unfold State.openAtFrontier; (repeat' split) <;> simp
@[simp] theorem openAtFrontier_rs (s : State) : (s.openAtFrontier).rs = s.rs := by
  unfold State.openAtFrontier; (repeat' split) <;> simp
@[simp] theorem openAtFrontier_pe (s : State) : (s.openAtFrontier).pe = s.pe := by
  unfold State.openAtFrontier; (repeat' split) <;> simp
@[simp] theorem openAtFrontier_sq (s : State) : (s.openAtFrontier).sq = s.sq := by
  unfold State.openAtFrontier; (repeat' split) <;> simp
@[simp] theorem openAtFrontier_lu (s : State) : (s.openAtFrontier).lu = s.lu := by
  unfold State.openAtFrontier; (repeat' split) <;> simp
@[simp] theorem openAtFrontier_lp (s : State) : (s.openAtFrontier).lp = s.lp := by
  unfold State.openAtFrontier; (repeat' split) <;> simp
@[simp] theorem openAtFrontier_freeCount (s : State) : (s.openAtFrontier).freeCount = s.freeCount := by
  unfold State.openAtFrontier; (repeat' split) <;> simp

@[simp] theorem trackAdvance_pending (s : State) : (s.trackAdvance).pending = s.pending := by
  unfold State.trackAdvance; (repeat' split) <;> simp
@[simp] theorem trackAdvance_cu (s : State) : (s.trackAdvance).cu = s.cu := by
  unfold State.trackAdvance; (repeat' split) <;> simp
@[simp] theorem trackAdvance_zt (s : State) : (s.trackAdvance).zt = s.zt := by
  unfold State.trackAdvance; (repeat' split) <;> simp
@[simp] theorem trackAdvance_rs (s : State) : (s.trackAdvance).rs = s.rs := by
  unfold State.trackAdvance; (repeat' split) <;> simp
@[simp] theorem trackAdvance_freeCount (s : State) : (s.trackAdvance).freeCount = s.freeCount := by
  unfold State.trackAdvance; (repeat' split) <;> simp
@[simp] theorem trackAdvance_lu (s : State) : (s.trackAdvance).lu = s.lu := by
  unfold State.trackAdvance; (repeat' split) <;> simp

@[simp] theorem stampMark_pending (s : State) (k : MarkNo) (b : Bool) : (s.stampMark k b).pending = s.pending := by
  unfold State.stampMark; (repeat' split) <;> simp
@[simp] theorem stampMark_zt (s : State) (k : MarkNo) (b : Bool) : (s.stampMark k b).zt = s.zt := by
  unfold State.stampMark; (repeat' split) <;> simp
@[simp] theorem stampMark_rs (s : State) (k : MarkNo) (b : Bool) : (s.stampMark k b).rs = s.rs := by
  unfold State.stampMark; (repeat' split) <;> simp
@[simp] theorem stampMark_pe (s : State) (k : MarkNo) (b : Bool) : (s.stampMark k b).pe = s.pe := by
  unfold State.stampMark; (repeat' split) <;> simp
@[simp] theorem stampMark_sq (s : State) (k : MarkNo) (b : Bool) : (s.stampMark k b).sq = s.sq := by
  unfold State.stampMark; (repeat' split) <;> simp
@[simp] theorem stampMark_stk (s : State) (k : MarkNo) (b : Bool) : (s.stampMark k b).stk = s.stk := by
  unfold State.stampMark; (repeat' split) <;> simp
@[simp] theorem stampMark_lu (s : State) (k : MarkNo) (b : Bool) : (s.stampMark k b).lu = s.lu := by
  unfold State.stampMark; (repeat' split) <;> simp
@[simp] theorem stampMark_lp (s : State) (k : MarkNo) (b : Bool) : (s.stampMark k b).lp = s.lp := by
  unfold State.stampMark; (repeat' split) <;> simp
@[simp] theorem stampMark_freeCount (s : State) (k : MarkNo) (b : Bool) : (s.stampMark k b).freeCount = s.freeCount := by
  unfold State.stampMark; (repeat' split) <;> simp

@[simp] theorem markAdvance_pending (s : State) (old : Int) (k : MarkNo) : (s.markAdvance old k).pending = s.pending := by
  unfold State.markAdvance; (repeat' split) <;> simp
@[simp] theorem markAdvance_zt (s : State) (old : Int) (k : MarkNo) : (s.markAdvance old k).zt = s.zt := by
  unfold State.markAdvance; (repeat' split) <;> simp
@[simp] theorem markAdvance_rs (s : State) (old : Int) (k : MarkNo) : (s.markAdvance old k).rs = s.rs := by
  unfold State.markAdvance; (repeat' split) <;> simp
@[simp] theorem markAdvance_pe (s : State) (old : Int) (k : MarkNo) : (s.markAdvance old k).pe = s.pe := by
  unfold State.markAdvance; (repeat' split) <;> simp
@[simp] theorem markAdvance_sq (s : State) (old : Int) (k : MarkNo) : (s.markAdvance old k).sq = s.sq := by
  unfold State.markAdvance; (repeat' split) <;> simp
@[simp] theorem markAdvance_stk (s : State) (old : Int) (k : MarkNo) : (s.markAdvance old k).stk = s.stk := by
  unfold State.markAdvance; (repeat' split) <;> simp
@[simp] theorem markAdvance_lp (s : State) (old : Int) (k : MarkNo) : (s.markAdvance old k).lp = s.lp := by
  unfold State.markAdvance; (repeat' split) <;> simp
@[simp] theorem markAdvance_freeCount (s : State) (old : Int) (k : MarkNo) : (s.markAdvance old k).freeCount = s.freeCount := by
  unfold State.markAdvance; (repeat' split) <;> simp

@[simp] theorem marksAdvance_pending (s : State) (old : Int) : (s.marksAdvance old).pending = s.pending := by
  unfold State.marksAdvance; (repeat' split) <;> simp
@[simp] theorem marksAdvance_zt (s : State) (old : Int) : (s.marksAdvance old).zt = s.zt := by
  unfold State.marksAdvance; (repeat' split) <;> simp
@[simp] theorem marksAdvance_rs (s : State) (old : Int) : (s.marksAdvance old).rs = s.rs := by
  unfold State.marksAdvance; (repeat' split) <;> simp
@[simp] theorem marksAdvance_pe (s : State) (old : Int) : (s.marksAdvance old).pe = s.pe := by
  unfold State.marksAdvance; (repeat' split) <;> simp
@[simp] theorem marksAdvance_sq (s : State) (old : Int) : (s.marksAdvance old).sq = s.sq := by
  unfold State.marksAdvance; (repeat' split) <;> simp
@[simp] theorem marksAdvance_stk (s : State) (old : Int) : (s.marksAdvance old).stk = s.stk := by
  unfold State.marksAdvance; (repeat' split) <;> simp
@[simp] theorem marksAdvance_lp (s : State) (old : Int) : (s.marksAdvance old).lp = s.lp := by
  unfold State.marksAdvance; (repeat' split) <;> simp
@[simp] theorem marksAdvance_freeCount (s : State) (old : Int) : (s.marksAdvance old).freeCount = s.freeCount := by
  unfold State.marksAdvance; (repeat' split) <;> simp

@[simp] theorem movePointer_pending (s : State) : (s.movePointer).pending = s.pending := by
  unfold State.movePointer; (repeat' split) <;> simp
@[simp] theorem movePointer_cu (s : State) : (s.movePointer).cu = s.cu := by
  unfold State.movePointer; (repeat' split) <;> simp
@[simp] theorem movePointer_zt (s : State) : (s.movePointer).zt = s.zt := by
  unfold State.movePointer; (repeat' split) <;> simp
@[simp] theorem movePointer_rs (s : State) : (s.movePointer).rs = s.rs := by
  unfold State.movePointer; (repeat' split) <;> simp
@[simp] theorem movePointer_pe (s : State) : (s.movePointer).pe = s.pe := by
  unfold State.movePointer; (repeat' split) <;> simp
@[simp] theorem movePointer_stk (s : State) : (s.movePointer).stk = s.stk := by
  unfold State.movePointer; (repeat' split) <;> simp
@[simp] theorem movePointer_lu (s : State) : (s.movePointer).lu = s.lu := by
  unfold State.movePointer; (repeat' split) <;> simp
@[simp] theorem movePointer_lp (s : State) : (s.movePointer).lp = s.lp := by
  unfold State.movePointer; (repeat' split) <;> simp
@[simp] theorem movePointer_freeCount (s : State) : (s.movePointer).freeCount = s.freeCount := by
  unfold State.movePointer; (repeat' split) <;> simp

@[simp] theorem drainCheck_pending (s : State) (l : Int) : (s.drainCheck l).pending = s.pending := by
  unfold State.drainCheck; (repeat' split) <;> simp
@[simp] theorem drainCheck_cu (s : State) (l : Int) : (s.drainCheck l).cu = s.cu := by
  unfold State.drainCheck; (repeat' split) <;> simp
@[simp] theorem drainCheck_zt (s : State) (l : Int) : (s.drainCheck l).zt = s.zt := by
  unfold State.drainCheck; (repeat' split) <;> simp
@[simp] theorem drainCheck_rs (s : State) (l : Int) : (s.drainCheck l).rs = s.rs := by
  unfold State.drainCheck; (repeat' split) <;> simp
@[simp] theorem drainCheck_freeCount (s : State) (l : Int) : (s.drainCheck l).freeCount = s.freeCount := by
  unfold State.drainCheck; (repeat' split) <;> simp

@[simp] theorem seqAdvance_pending (s : State) : (s.seqAdvance).pending = s.pending := by
  unfold State.seqAdvance; (repeat' split) <;> simp
@[simp] theorem seqAdvance_cu (s : State) : (s.seqAdvance).cu = s.cu := by
  unfold State.seqAdvance; (repeat' split) <;> simp
@[simp] theorem seqAdvance_zt (s : State) : (s.seqAdvance).zt = s.zt := by
  unfold State.seqAdvance; (repeat' split) <;> simp
@[simp] theorem seqAdvance_rs (s : State) : (s.seqAdvance).rs = s.rs := by
  unfold State.seqAdvance; (repeat' split) <;> simp
@[simp] theorem seqAdvance_freeCount (s : State) : (s.seqAdvance).freeCount = s.freeCount := by
  unfold State.seqAdvance; (repeat' split) <;> simp

@[simp] theorem advance_pending (s : State) (old : Int) : (s.advance old).pending = s.pending := by
  unfold State.advance; (repeat' split) <;> simp
@[simp] theorem advance_zt (s : State) (old : Int) : (s.advance old).zt = s.zt := by
  unfold State.advance; (repeat' split) <;> simp
@[simp] theorem advance_rs (s : State) (old : Int) : (s.advance old).rs = s.rs := by
  unfold State.advance; (repeat' split) <;> simp
@[simp] theorem advance_freeCount (s : State) (old : Int) : (s.advance old).freeCount = s.freeCount := by
  unfold State.advance; (repeat' split) <;> simp

@[simp] theorem takeOrigin_pending (s : State) : (s.takeOrigin).pending = s.pending := by
  unfold State.takeOrigin; (repeat' split) <;> simp
@[simp] theorem takeOrigin_zt (s : State) : (s.takeOrigin).zt = s.zt := by
  unfold State.takeOrigin; (repeat' split) <;> simp
@[simp] theorem takeOrigin_rs (s : State) : (s.takeOrigin).rs = s.rs := by
  unfold State.takeOrigin; (repeat' split) <;> simp
@[simp] theorem takeOrigin_pe (s : State) : (s.takeOrigin).pe = s.pe := by
  unfold State.takeOrigin; (repeat' split) <;> simp
@[simp] theorem takeOrigin_sq (s : State) : (s.takeOrigin).sq = s.sq := by
  unfold State.takeOrigin; (repeat' split) <;> simp
@[simp] theorem takeOrigin_stk (s : State) : (s.takeOrigin).stk = s.stk := by
  unfold State.takeOrigin; (repeat' split) <;> simp
@[simp] theorem takeOrigin_lu (s : State) : (s.takeOrigin).lu = s.lu := by
  unfold State.takeOrigin; (repeat' split) <;> simp
@[simp] theorem takeOrigin_lp (s : State) : (s.takeOrigin).lp = s.lp := by
  unfold State.takeOrigin; (repeat' split) <;> simp
@[simp] theorem takeOrigin_freeCount (s : State) : (s.takeOrigin).freeCount = s.freeCount := by
  unfold State.takeOrigin; (repeat' split) <;> simp

@[simp] theorem arm_pending (s : State) : (s.arm).pending = s.pending := by
  unfold State.arm; (repeat' split) <;> simp
@[simp] theorem arm_cu (s : State) : (s.arm).cu = s.cu := by
  unfold State.arm; (repeat' split) <;> simp
@[simp] theorem arm_zt (s : State) : (s.arm).zt = s.zt := by
  unfold State.arm; (repeat' split) <;> simp
@[simp] theorem arm_rs (s : State) : (s.arm).rs = s.rs := by
  unfold State.arm; (repeat' split) <;> simp
@[simp] theorem arm_freeCount (s : State) : (s.arm).freeCount = s.freeCount := by
  unfold State.arm; (repeat' split) <;> simp

@[simp] theorem exchange_pending (s : State) : (s.exchange).pending = s.pending := by
  unfold State.exchange; (repeat' split) <;> simp
@[simp] theorem exchange_rs (s : State) : (s.exchange).rs = s.rs := by
  unfold State.exchange; (repeat' split) <;> simp
@[simp] theorem exchange_freeCount (s : State) : (s.exchange).freeCount = s.freeCount := by
  unfold State.exchange; (repeat' split) <;> simp

end State

end Sys2Proof.Machine
end

