-- ==== Sys2Proof/Laws/CommandFrames.lean ====
section
/-! SUPPORT. The frame of each command's own operations: the fields that it leaves as they stand. -/

namespace Sys2Proof.Machine

/-- A request keeps a field that its own rule keeps. -/
theorem takeRequest_keeps {α β : Type} (g : State → β) (tag : Byte) (p : Payload α) (body : α → State → State × Answer)
    (s : State) (ha : ∀ w u, g (State.arrive w u) = g u) (hr : ∀ a u, g (State.answer tag a u) = g u)
    (hb : ∀ f u, g (body f u).1 = g u) : g (takeRequest tag p body s) = g s := by
  unfold takeRequest judgeRequest
  (repeat' split) <;> simp [ha, hr, hb]

namespace State

@[simp] theorem moveEdge_pending (s : State) (up : Bool) : (s.moveEdge up).pending = s.pending := by
  unfold State.moveEdge; (try dsimp only) <;> (repeat' split) <;> simp
@[simp] theorem moveEdge_zt (s : State) (up : Bool) : (s.moveEdge up).zt = s.zt := by
  unfold State.moveEdge; (try dsimp only) <;> (repeat' split) <;> simp
@[simp] theorem moveEdge_rs (s : State) (up : Bool) : (s.moveEdge up).rs = s.rs := by
  unfold State.moveEdge; (try dsimp only) <;> (repeat' split) <;> simp
@[simp] theorem moveEdge_pe (s : State) (up : Bool) : (s.moveEdge up).pe = s.pe := by
  unfold State.moveEdge; (try dsimp only) <;> (repeat' split) <;> simp
@[simp] theorem moveEdge_sq (s : State) (up : Bool) : (s.moveEdge up).sq = s.sq := by
  unfold State.moveEdge; (try dsimp only) <;> (repeat' split) <;> simp
@[simp] theorem moveEdge_stk (s : State) (up : Bool) : (s.moveEdge up).stk = s.stk := by
  unfold State.moveEdge; (try dsimp only) <;> (repeat' split) <;> simp
@[simp] theorem moveEdge_lu (s : State) (up : Bool) : (s.moveEdge up).lu = s.lu := by
  unfold State.moveEdge; (try dsimp only) <;> (repeat' split) <;> simp
@[simp] theorem moveEdge_lp (s : State) (up : Bool) : (s.moveEdge up).lp = s.lp := by
  unfold State.moveEdge; (try dsimp only) <;> (repeat' split) <;> simp
@[simp] theorem moveEdge_freeCount (s : State) (up : Bool) : (s.moveEdge up).freeCount = s.freeCount := by
  unfold State.moveEdge; (try dsimp only) <;> (repeat' split) <;> simp

@[simp] theorem handAdvance_pending (s : State) (old : Int) : (s.handAdvance old).pending = s.pending := by
  unfold State.handAdvance; (try dsimp only) <;> (repeat' split) <;> simp
@[simp] theorem handAdvance_zt (s : State) (old : Int) : (s.handAdvance old).zt = s.zt := by
  unfold State.handAdvance; (try dsimp only) <;> (repeat' split) <;> simp
@[simp] theorem handAdvance_rs (s : State) (old : Int) : (s.handAdvance old).rs = s.rs := by
  unfold State.handAdvance; (try dsimp only) <;> (repeat' split) <;> simp
@[simp] theorem handAdvance_freeCount (s : State) (old : Int) : (s.handAdvance old).freeCount = s.freeCount := by
  unfold State.handAdvance; (try dsimp only) <;> (repeat' split) <;> simp

@[simp] theorem takeEdge_pending (s : State) (up : Bool) : (s.takeEdge up).pending = s.pending := by
  unfold State.takeEdge; (try dsimp only) <;> (repeat' split) <;> simp
@[simp] theorem takeEdge_zt (s : State) (up : Bool) : (s.takeEdge up).zt = s.zt := by
  unfold State.takeEdge; (try dsimp only) <;> (repeat' split) <;> simp
@[simp] theorem takeEdge_rs (s : State) (up : Bool) : (s.takeEdge up).rs = s.rs := by
  unfold State.takeEdge; (try dsimp only) <;> (repeat' split) <;> simp
@[simp] theorem takeEdge_freeCount (s : State) (up : Bool) : (s.takeEdge up).freeCount = s.freeCount := by
  unfold State.takeEdge; (try dsimp only) <;> (repeat' split) <;> simp

@[simp] theorem setEncPhase_pending (s : State) (p : EncPhase) : (s.setEncPhase p).pending = s.pending := by
  unfold State.setEncPhase; (try dsimp only) <;> (repeat' split) <;> simp
@[simp] theorem setEncPhase_zt (s : State) (p : EncPhase) : (s.setEncPhase p).zt = s.zt := by
  unfold State.setEncPhase; (try dsimp only) <;> (repeat' split) <;> simp
@[simp] theorem setEncPhase_rs (s : State) (p : EncPhase) : (s.setEncPhase p).rs = s.rs := by
  unfold State.setEncPhase; (try dsimp only) <;> (repeat' split) <;> simp
@[simp] theorem setEncPhase_pe (s : State) (p : EncPhase) : (s.setEncPhase p).pe = s.pe := by
  unfold State.setEncPhase; (try dsimp only) <;> (repeat' split) <;> simp
@[simp] theorem setEncPhase_sq (s : State) (p : EncPhase) : (s.setEncPhase p).sq = s.sq := by
  unfold State.setEncPhase; (try dsimp only) <;> (repeat' split) <;> simp
@[simp] theorem setEncPhase_stk (s : State) (p : EncPhase) : (s.setEncPhase p).stk = s.stk := by
  unfold State.setEncPhase; (try dsimp only) <;> (repeat' split) <;> simp
@[simp] theorem setEncPhase_lu (s : State) (p : EncPhase) : (s.setEncPhase p).lu = s.lu := by
  unfold State.setEncPhase; (try dsimp only) <;> (repeat' split) <;> simp
@[simp] theorem setEncPhase_lp (s : State) (p : EncPhase) : (s.setEncPhase p).lp = s.lp := by
  unfold State.setEncPhase; (try dsimp only) <;> (repeat' split) <;> simp
@[simp] theorem setEncPhase_freeCount (s : State) (p : EncPhase) : (s.setEncPhase p).freeCount = s.freeCount := by
  unfold State.setEncPhase; (try dsimp only) <;> (repeat' split) <;> simp

@[simp] theorem legalTransition_pending (s : State) (p : EncPhase) (up : Bool) : (s.legalTransition p up).pending = s.pending := by
  unfold State.legalTransition; (try dsimp only) <;> (repeat' split) <;> simp
@[simp] theorem legalTransition_zt (s : State) (p : EncPhase) (up : Bool) : (s.legalTransition p up).zt = s.zt := by
  unfold State.legalTransition; (try dsimp only) <;> (repeat' split) <;> simp
@[simp] theorem legalTransition_rs (s : State) (p : EncPhase) (up : Bool) : (s.legalTransition p up).rs = s.rs := by
  unfold State.legalTransition; (try dsimp only) <;> (repeat' split) <;> simp
@[simp] theorem legalTransition_freeCount (s : State) (p : EncPhase) (up : Bool) : (s.legalTransition p up).freeCount = s.freeCount := by
  unfold State.legalTransition; (try dsimp only) <;> (repeat' split) <;> simp

@[simp] theorem illegalTransition_pending (s : State) (p : EncPhase) : (s.illegalTransition p).pending = s.pending := by
  unfold State.illegalTransition; (try dsimp only) <;> (repeat' split) <;> simp
@[simp] theorem illegalTransition_zt (s : State) (p : EncPhase) : (s.illegalTransition p).zt = s.zt := by
  unfold State.illegalTransition; (try dsimp only) <;> (repeat' split) <;> simp
@[simp] theorem illegalTransition_rs (s : State) (p : EncPhase) : (s.illegalTransition p).rs = s.rs := by
  unfold State.illegalTransition; (try dsimp only) <;> (repeat' split) <;> simp
@[simp] theorem illegalTransition_freeCount (s : State) (p : EncPhase) : (s.illegalTransition p).freeCount = s.freeCount := by
  unfold State.illegalTransition; (try dsimp only) <;> (repeat' split) <;> simp

@[simp] theorem takeLevels_pending (s : State) (a b : Bool) : (s.takeLevels a b).pending = s.pending := by
  unfold State.takeLevels; (try dsimp only) <;> (repeat' split) <;> simp
@[simp] theorem takeLevels_zt (s : State) (a b : Bool) : (s.takeLevels a b).zt = s.zt := by
  unfold State.takeLevels; (try dsimp only) <;> (repeat' split) <;> simp
@[simp] theorem takeLevels_rs (s : State) (a b : Bool) : (s.takeLevels a b).rs = s.rs := by
  unfold State.takeLevels; (try dsimp only) <;> (repeat' split) <;> simp
@[simp] theorem takeLevels_freeCount (s : State) (a b : Bool) : (s.takeLevels a b).freeCount = s.freeCount := by
  unfold State.takeLevels; (try dsimp only) <;> (repeat' split) <;> simp

@[simp] theorem latchIndex_pending (s : State) : (s.latchIndex).pending = s.pending := by
  unfold State.latchIndex; (try dsimp only) <;> (repeat' split) <;> simp
@[simp] theorem latchIndex_zt (s : State) : (s.latchIndex).zt = s.zt := by
  unfold State.latchIndex; (try dsimp only) <;> (repeat' split) <;> simp
@[simp] theorem latchIndex_rs (s : State) : (s.latchIndex).rs = s.rs := by
  unfold State.latchIndex; (try dsimp only) <;> (repeat' split) <;> simp
@[simp] theorem latchIndex_pe (s : State) : (s.latchIndex).pe = s.pe := by
  unfold State.latchIndex; (try dsimp only) <;> (repeat' split) <;> simp
@[simp] theorem latchIndex_sq (s : State) : (s.latchIndex).sq = s.sq := by
  unfold State.latchIndex; (try dsimp only) <;> (repeat' split) <;> simp
@[simp] theorem latchIndex_stk (s : State) : (s.latchIndex).stk = s.stk := by
  unfold State.latchIndex; (try dsimp only) <;> (repeat' split) <;> simp
@[simp] theorem latchIndex_lu (s : State) : (s.latchIndex).lu = s.lu := by
  unfold State.latchIndex; (try dsimp only) <;> (repeat' split) <;> simp
@[simp] theorem latchIndex_lp (s : State) : (s.latchIndex).lp = s.lp := by
  unfold State.latchIndex; (try dsimp only) <;> (repeat' split) <;> simp
@[simp] theorem latchIndex_freeCount (s : State) : (s.latchIndex).freeCount = s.freeCount := by
  unfold State.latchIndex; (try dsimp only) <;> (repeat' split) <;> simp

@[simp] theorem acceptClear_pending (s : State) : (s.acceptClear).pending = s.pending := by
  unfold State.acceptClear; (try dsimp only) <;> (repeat' split) <;> simp
@[simp] theorem acceptClear_cu (s : State) : (s.acceptClear).cu = s.cu := by
  unfold State.acceptClear; (try dsimp only) <;> (repeat' split) <;> simp
@[simp] theorem acceptClear_zt (s : State) : (s.acceptClear).zt = s.zt := by
  unfold State.acceptClear; (try dsimp only) <;> (repeat' split) <;> simp
@[simp] theorem acceptClear_rs (s : State) : (s.acceptClear).rs = s.rs := by
  unfold State.acceptClear; (try dsimp only) <;> (repeat' split) <;> simp
@[simp] theorem acceptClear_freeCount (s : State) : (s.acceptClear).freeCount = s.freeCount := by
  unfold State.acceptClear; (try dsimp only) <;> (repeat' split) <;> simp

@[simp] theorem judgeClear_pending (s : State) : (s.judgeClear.1).pending = s.pending := by
  unfold State.judgeClear; (try dsimp only) <;> (repeat' split) <;> simp
@[simp] theorem judgeClear_cu (s : State) : (s.judgeClear.1).cu = s.cu := by
  unfold State.judgeClear; (try dsimp only) <;> (repeat' split) <;> simp
@[simp] theorem judgeClear_zt (s : State) : (s.judgeClear.1).zt = s.zt := by
  unfold State.judgeClear; (try dsimp only) <;> (repeat' split) <;> simp
@[simp] theorem judgeClear_rs (s : State) : (s.judgeClear.1).rs = s.rs := by
  unfold State.judgeClear; (try dsimp only) <;> (repeat' split) <;> simp
@[simp] theorem judgeClear_freeCount (s : State) : (s.judgeClear.1).freeCount = s.freeCount := by
  unfold State.judgeClear; (try dsimp only) <;> (repeat' split) <;> simp

@[simp] theorem fillScanRecord_pending (s : State) : (s.fillScanRecord).pending = s.pending := by
  unfold State.fillScanRecord; (try dsimp only) <;> (repeat' split) <;> simp
@[simp] theorem fillScanRecord_cu (s : State) : (s.fillScanRecord).cu = s.cu := by
  unfold State.fillScanRecord; (try dsimp only) <;> (repeat' split) <;> simp
@[simp] theorem fillScanRecord_zt (s : State) : (s.fillScanRecord).zt = s.zt := by
  unfold State.fillScanRecord; (try dsimp only) <;> (repeat' split) <;> simp
@[simp] theorem fillScanRecord_rs (s : State) : (s.fillScanRecord).rs = s.rs := by
  unfold State.fillScanRecord; (try dsimp only) <;> (repeat' split) <;> simp
@[simp] theorem fillScanRecord_pe (s : State) : (s.fillScanRecord).pe = s.pe := by
  unfold State.fillScanRecord; (try dsimp only) <;> (repeat' split) <;> simp
@[simp] theorem fillScanRecord_stk (s : State) : (s.fillScanRecord).stk = s.stk := by
  unfold State.fillScanRecord; (try dsimp only) <;> (repeat' split) <;> simp
@[simp] theorem fillScanRecord_lu (s : State) : (s.fillScanRecord).lu = s.lu := by
  unfold State.fillScanRecord; (try dsimp only) <;> (repeat' split) <;> simp
@[simp] theorem fillScanRecord_lp (s : State) : (s.fillScanRecord).lp = s.lp := by
  unfold State.fillScanRecord; (try dsimp only) <;> (repeat' split) <;> simp
@[simp] theorem fillScanRecord_freeCount (s : State) : (s.fillScanRecord).freeCount = s.freeCount := by
  unfold State.fillScanRecord; (try dsimp only) <;> (repeat' split) <;> simp

@[simp] theorem openScan_pending (s : State) : (s.openScan).pending = s.pending := by
  unfold State.openScan; (try dsimp only) <;> (repeat' split) <;> simp
@[simp] theorem openScan_zt (s : State) : (s.openScan).zt = s.zt := by
  unfold State.openScan; (try dsimp only) <;> (repeat' split) <;> simp
@[simp] theorem openScan_rs (s : State) : (s.openScan).rs = s.rs := by
  unfold State.openScan; (try dsimp only) <;> (repeat' split) <;> simp
@[simp] theorem openScan_pe (s : State) : (s.openScan).pe = s.pe := by
  unfold State.openScan; (try dsimp only) <;> (repeat' split) <;> simp
@[simp] theorem openScan_sq (s : State) : (s.openScan).sq = s.sq := by
  unfold State.openScan; (try dsimp only) <;> (repeat' split) <;> simp
@[simp] theorem openScan_lu (s : State) : (s.openScan).lu = s.lu := by
  unfold State.openScan; (try dsimp only) <;> (repeat' split) <;> simp
@[simp] theorem openScan_lp (s : State) : (s.openScan).lp = s.lp := by
  unfold State.openScan; (try dsimp only) <;> (repeat' split) <;> simp
@[simp] theorem openScan_freeCount (s : State) : (s.openScan).freeCount = s.freeCount := by
  unfold State.openScan; (try dsimp only) <;> (repeat' split) <;> simp

@[simp] theorem runSeek_pending (s : State) : (s.runSeek).pending = s.pending := by
  unfold State.runSeek; (try dsimp only) <;> (repeat' split) <;> simp
@[simp] theorem runSeek_cu (s : State) : (s.runSeek).cu = s.cu := by
  unfold State.runSeek; (try dsimp only) <;> (repeat' split) <;> simp
@[simp] theorem runSeek_zt (s : State) : (s.runSeek).zt = s.zt := by
  unfold State.runSeek; (try dsimp only) <;> (repeat' split) <;> simp
@[simp] theorem runSeek_rs (s : State) : (s.runSeek).rs = s.rs := by
  unfold State.runSeek; (try dsimp only) <;> (repeat' split) <;> simp
@[simp] theorem runSeek_freeCount (s : State) : (s.runSeek).freeCount = s.freeCount := by
  unfold State.runSeek; (try dsimp only) <;> (repeat' split) <;> simp

@[simp] theorem runApproach_pending (s : State) : (s.runApproach).pending = s.pending := by
  unfold State.runApproach; (try dsimp only) <;> (repeat' split) <;> simp
@[simp] theorem runApproach_cu (s : State) : (s.runApproach).cu = s.cu := by
  unfold State.runApproach; (try dsimp only) <;> (repeat' split) <;> simp
@[simp] theorem runApproach_zt (s : State) : (s.runApproach).zt = s.zt := by
  unfold State.runApproach; (try dsimp only) <;> (repeat' split) <;> simp
@[simp] theorem runApproach_rs (s : State) : (s.runApproach).rs = s.rs := by
  unfold State.runApproach; (try dsimp only) <;> (repeat' split) <;> simp
@[simp] theorem runApproach_freeCount (s : State) : (s.runApproach).freeCount = s.freeCount := by
  unfold State.runApproach; (try dsimp only) <;> (repeat' split) <;> simp

@[simp] theorem acceptRun_pending (s : State) : (s.acceptRun).pending = s.pending := by
  unfold State.acceptRun; (try dsimp only) <;> (repeat' split) <;> simp
@[simp] theorem acceptRun_zt (s : State) : (s.acceptRun).zt = s.zt := by
  unfold State.acceptRun; (try dsimp only) <;> (repeat' split) <;> simp
@[simp] theorem acceptRun_rs (s : State) : (s.acceptRun).rs = s.rs := by
  unfold State.acceptRun; (try dsimp only) <;> (repeat' split) <;> simp
@[simp] theorem acceptRun_freeCount (s : State) : (s.acceptRun).freeCount = s.freeCount := by
  unfold State.acceptRun; (try dsimp only) <;> (repeat' split) <;> simp

@[simp] theorem judgeRun_pending (s : State) : (s.judgeRun.1).pending = s.pending := by
  unfold State.judgeRun; (try dsimp only) <;> (repeat' split) <;> simp
@[simp] theorem judgeRun_zt (s : State) : (s.judgeRun.1).zt = s.zt := by
  unfold State.judgeRun; (try dsimp only) <;> (repeat' split) <;> simp
@[simp] theorem judgeRun_rs (s : State) : (s.judgeRun.1).rs = s.rs := by
  unfold State.judgeRun; (try dsimp only) <;> (repeat' split) <;> simp
@[simp] theorem judgeRun_freeCount (s : State) : (s.judgeRun.1).freeCount = s.freeCount := by
  unfold State.judgeRun; (try dsimp only) <;> (repeat' split) <;> simp

@[simp] theorem arriveIfReached_pending (s : State) : (s.arriveIfReached).pending = s.pending := by
  unfold State.arriveIfReached; (try dsimp only) <;> (repeat' split) <;> simp
@[simp] theorem arriveIfReached_cu (s : State) : (s.arriveIfReached).cu = s.cu := by
  unfold State.arriveIfReached; (try dsimp only) <;> (repeat' split) <;> simp
@[simp] theorem arriveIfReached_zt (s : State) : (s.arriveIfReached).zt = s.zt := by
  unfold State.arriveIfReached; (try dsimp only) <;> (repeat' split) <;> simp
@[simp] theorem arriveIfReached_rs (s : State) : (s.arriveIfReached).rs = s.rs := by
  unfold State.arriveIfReached; (try dsimp only) <;> (repeat' split) <;> simp
@[simp] theorem arriveIfReached_freeCount (s : State) : (s.arriveIfReached).freeCount = s.freeCount := by
  unfold State.arriveIfReached; (try dsimp only) <;> (repeat' split) <;> simp

@[simp] theorem resumeApproach_pending (s : State) : (s.resumeApproach).pending = s.pending := by
  unfold State.resumeApproach; (try dsimp only) <;> (repeat' split) <;> simp
@[simp] theorem resumeApproach_cu (s : State) : (s.resumeApproach).cu = s.cu := by
  unfold State.resumeApproach; (try dsimp only) <;> (repeat' split) <;> simp
@[simp] theorem resumeApproach_zt (s : State) : (s.resumeApproach).zt = s.zt := by
  unfold State.resumeApproach; (try dsimp only) <;> (repeat' split) <;> simp
@[simp] theorem resumeApproach_rs (s : State) : (s.resumeApproach).rs = s.rs := by
  unfold State.resumeApproach; (try dsimp only) <;> (repeat' split) <;> simp
@[simp] theorem resumeApproach_freeCount (s : State) : (s.resumeApproach).freeCount = s.freeCount := by
  unfold State.resumeApproach; (try dsimp only) <;> (repeat' split) <;> simp

@[simp] theorem reenter_pending (s : State) (r : HeldFrom) : (s.reenter r).pending = s.pending := by
  unfold State.reenter; (try dsimp only) <;> (repeat' split) <;> simp
@[simp] theorem reenter_cu (s : State) (r : HeldFrom) : (s.reenter r).cu = s.cu := by
  unfold State.reenter; (try dsimp only) <;> (repeat' split) <;> simp
@[simp] theorem reenter_zt (s : State) (r : HeldFrom) : (s.reenter r).zt = s.zt := by
  unfold State.reenter; (try dsimp only) <;> (repeat' split) <;> simp
@[simp] theorem reenter_rs (s : State) (r : HeldFrom) : (s.reenter r).rs = s.rs := by
  unfold State.reenter; (try dsimp only) <;> (repeat' split) <;> simp
@[simp] theorem reenter_freeCount (s : State) (r : HeldFrom) : (s.reenter r).freeCount = s.freeCount := by
  unfold State.reenter; (try dsimp only) <;> (repeat' split) <;> simp

@[simp] theorem acceptResume_pending (s : State) (r : HeldFrom) : (s.acceptResume r).pending = s.pending := by
  unfold State.acceptResume; (try dsimp only) <;> (repeat' split) <;> simp
@[simp] theorem acceptResume_cu (s : State) (r : HeldFrom) : (s.acceptResume r).cu = s.cu := by
  unfold State.acceptResume; (try dsimp only) <;> (repeat' split) <;> simp
@[simp] theorem acceptResume_zt (s : State) (r : HeldFrom) : (s.acceptResume r).zt = s.zt := by
  unfold State.acceptResume; (try dsimp only) <;> (repeat' split) <;> simp
@[simp] theorem acceptResume_rs (s : State) (r : HeldFrom) : (s.acceptResume r).rs = s.rs := by
  unfold State.acceptResume; (try dsimp only) <;> (repeat' split) <;> simp
@[simp] theorem acceptResume_freeCount (s : State) (r : HeldFrom) : (s.acceptResume r).freeCount = s.freeCount := by
  unfold State.acceptResume; (try dsimp only) <;> (repeat' split) <;> simp

@[simp] theorem judgeResume_pending (s : State) : (s.judgeResume.1).pending = s.pending := by
  unfold State.judgeResume; (try dsimp only) <;> (repeat' split) <;> simp
@[simp] theorem judgeResume_cu (s : State) : (s.judgeResume.1).cu = s.cu := by
  unfold State.judgeResume; (try dsimp only) <;> (repeat' split) <;> simp
@[simp] theorem judgeResume_zt (s : State) : (s.judgeResume.1).zt = s.zt := by
  unfold State.judgeResume; (try dsimp only) <;> (repeat' split) <;> simp
@[simp] theorem judgeResume_rs (s : State) : (s.judgeResume.1).rs = s.rs := by
  unfold State.judgeResume; (try dsimp only) <;> (repeat' split) <;> simp
@[simp] theorem judgeResume_freeCount (s : State) : (s.judgeResume.1).freeCount = s.freeCount := by
  unfold State.judgeResume; (try dsimp only) <;> (repeat' split) <;> simp

@[simp] theorem takeRun_pending (s : State) : (s.takeRun.1).pending = s.pending := by
  unfold State.takeRun; (try dsimp only) <;> (repeat' split) <;> simp
@[simp] theorem takeRun_zt (s : State) : (s.takeRun.1).zt = s.zt := by
  unfold State.takeRun; (try dsimp only) <;> (repeat' split) <;> simp
@[simp] theorem takeRun_rs (s : State) : (s.takeRun.1).rs = s.rs := by
  unfold State.takeRun; (try dsimp only) <;> (repeat' split) <;> simp
@[simp] theorem takeRun_freeCount (s : State) : (s.takeRun.1).freeCount = s.freeCount := by
  unfold State.takeRun; (try dsimp only) <;> (repeat' split) <;> simp

@[simp] theorem takeHold_pending (s : State) (port field : Port) (w : ControlWord) : (s.takeHold port field w).pending = s.pending := by
  unfold State.takeHold; (try dsimp only) <;> (repeat' split) <;> simp
@[simp] theorem takeHold_cu (s : State) (port field : Port) (w : ControlWord) : (s.takeHold port field w).cu = s.cu := by
  unfold State.takeHold; (try dsimp only) <;> (repeat' split) <;> simp
@[simp] theorem takeHold_zt (s : State) (port field : Port) (w : ControlWord) : (s.takeHold port field w).zt = s.zt := by
  unfold State.takeHold; (try dsimp only) <;> (repeat' split) <;> simp
@[simp] theorem takeHold_rs (s : State) (port field : Port) (w : ControlWord) : (s.takeHold port field w).rs = s.rs := by
  unfold State.takeHold; (try dsimp only) <;> (repeat' split) <;> simp
@[simp] theorem takeHold_freeCount (s : State) (port field : Port) (w : ControlWord) : (s.takeHold port field w).freeCount = s.freeCount := by
  unfold State.takeHold; (try dsimp only) <;> (repeat' split) <;> simp

@[simp] theorem takeAbort_pending (s : State) (port : Port) (w : ControlWord) : (s.takeAbort port w).pending = s.pending := by
  unfold State.takeAbort; (try dsimp only) <;> (repeat' split) <;> simp
@[simp] theorem takeAbort_cu (s : State) (port : Port) (w : ControlWord) : (s.takeAbort port w).cu = s.cu := by
  unfold State.takeAbort; (try dsimp only) <;> (repeat' split) <;> simp
@[simp] theorem takeAbort_zt (s : State) (port : Port) (w : ControlWord) : (s.takeAbort port w).zt = s.zt := by
  unfold State.takeAbort; (try dsimp only) <;> (repeat' split) <;> simp
@[simp] theorem takeAbort_rs (s : State) (port : Port) (w : ControlWord) : (s.takeAbort port w).rs = s.rs := by
  unfold State.takeAbort; (try dsimp only) <;> (repeat' split) <;> simp
@[simp] theorem takeAbort_freeCount (s : State) (port : Port) (w : ControlWord) : (s.takeAbort port w).freeCount = s.freeCount := by
  unfold State.takeAbort; (try dsimp only) <;> (repeat' split) <;> simp

@[simp] theorem takeKeepOn_pending (s : State) (port : Port) (w : ControlWord) : (s.takeKeepOn port w).pending = s.pending := by
  unfold State.takeKeepOn; (try dsimp only) <;> (repeat' split) <;> simp
@[simp] theorem takeKeepOn_cu (s : State) (port : Port) (w : ControlWord) : (s.takeKeepOn port w).cu = s.cu := by
  unfold State.takeKeepOn; (try dsimp only) <;> (repeat' split) <;> simp
@[simp] theorem takeKeepOn_zt (s : State) (port : Port) (w : ControlWord) : (s.takeKeepOn port w).zt = s.zt := by
  unfold State.takeKeepOn; (try dsimp only) <;> (repeat' split) <;> simp
@[simp] theorem takeKeepOn_rs (s : State) (port : Port) (w : ControlWord) : (s.takeKeepOn port w).rs = s.rs := by
  unfold State.takeKeepOn; (try dsimp only) <;> (repeat' split) <;> simp
@[simp] theorem takeKeepOn_pe (s : State) (port : Port) (w : ControlWord) : (s.takeKeepOn port w).pe = s.pe := by
  unfold State.takeKeepOn; (try dsimp only) <;> (repeat' split) <;> simp
@[simp] theorem takeKeepOn_sq (s : State) (port : Port) (w : ControlWord) : (s.takeKeepOn port w).sq = s.sq := by
  unfold State.takeKeepOn; (try dsimp only) <;> (repeat' split) <;> simp
@[simp] theorem takeKeepOn_stk (s : State) (port : Port) (w : ControlWord) : (s.takeKeepOn port w).stk = s.stk := by
  unfold State.takeKeepOn; (try dsimp only) <;> (repeat' split) <;> simp
@[simp] theorem takeKeepOn_lu (s : State) (port : Port) (w : ControlWord) : (s.takeKeepOn port w).lu = s.lu := by
  unfold State.takeKeepOn; (try dsimp only) <;> (repeat' split) <;> simp
@[simp] theorem takeKeepOn_freeCount (s : State) (port : Port) (w : ControlWord) : (s.takeKeepOn port w).freeCount = s.freeCount := by
  unfold State.takeKeepOn; (try dsimp only) <;> (repeat' split) <;> simp

@[simp] theorem takeShared_pending (s : State) (port : Port) (w : ControlWord) : (s.takeShared port w).pending = s.pending := by
  unfold State.takeShared; (try dsimp only) <;> (repeat' split) <;> simp
@[simp] theorem takeShared_cu (s : State) (port : Port) (w : ControlWord) : (s.takeShared port w).cu = s.cu := by
  unfold State.takeShared; (try dsimp only) <;> (repeat' split) <;> simp
@[simp] theorem takeShared_zt (s : State) (port : Port) (w : ControlWord) : (s.takeShared port w).zt = s.zt := by
  unfold State.takeShared; (try dsimp only) <;> (repeat' split) <;> simp
@[simp] theorem takeShared_rs (s : State) (port : Port) (w : ControlWord) : (s.takeShared port w).rs = s.rs := by
  unfold State.takeShared; (try dsimp only) <;> (repeat' split) <;> simp
@[simp] theorem takeShared_freeCount (s : State) (port : Port) (w : ControlWord) : (s.takeShared port w).freeCount = s.freeCount := by
  unfold State.takeShared; (try dsimp only) <;> (repeat' split) <;> simp

@[simp] theorem takeClearField_pending (s : State) (w : ControlWord) : ((s.takeClearField w).1).pending = s.pending := by
  unfold State.takeClearField; (try dsimp only) <;> (repeat' split) <;> simp
@[simp] theorem takeClearField_cu (s : State) (w : ControlWord) : ((s.takeClearField w).1).cu = s.cu := by
  unfold State.takeClearField; (try dsimp only) <;> (repeat' split) <;> simp
@[simp] theorem takeClearField_zt (s : State) (w : ControlWord) : ((s.takeClearField w).1).zt = s.zt := by
  unfold State.takeClearField; (try dsimp only) <;> (repeat' split) <;> simp
@[simp] theorem takeClearField_rs (s : State) (w : ControlWord) : ((s.takeClearField w).1).rs = s.rs := by
  unfold State.takeClearField; (try dsimp only) <;> (repeat' split) <;> simp
@[simp] theorem takeClearField_freeCount (s : State) (w : ControlWord) : ((s.takeClearField w).1).freeCount = s.freeCount := by
  unfold State.takeClearField; (try dsimp only) <;> (repeat' split) <;> simp

@[simp] theorem takeRunField_pending (s : State) (w : ControlWord) : ((s.takeRunField w).1).pending = s.pending := by
  unfold State.takeRunField; (try dsimp only) <;> (repeat' split) <;> simp
@[simp] theorem takeRunField_zt (s : State) (w : ControlWord) : ((s.takeRunField w).1).zt = s.zt := by
  unfold State.takeRunField; (try dsimp only) <;> (repeat' split) <;> simp
@[simp] theorem takeRunField_rs (s : State) (w : ControlWord) : ((s.takeRunField w).1).rs = s.rs := by
  unfold State.takeRunField; (try dsimp only) <;> (repeat' split) <;> simp
@[simp] theorem takeRunField_freeCount (s : State) (w : ControlWord) : ((s.takeRunField w).1).freeCount = s.freeCount := by
  unfold State.takeRunField; (try dsimp only) <;> (repeat' split) <;> simp

@[simp] theorem answerControl_pending (s : State) (tag : Byte) (c r : FieldResult) : (s.answerControl tag c r).pending = s.pending := by
  unfold State.answerControl; (try dsimp only) <;> (repeat' split) <;> simp
@[simp] theorem answerControl_cu (s : State) (tag : Byte) (c r : FieldResult) : (s.answerControl tag c r).cu = s.cu := by
  unfold State.answerControl; (try dsimp only) <;> (repeat' split) <;> simp
@[simp] theorem answerControl_zt (s : State) (tag : Byte) (c r : FieldResult) : (s.answerControl tag c r).zt = s.zt := by
  unfold State.answerControl; (try dsimp only) <;> (repeat' split) <;> simp
@[simp] theorem answerControl_rs (s : State) (tag : Byte) (c r : FieldResult) : (s.answerControl tag c r).rs = s.rs := by
  unfold State.answerControl; (try dsimp only) <;> (repeat' split) <;> simp
@[simp] theorem answerControl_pe (s : State) (tag : Byte) (c r : FieldResult) : (s.answerControl tag c r).pe = s.pe := by
  unfold State.answerControl; (try dsimp only) <;> (repeat' split) <;> simp
@[simp] theorem answerControl_sq (s : State) (tag : Byte) (c r : FieldResult) : (s.answerControl tag c r).sq = s.sq := by
  unfold State.answerControl; (try dsimp only) <;> (repeat' split) <;> simp
@[simp] theorem answerControl_stk (s : State) (tag : Byte) (c r : FieldResult) : (s.answerControl tag c r).stk = s.stk := by
  unfold State.answerControl; (try dsimp only) <;> (repeat' split) <;> simp
@[simp] theorem answerControl_lu (s : State) (tag : Byte) (c r : FieldResult) : (s.answerControl tag c r).lu = s.lu := by
  unfold State.answerControl; (try dsimp only) <;> (repeat' split) <;> simp
@[simp] theorem answerControl_freeCount (s : State) (tag : Byte) (c r : FieldResult) : (s.answerControl tag c r).freeCount = s.freeCount := by
  unfold State.answerControl; (try dsimp only) <;> (repeat' split) <;> simp

@[simp] theorem superviseWord_pending (s : State) (tag : Byte) (w : ControlWord) : (s.superviseWord tag w).pending = s.pending := by
  unfold State.superviseWord; (try dsimp only) <;> (repeat' split) <;> simp
@[simp] theorem superviseWord_zt (s : State) (tag : Byte) (w : ControlWord) : (s.superviseWord tag w).zt = s.zt := by
  unfold State.superviseWord; (try dsimp only) <;> (repeat' split) <;> simp
@[simp] theorem superviseWord_rs (s : State) (tag : Byte) (w : ControlWord) : (s.superviseWord tag w).rs = s.rs := by
  unfold State.superviseWord; (try dsimp only) <;> (repeat' split) <;> simp
@[simp] theorem superviseWord_freeCount (s : State) (tag : Byte) (w : ControlWord) : (s.superviseWord tag w).freeCount = s.freeCount := by
  unfold State.superviseWord; (try dsimp only) <;> (repeat' split) <;> simp

@[simp] theorem judgeControl_pending (s : State) (tag : Byte) (w : ControlWord) : (s.judgeControl tag w).pending = s.pending := by
  unfold State.judgeControl; (try dsimp only) <;> (repeat' split) <;> simp
@[simp] theorem judgeControl_zt (s : State) (tag : Byte) (w : ControlWord) : (s.judgeControl tag w).zt = s.zt := by
  unfold State.judgeControl; (try dsimp only) <;> (repeat' split) <;> simp
@[simp] theorem judgeControl_rs (s : State) (tag : Byte) (w : ControlWord) : (s.judgeControl tag w).rs = s.rs := by
  unfold State.judgeControl; (try dsimp only) <;> (repeat' split) <;> simp
@[simp] theorem judgeControl_freeCount (s : State) (tag : Byte) (w : ControlWord) : (s.judgeControl tag w).freeCount = s.freeCount := by
  unfold State.judgeControl; (try dsimp only) <;> (repeat' split) <;> simp

@[simp] theorem takeControl_pending (s : State) (port : Port) (tag : Byte) (w : ControlWord) : (s.takeControl port tag w).pending = s.pending := by
  unfold State.takeControl; (try dsimp only) <;> (repeat' split) <;> simp
@[simp] theorem takeControl_zt (s : State) (port : Port) (tag : Byte) (w : ControlWord) : (s.takeControl port tag w).zt = s.zt := by
  unfold State.takeControl; (try dsimp only) <;> (repeat' split) <;> simp
@[simp] theorem takeControl_rs (s : State) (port : Port) (tag : Byte) (w : ControlWord) : (s.takeControl port tag w).rs = s.rs := by
  unfold State.takeControl; (try dsimp only) <;> (repeat' split) <;> simp
@[simp] theorem takeControl_freeCount (s : State) (port : Port) (tag : Byte) (w : ControlWord) : (s.takeControl port tag w).freeCount = s.freeCount := by
  unfold State.takeControl; (try dsimp only) <;> (repeat' split) <;> simp

@[simp] theorem deliverFirst_pending (s : State) (k : BufferKind) (l : List (List Byte)) : ((s.deliverFirst k l).1).pending = s.pending := by
  unfold State.deliverFirst; (try dsimp only) <;> (repeat' split) <;> simp
@[simp] theorem deliverFirst_cu (s : State) (k : BufferKind) (l : List (List Byte)) : ((s.deliverFirst k l).1).cu = s.cu := by
  unfold State.deliverFirst; (try dsimp only) <;> (repeat' split) <;> simp
@[simp] theorem deliverFirst_zt (s : State) (k : BufferKind) (l : List (List Byte)) : ((s.deliverFirst k l).1).zt = s.zt := by
  unfold State.deliverFirst; (try dsimp only) <;> (repeat' split) <;> simp
@[simp] theorem deliverFirst_rs (s : State) (k : BufferKind) (l : List (List Byte)) : ((s.deliverFirst k l).1).rs = s.rs := by
  unfold State.deliverFirst; (try dsimp only) <;> (repeat' split) <;> simp
@[simp] theorem deliverFirst_pe (s : State) (k : BufferKind) (l : List (List Byte)) : ((s.deliverFirst k l).1).pe = s.pe := by
  unfold State.deliverFirst; (try dsimp only) <;> (repeat' split) <;> simp
@[simp] theorem deliverFirst_sq (s : State) (k : BufferKind) (l : List (List Byte)) : ((s.deliverFirst k l).1).sq = s.sq := by
  unfold State.deliverFirst; (try dsimp only) <;> (repeat' split) <;> simp
@[simp] theorem deliverFirst_stk (s : State) (k : BufferKind) (l : List (List Byte)) : ((s.deliverFirst k l).1).stk = s.stk := by
  unfold State.deliverFirst; (try dsimp only) <;> (repeat' split) <;> simp
@[simp] theorem deliverFirst_lu (s : State) (k : BufferKind) (l : List (List Byte)) : ((s.deliverFirst k l).1).lu = s.lu := by
  unfold State.deliverFirst; (try dsimp only) <;> (repeat' split) <;> simp
@[simp] theorem deliverFirst_freeCount (s : State) (k : BufferKind) (l : List (List Byte)) : ((s.deliverFirst k l).1).freeCount = s.freeCount := by
  unfold State.deliverFirst; (try dsimp only) <;> (repeat' split) <;> simp

@[simp] theorem deliverLater_pending (s : State) (k : BufferKind) (n : Nat) : ((s.deliverLater k n).1).pending = s.pending := by
  unfold State.deliverLater; (try dsimp only) <;> (repeat' split) <;> simp
@[simp] theorem deliverLater_cu (s : State) (k : BufferKind) (n : Nat) : ((s.deliverLater k n).1).cu = s.cu := by
  unfold State.deliverLater; (try dsimp only) <;> (repeat' split) <;> simp
@[simp] theorem deliverLater_zt (s : State) (k : BufferKind) (n : Nat) : ((s.deliverLater k n).1).zt = s.zt := by
  unfold State.deliverLater; (try dsimp only) <;> (repeat' split) <;> simp
@[simp] theorem deliverLater_rs (s : State) (k : BufferKind) (n : Nat) : ((s.deliverLater k n).1).rs = s.rs := by
  unfold State.deliverLater; (try dsimp only) <;> (repeat' split) <;> simp
@[simp] theorem deliverLater_pe (s : State) (k : BufferKind) (n : Nat) : ((s.deliverLater k n).1).pe = s.pe := by
  unfold State.deliverLater; (try dsimp only) <;> (repeat' split) <;> simp
@[simp] theorem deliverLater_sq (s : State) (k : BufferKind) (n : Nat) : ((s.deliverLater k n).1).sq = s.sq := by
  unfold State.deliverLater; (try dsimp only) <;> (repeat' split) <;> simp
@[simp] theorem deliverLater_stk (s : State) (k : BufferKind) (n : Nat) : ((s.deliverLater k n).1).stk = s.stk := by
  unfold State.deliverLater; (try dsimp only) <;> (repeat' split) <;> simp
@[simp] theorem deliverLater_lu (s : State) (k : BufferKind) (n : Nat) : ((s.deliverLater k n).1).lu = s.lu := by
  unfold State.deliverLater; (try dsimp only) <;> (repeat' split) <;> simp
@[simp] theorem deliverLater_lp (s : State) (k : BufferKind) (n : Nat) : ((s.deliverLater k n).1).lp = s.lp := by
  unfold State.deliverLater; (try dsimp only) <;> (repeat' split) <;> simp
@[simp] theorem deliverLater_freeCount (s : State) (k : BufferKind) (n : Nat) : ((s.deliverLater k n).1).freeCount = s.freeCount := by
  unfold State.deliverLater; (try dsimp only) <;> (repeat' split) <;> simp

@[simp] theorem setShadow_pending (s : State) (b : Bank) : (s.setShadow b).pending = s.pending := by
  unfold State.setShadow; (try dsimp only) <;> (repeat' split) <;> simp
@[simp] theorem setShadow_cu (s : State) (b : Bank) : (s.setShadow b).cu = s.cu := by
  unfold State.setShadow; (try dsimp only) <;> (repeat' split) <;> simp
@[simp] theorem setShadow_rs (s : State) (b : Bank) : (s.setShadow b).rs = s.rs := by
  unfold State.setShadow; (try dsimp only) <;> (repeat' split) <;> simp
@[simp] theorem setShadow_pe (s : State) (b : Bank) : (s.setShadow b).pe = s.pe := by
  unfold State.setShadow; (try dsimp only) <;> (repeat' split) <;> simp
@[simp] theorem setShadow_sq (s : State) (b : Bank) : (s.setShadow b).sq = s.sq := by
  unfold State.setShadow; (try dsimp only) <;> (repeat' split) <;> simp
@[simp] theorem setShadow_stk (s : State) (b : Bank) : (s.setShadow b).stk = s.stk := by
  unfold State.setShadow; (try dsimp only) <;> (repeat' split) <;> simp
@[simp] theorem setShadow_lu (s : State) (b : Bank) : (s.setShadow b).lu = s.lu := by
  unfold State.setShadow; (try dsimp only) <;> (repeat' split) <;> simp
@[simp] theorem setShadow_lp (s : State) (b : Bank) : (s.setShadow b).lp = s.lp := by
  unfold State.setShadow; (try dsimp only) <;> (repeat' split) <;> simp
@[simp] theorem setShadow_freeCount (s : State) (b : Bank) : (s.setShadow b).freeCount = s.freeCount := by
  unfold State.setShadow; (try dsimp only) <;> (repeat' split) <;> simp

@[simp] theorem setStaging_pending (s : State) (v : Option HeaderPart1) : (s.setStaging v).pending = s.pending := by
  unfold State.setStaging; (try dsimp only) <;> (repeat' split) <;> simp
@[simp] theorem setStaging_cu (s : State) (v : Option HeaderPart1) : (s.setStaging v).cu = s.cu := by
  unfold State.setStaging; (try dsimp only) <;> (repeat' split) <;> simp
@[simp] theorem setStaging_zt (s : State) (v : Option HeaderPart1) : (s.setStaging v).zt = s.zt := by
  unfold State.setStaging; (try dsimp only) <;> (repeat' split) <;> simp
@[simp] theorem setStaging_rs (s : State) (v : Option HeaderPart1) : (s.setStaging v).rs = s.rs := by
  unfold State.setStaging; (try dsimp only) <;> (repeat' split) <;> simp
@[simp] theorem setStaging_pe (s : State) (v : Option HeaderPart1) : (s.setStaging v).pe = s.pe := by
  unfold State.setStaging; (try dsimp only) <;> (repeat' split) <;> simp
@[simp] theorem setStaging_sq (s : State) (v : Option HeaderPart1) : (s.setStaging v).sq = s.sq := by
  unfold State.setStaging; (try dsimp only) <;> (repeat' split) <;> simp
@[simp] theorem setStaging_stk (s : State) (v : Option HeaderPart1) : (s.setStaging v).stk = s.stk := by
  unfold State.setStaging; (try dsimp only) <;> (repeat' split) <;> simp
@[simp] theorem setStaging_lu (s : State) (v : Option HeaderPart1) : (s.setStaging v).lu = s.lu := by
  unfold State.setStaging; (try dsimp only) <;> (repeat' split) <;> simp
@[simp] theorem setStaging_freeCount (s : State) (v : Option HeaderPart1) : (s.setStaging v).freeCount = s.freeCount := by
  unfold State.setStaging; (try dsimp only) <;> (repeat' split) <;> simp

@[simp] theorem putHeader_pending (s : State) (h : Option RecipeHeader) : (s.putHeader h).pending = s.pending := by
  unfold State.putHeader; (try dsimp only) <;> (repeat' split) <;> simp
@[simp] theorem putHeader_cu (s : State) (h : Option RecipeHeader) : (s.putHeader h).cu = s.cu := by
  unfold State.putHeader; (try dsimp only) <;> (repeat' split) <;> simp
@[simp] theorem putHeader_rs (s : State) (h : Option RecipeHeader) : (s.putHeader h).rs = s.rs := by
  unfold State.putHeader; (try dsimp only) <;> (repeat' split) <;> simp
@[simp] theorem putHeader_pe (s : State) (h : Option RecipeHeader) : (s.putHeader h).pe = s.pe := by
  unfold State.putHeader; (try dsimp only) <;> (repeat' split) <;> simp
@[simp] theorem putHeader_sq (s : State) (h : Option RecipeHeader) : (s.putHeader h).sq = s.sq := by
  unfold State.putHeader; (try dsimp only) <;> (repeat' split) <;> simp
@[simp] theorem putHeader_stk (s : State) (h : Option RecipeHeader) : (s.putHeader h).stk = s.stk := by
  unfold State.putHeader; (try dsimp only) <;> (repeat' split) <;> simp
@[simp] theorem putHeader_lu (s : State) (h : Option RecipeHeader) : (s.putHeader h).lu = s.lu := by
  unfold State.putHeader; (try dsimp only) <;> (repeat' split) <;> simp
@[simp] theorem putHeader_lp (s : State) (h : Option RecipeHeader) : (s.putHeader h).lp = s.lp := by
  unfold State.putHeader; (try dsimp only) <;> (repeat' split) <;> simp
@[simp] theorem putHeader_freeCount (s : State) (h : Option RecipeHeader) : (s.putHeader h).freeCount = s.freeCount := by
  unfold State.putHeader; (try dsimp only) <;> (repeat' split) <;> simp

@[simp] theorem writeHeader_pending (s : State) (w : HeaderWrite) : ((State.writeHeader w s).1).pending = s.pending := by
  unfold State.writeHeader; (try dsimp only) <;> (repeat' split) <;> simp
@[simp] theorem writeHeader_cu (s : State) (w : HeaderWrite) : ((State.writeHeader w s).1).cu = s.cu := by
  unfold State.writeHeader; (try dsimp only) <;> (repeat' split) <;> simp
@[simp] theorem writeHeader_rs (s : State) (w : HeaderWrite) : ((State.writeHeader w s).1).rs = s.rs := by
  unfold State.writeHeader; (try dsimp only) <;> (repeat' split) <;> simp
@[simp] theorem writeHeader_pe (s : State) (w : HeaderWrite) : ((State.writeHeader w s).1).pe = s.pe := by
  unfold State.writeHeader; (try dsimp only) <;> (repeat' split) <;> simp
@[simp] theorem writeHeader_sq (s : State) (w : HeaderWrite) : ((State.writeHeader w s).1).sq = s.sq := by
  unfold State.writeHeader; (try dsimp only) <;> (repeat' split) <;> simp
@[simp] theorem writeHeader_stk (s : State) (w : HeaderWrite) : ((State.writeHeader w s).1).stk = s.stk := by
  unfold State.writeHeader; (try dsimp only) <;> (repeat' split) <;> simp
@[simp] theorem writeHeader_lu (s : State) (w : HeaderWrite) : ((State.writeHeader w s).1).lu = s.lu := by
  unfold State.writeHeader; (try dsimp only) <;> (repeat' split) <;> simp
@[simp] theorem writeHeader_freeCount (s : State) (w : HeaderWrite) : ((State.writeHeader w s).1).freeCount = s.freeCount := by
  unfold State.writeHeader; (try dsimp only) <;> (repeat' split) <;> simp

@[simp] theorem writeZone_pending (s : State) (w : ZoneWrite) : ((State.writeZone w s).1).pending = s.pending := by
  unfold State.writeZone; (try dsimp only) <;> (repeat' split) <;> simp
@[simp] theorem writeZone_cu (s : State) (w : ZoneWrite) : ((State.writeZone w s).1).cu = s.cu := by
  unfold State.writeZone; (try dsimp only) <;> (repeat' split) <;> simp
@[simp] theorem writeZone_rs (s : State) (w : ZoneWrite) : ((State.writeZone w s).1).rs = s.rs := by
  unfold State.writeZone; (try dsimp only) <;> (repeat' split) <;> simp
@[simp] theorem writeZone_pe (s : State) (w : ZoneWrite) : ((State.writeZone w s).1).pe = s.pe := by
  unfold State.writeZone; (try dsimp only) <;> (repeat' split) <;> simp
@[simp] theorem writeZone_sq (s : State) (w : ZoneWrite) : ((State.writeZone w s).1).sq = s.sq := by
  unfold State.writeZone; (try dsimp only) <;> (repeat' split) <;> simp
@[simp] theorem writeZone_stk (s : State) (w : ZoneWrite) : ((State.writeZone w s).1).stk = s.stk := by
  unfold State.writeZone; (try dsimp only) <;> (repeat' split) <;> simp
@[simp] theorem writeZone_lu (s : State) (w : ZoneWrite) : ((State.writeZone w s).1).lu = s.lu := by
  unfold State.writeZone; (try dsimp only) <;> (repeat' split) <;> simp
@[simp] theorem writeZone_lp (s : State) (w : ZoneWrite) : ((State.writeZone w s).1).lp = s.lp := by
  unfold State.writeZone; (try dsimp only) <;> (repeat' split) <;> simp
@[simp] theorem writeZone_freeCount (s : State) (w : ZoneWrite) : ((State.writeZone w s).1).freeCount = s.freeCount := by
  unfold State.writeZone; (try dsimp only) <;> (repeat' split) <;> simp

@[simp] theorem readZone_pending (s : State) (r : ZoneRead) : ((State.readZone r s).1).pending = s.pending := by
  unfold State.readZone; (try dsimp only) <;> (repeat' split) <;> simp
@[simp] theorem readZone_cu (s : State) (r : ZoneRead) : ((State.readZone r s).1).cu = s.cu := by
  unfold State.readZone; (try dsimp only) <;> (repeat' split) <;> simp
@[simp] theorem readZone_zt (s : State) (r : ZoneRead) : ((State.readZone r s).1).zt = s.zt := by
  unfold State.readZone; (try dsimp only) <;> (repeat' split) <;> simp
@[simp] theorem readZone_rs (s : State) (r : ZoneRead) : ((State.readZone r s).1).rs = s.rs := by
  unfold State.readZone; (try dsimp only) <;> (repeat' split) <;> simp
@[simp] theorem readZone_pe (s : State) (r : ZoneRead) : ((State.readZone r s).1).pe = s.pe := by
  unfold State.readZone; (try dsimp only) <;> (repeat' split) <;> simp
@[simp] theorem readZone_sq (s : State) (r : ZoneRead) : ((State.readZone r s).1).sq = s.sq := by
  unfold State.readZone; (try dsimp only) <;> (repeat' split) <;> simp
@[simp] theorem readZone_stk (s : State) (r : ZoneRead) : ((State.readZone r s).1).stk = s.stk := by
  unfold State.readZone; (try dsimp only) <;> (repeat' split) <;> simp
@[simp] theorem readZone_lu (s : State) (r : ZoneRead) : ((State.readZone r s).1).lu = s.lu := by
  unfold State.readZone; (try dsimp only) <;> (repeat' split) <;> simp
@[simp] theorem readZone_freeCount (s : State) (r : ZoneRead) : ((State.readZone r s).1).freeCount = s.freeCount := by
  unfold State.readZone; (try dsimp only) <;> (repeat' split) <;> simp

@[simp] theorem commit_pending (s : State) (x : Unit) : ((State.commit x s).1).pending = s.pending := by
  unfold State.commit; (try dsimp only) <;> (repeat' split) <;> simp
@[simp] theorem commit_rs (s : State) (x : Unit) : ((State.commit x s).1).rs = s.rs := by
  unfold State.commit; (try dsimp only) <;> (repeat' split) <;> simp
@[simp] theorem commit_freeCount (s : State) (x : Unit) : ((State.commit x s).1).freeCount = s.freeCount := by
  unfold State.commit; (try dsimp only) <;> (repeat' split) <;> simp

@[simp] theorem abandon_pending (s : State) : (s.abandon).pending = s.pending := by
  unfold State.abandon; (try dsimp only) <;> (repeat' split) <;> simp
@[simp] theorem abandon_cu (s : State) : (s.abandon).cu = s.cu := by
  unfold State.abandon; (try dsimp only) <;> (repeat' split) <;> simp
@[simp] theorem abandon_zt (s : State) : (s.abandon).zt = s.zt := by
  unfold State.abandon; (try dsimp only) <;> (repeat' split) <;> simp
@[simp] theorem abandon_rs (s : State) : (s.abandon).rs = s.rs := by
  unfold State.abandon; (try dsimp only) <;> (repeat' split) <;> simp
@[simp] theorem abandon_pe (s : State) : (s.abandon).pe = s.pe := by
  unfold State.abandon; (try dsimp only) <;> (repeat' split) <;> simp
@[simp] theorem abandon_lu (s : State) : (s.abandon).lu = s.lu := by
  unfold State.abandon; (try dsimp only) <;> (repeat' split) <;> simp
@[simp] theorem abandon_lp (s : State) : (s.abandon).lp = s.lp := by
  unfold State.abandon; (try dsimp only) <;> (repeat' split) <;> simp
@[simp] theorem abandon_freeCount (s : State) : (s.abandon).freeCount = s.freeCount := by
  unfold State.abandon; (try dsimp only) <;> (repeat' split) <;> simp

@[simp] theorem disarm_pending (s : State) (x : Unit) : ((State.disarm x s).1).pending = s.pending := by
  unfold State.disarm; (try dsimp only) <;> (repeat' split) <;> simp
@[simp] theorem disarm_cu (s : State) (x : Unit) : ((State.disarm x s).1).cu = s.cu := by
  unfold State.disarm; (try dsimp only) <;> (repeat' split) <;> simp
@[simp] theorem disarm_zt (s : State) (x : Unit) : ((State.disarm x s).1).zt = s.zt := by
  unfold State.disarm; (try dsimp only) <;> (repeat' split) <;> simp
@[simp] theorem disarm_rs (s : State) (x : Unit) : ((State.disarm x s).1).rs = s.rs := by
  unfold State.disarm; (try dsimp only) <;> (repeat' split) <;> simp
@[simp] theorem disarm_freeCount (s : State) (x : Unit) : ((State.disarm x s).1).freeCount = s.freeCount := by
  unfold State.disarm; (try dsimp only) <;> (repeat' split) <;> simp

@[simp] theorem startOp_pending (s : State) (op : RsOp) (t : Nat) : (s.startOp op t).pending = s.pending := by
  unfold State.startOp; (try dsimp only) <;> (repeat' split) <;> simp
@[simp] theorem startOp_cu (s : State) (op : RsOp) (t : Nat) : (s.startOp op t).cu = s.cu := by
  unfold State.startOp; (try dsimp only) <;> (repeat' split) <;> simp
@[simp] theorem startOp_zt (s : State) (op : RsOp) (t : Nat) : (s.startOp op t).zt = s.zt := by
  unfold State.startOp; (try dsimp only) <;> (repeat' split) <;> simp
@[simp] theorem startOp_pe (s : State) (op : RsOp) (t : Nat) : (s.startOp op t).pe = s.pe := by
  unfold State.startOp; (try dsimp only) <;> (repeat' split) <;> simp
@[simp] theorem startOp_sq (s : State) (op : RsOp) (t : Nat) : (s.startOp op t).sq = s.sq := by
  unfold State.startOp; (try dsimp only) <;> (repeat' split) <;> simp
@[simp] theorem startOp_stk (s : State) (op : RsOp) (t : Nat) : (s.startOp op t).stk = s.stk := by
  unfold State.startOp; (try dsimp only) <;> (repeat' split) <;> simp
@[simp] theorem startOp_lu (s : State) (op : RsOp) (t : Nat) : (s.startOp op t).lu = s.lu := by
  unfold State.startOp; (try dsimp only) <;> (repeat' split) <;> simp
@[simp] theorem startOp_lp (s : State) (op : RsOp) (t : Nat) : (s.startOp op t).lp = s.lp := by
  unfold State.startOp; (try dsimp only) <;> (repeat' split) <;> simp
@[simp] theorem startOp_freeCount (s : State) (op : RsOp) (t : Nat) : (s.startOp op t).freeCount = s.freeCount := by
  unfold State.startOp; (try dsimp only) <;> (repeat' split) <;> simp

@[simp] theorem loadRecipe_pending (s : State) (n : Nat) : ((State.loadRecipe n s).1).pending = s.pending := by
  unfold State.loadRecipe; (try dsimp only) <;> (repeat' split) <;> simp
@[simp] theorem loadRecipe_cu (s : State) (n : Nat) : ((State.loadRecipe n s).1).cu = s.cu := by
  unfold State.loadRecipe; (try dsimp only) <;> (repeat' split) <;> simp
@[simp] theorem loadRecipe_zt (s : State) (n : Nat) : ((State.loadRecipe n s).1).zt = s.zt := by
  unfold State.loadRecipe; (try dsimp only) <;> (repeat' split) <;> simp
@[simp] theorem loadRecipe_pe (s : State) (n : Nat) : ((State.loadRecipe n s).1).pe = s.pe := by
  unfold State.loadRecipe; (try dsimp only) <;> (repeat' split) <;> simp
@[simp] theorem loadRecipe_sq (s : State) (n : Nat) : ((State.loadRecipe n s).1).sq = s.sq := by
  unfold State.loadRecipe; (try dsimp only) <;> (repeat' split) <;> simp
@[simp] theorem loadRecipe_stk (s : State) (n : Nat) : ((State.loadRecipe n s).1).stk = s.stk := by
  unfold State.loadRecipe; (try dsimp only) <;> (repeat' split) <;> simp
@[simp] theorem loadRecipe_lu (s : State) (n : Nat) : ((State.loadRecipe n s).1).lu = s.lu := by
  unfold State.loadRecipe; (try dsimp only) <;> (repeat' split) <;> simp
@[simp] theorem loadRecipe_lp (s : State) (n : Nat) : ((State.loadRecipe n s).1).lp = s.lp := by
  unfold State.loadRecipe; (try dsimp only) <;> (repeat' split) <;> simp
@[simp] theorem loadRecipe_freeCount (s : State) (n : Nat) : ((State.loadRecipe n s).1).freeCount = s.freeCount := by
  unfold State.loadRecipe; (try dsimp only) <;> (repeat' split) <;> simp

@[simp] theorem storeRecipe_pending (s : State) (n : Nat) : ((State.storeRecipe n s).1).pending = s.pending := by
  unfold State.storeRecipe; (try dsimp only) <;> (repeat' split) <;> simp
@[simp] theorem storeRecipe_cu (s : State) (n : Nat) : ((State.storeRecipe n s).1).cu = s.cu := by
  unfold State.storeRecipe; (try dsimp only) <;> (repeat' split) <;> simp
@[simp] theorem storeRecipe_zt (s : State) (n : Nat) : ((State.storeRecipe n s).1).zt = s.zt := by
  unfold State.storeRecipe; (try dsimp only) <;> (repeat' split) <;> simp
@[simp] theorem storeRecipe_pe (s : State) (n : Nat) : ((State.storeRecipe n s).1).pe = s.pe := by
  unfold State.storeRecipe; (try dsimp only) <;> (repeat' split) <;> simp
@[simp] theorem storeRecipe_sq (s : State) (n : Nat) : ((State.storeRecipe n s).1).sq = s.sq := by
  unfold State.storeRecipe; (try dsimp only) <;> (repeat' split) <;> simp
@[simp] theorem storeRecipe_stk (s : State) (n : Nat) : ((State.storeRecipe n s).1).stk = s.stk := by
  unfold State.storeRecipe; (try dsimp only) <;> (repeat' split) <;> simp
@[simp] theorem storeRecipe_lu (s : State) (n : Nat) : ((State.storeRecipe n s).1).lu = s.lu := by
  unfold State.storeRecipe; (try dsimp only) <;> (repeat' split) <;> simp
@[simp] theorem storeRecipe_lp (s : State) (n : Nat) : ((State.storeRecipe n s).1).lp = s.lp := by
  unfold State.storeRecipe; (try dsimp only) <;> (repeat' split) <;> simp
@[simp] theorem storeRecipe_freeCount (s : State) (n : Nat) : ((State.storeRecipe n s).1).freeCount = s.freeCount := by
  unfold State.storeRecipe; (try dsimp only) <;> (repeat' split) <;> simp

@[simp] theorem eraseRecipe_pending (s : State) (n : Nat) : ((State.eraseRecipe n s).1).pending = s.pending := by
  unfold State.eraseRecipe; (try dsimp only) <;> (repeat' split) <;> simp
@[simp] theorem eraseRecipe_cu (s : State) (n : Nat) : ((State.eraseRecipe n s).1).cu = s.cu := by
  unfold State.eraseRecipe; (try dsimp only) <;> (repeat' split) <;> simp
@[simp] theorem eraseRecipe_zt (s : State) (n : Nat) : ((State.eraseRecipe n s).1).zt = s.zt := by
  unfold State.eraseRecipe; (try dsimp only) <;> (repeat' split) <;> simp
@[simp] theorem eraseRecipe_pe (s : State) (n : Nat) : ((State.eraseRecipe n s).1).pe = s.pe := by
  unfold State.eraseRecipe; (try dsimp only) <;> (repeat' split) <;> simp
@[simp] theorem eraseRecipe_sq (s : State) (n : Nat) : ((State.eraseRecipe n s).1).sq = s.sq := by
  unfold State.eraseRecipe; (try dsimp only) <;> (repeat' split) <;> simp
@[simp] theorem eraseRecipe_stk (s : State) (n : Nat) : ((State.eraseRecipe n s).1).stk = s.stk := by
  unfold State.eraseRecipe; (try dsimp only) <;> (repeat' split) <;> simp
@[simp] theorem eraseRecipe_lu (s : State) (n : Nat) : ((State.eraseRecipe n s).1).lu = s.lu := by
  unfold State.eraseRecipe; (try dsimp only) <;> (repeat' split) <;> simp
@[simp] theorem eraseRecipe_lp (s : State) (n : Nat) : ((State.eraseRecipe n s).1).lp = s.lp := by
  unfold State.eraseRecipe; (try dsimp only) <;> (repeat' split) <;> simp
@[simp] theorem eraseRecipe_freeCount (s : State) (n : Nat) : ((State.eraseRecipe n s).1).freeCount = s.freeCount := by
  unfold State.eraseRecipe; (try dsimp only) <;> (repeat' split) <;> simp

@[simp] theorem writeOptions_pending (s : State) (w : OptionsWrite) : ((State.writeOptions w s).1).pending = s.pending := by
  unfold State.writeOptions; (try dsimp only) <;> (repeat' split) <;> simp
@[simp] theorem writeOptions_cu (s : State) (w : OptionsWrite) : ((State.writeOptions w s).1).cu = s.cu := by
  unfold State.writeOptions; (try dsimp only) <;> (repeat' split) <;> simp
@[simp] theorem writeOptions_zt (s : State) (w : OptionsWrite) : ((State.writeOptions w s).1).zt = s.zt := by
  unfold State.writeOptions; (try dsimp only) <;> (repeat' split) <;> simp
@[simp] theorem writeOptions_pe (s : State) (w : OptionsWrite) : ((State.writeOptions w s).1).pe = s.pe := by
  unfold State.writeOptions; (try dsimp only) <;> (repeat' split) <;> simp
@[simp] theorem writeOptions_sq (s : State) (w : OptionsWrite) : ((State.writeOptions w s).1).sq = s.sq := by
  unfold State.writeOptions; (try dsimp only) <;> (repeat' split) <;> simp
@[simp] theorem writeOptions_stk (s : State) (w : OptionsWrite) : ((State.writeOptions w s).1).stk = s.stk := by
  unfold State.writeOptions; (try dsimp only) <;> (repeat' split) <;> simp
@[simp] theorem writeOptions_lu (s : State) (w : OptionsWrite) : ((State.writeOptions w s).1).lu = s.lu := by
  unfold State.writeOptions; (try dsimp only) <;> (repeat' split) <;> simp
@[simp] theorem writeOptions_lp (s : State) (w : OptionsWrite) : ((State.writeOptions w s).1).lp = s.lp := by
  unfold State.writeOptions; (try dsimp only) <;> (repeat' split) <;> simp
@[simp] theorem writeOptions_freeCount (s : State) (w : OptionsWrite) : ((State.writeOptions w s).1).freeCount = s.freeCount := by
  unfold State.writeOptions; (try dsimp only) <;> (repeat' split) <;> simp

@[simp] theorem endOp_pending (s : State) : (s.endOp).pending = s.pending := by
  unfold State.endOp; (try dsimp only) <;> (repeat' split) <;> simp
@[simp] theorem endOp_cu (s : State) : (s.endOp).cu = s.cu := by
  unfold State.endOp; (try dsimp only) <;> (repeat' split) <;> simp
@[simp] theorem endOp_zt (s : State) : (s.endOp).zt = s.zt := by
  unfold State.endOp; (try dsimp only) <;> (repeat' split) <;> simp
@[simp] theorem endOp_pe (s : State) : (s.endOp).pe = s.pe := by
  unfold State.endOp; (try dsimp only) <;> (repeat' split) <;> simp
@[simp] theorem endOp_sq (s : State) : (s.endOp).sq = s.sq := by
  unfold State.endOp; (try dsimp only) <;> (repeat' split) <;> simp
@[simp] theorem endOp_stk (s : State) : (s.endOp).stk = s.stk := by
  unfold State.endOp; (try dsimp only) <;> (repeat' split) <;> simp
@[simp] theorem endOp_lu (s : State) : (s.endOp).lu = s.lu := by
  unfold State.endOp; (try dsimp only) <;> (repeat' split) <;> simp
@[simp] theorem endOp_lp (s : State) : (s.endOp).lp = s.lp := by
  unfold State.endOp; (try dsimp only) <;> (repeat' split) <;> simp
@[simp] theorem endOp_freeCount (s : State) : (s.endOp).freeCount = s.freeCount := by
  unfold State.endOp; (try dsimp only) <;> (repeat' split) <;> simp

@[simp] theorem setStartUp_pending (s : State) (v : StartUpStatus) : (s.setStartUp v).pending = s.pending := by
  unfold State.setStartUp; (try dsimp only) <;> (repeat' split) <;> simp
@[simp] theorem setStartUp_cu (s : State) (v : StartUpStatus) : (s.setStartUp v).cu = s.cu := by
  unfold State.setStartUp; (try dsimp only) <;> (repeat' split) <;> simp
@[simp] theorem setStartUp_zt (s : State) (v : StartUpStatus) : (s.setStartUp v).zt = s.zt := by
  unfold State.setStartUp; (try dsimp only) <;> (repeat' split) <;> simp
@[simp] theorem setStartUp_pe (s : State) (v : StartUpStatus) : (s.setStartUp v).pe = s.pe := by
  unfold State.setStartUp; (try dsimp only) <;> (repeat' split) <;> simp
@[simp] theorem setStartUp_sq (s : State) (v : StartUpStatus) : (s.setStartUp v).sq = s.sq := by
  unfold State.setStartUp; (try dsimp only) <;> (repeat' split) <;> simp
@[simp] theorem setStartUp_stk (s : State) (v : StartUpStatus) : (s.setStartUp v).stk = s.stk := by
  unfold State.setStartUp; (try dsimp only) <;> (repeat' split) <;> simp
@[simp] theorem setStartUp_lu (s : State) (v : StartUpStatus) : (s.setStartUp v).lu = s.lu := by
  unfold State.setStartUp; (try dsimp only) <;> (repeat' split) <;> simp
@[simp] theorem setStartUp_lp (s : State) (v : StartUpStatus) : (s.setStartUp v).lp = s.lp := by
  unfold State.setStartUp; (try dsimp only) <;> (repeat' split) <;> simp
@[simp] theorem setStartUp_freeCount (s : State) (v : StartUpStatus) : (s.setStartUp v).freeCount = s.freeCount := by
  unfold State.setStartUp; (try dsimp only) <;> (repeat' split) <;> simp

@[simp] theorem commitStartUp_pending (s : State) : (s.commitStartUp).pending = s.pending := by
  unfold State.commitStartUp; (try dsimp only) <;> (repeat' split) <;> simp
@[simp] theorem commitStartUp_freeCount (s : State) : (s.commitStartUp).freeCount = s.freeCount := by
  unfold State.commitStartUp; (try dsimp only) <;> (repeat' split) <;> simp

@[simp] theorem copyImage_pending (s : State) (k : SlotNo) : (s.copyImage k).pending = s.pending := by
  unfold State.copyImage; (try dsimp only) <;> (repeat' split) <;> simp
@[simp] theorem copyImage_cu (s : State) (k : SlotNo) : (s.copyImage k).cu = s.cu := by
  unfold State.copyImage; (try dsimp only) <;> (repeat' split) <;> simp
@[simp] theorem copyImage_rs (s : State) (k : SlotNo) : (s.copyImage k).rs = s.rs := by
  unfold State.copyImage; (try dsimp only) <;> (repeat' split) <;> simp
@[simp] theorem copyImage_pe (s : State) (k : SlotNo) : (s.copyImage k).pe = s.pe := by
  unfold State.copyImage; (try dsimp only) <;> (repeat' split) <;> simp
@[simp] theorem copyImage_sq (s : State) (k : SlotNo) : (s.copyImage k).sq = s.sq := by
  unfold State.copyImage; (try dsimp only) <;> (repeat' split) <;> simp
@[simp] theorem copyImage_stk (s : State) (k : SlotNo) : (s.copyImage k).stk = s.stk := by
  unfold State.copyImage; (try dsimp only) <;> (repeat' split) <;> simp
@[simp] theorem copyImage_lu (s : State) (k : SlotNo) : (s.copyImage k).lu = s.lu := by
  unfold State.copyImage; (try dsimp only) <;> (repeat' split) <;> simp
@[simp] theorem copyImage_lp (s : State) (k : SlotNo) : (s.copyImage k).lp = s.lp := by
  unfold State.copyImage; (try dsimp only) <;> (repeat' split) <;> simp
@[simp] theorem copyImage_freeCount (s : State) (k : SlotNo) : (s.copyImage k).freeCount = s.freeCount := by
  unfold State.copyImage; (try dsimp only) <;> (repeat' split) <;> simp

@[simp] theorem completeLoad_pending (s : State) : (s.completeLoad).pending = s.pending := by
  unfold State.completeLoad; (try dsimp only) <;> (repeat' split) <;> simp
@[simp] theorem completeLoad_freeCount (s : State) : (s.completeLoad).freeCount = s.freeCount := by
  unfold State.completeLoad; (try dsimp only) <;> (repeat' split) <;> simp

@[simp] theorem completeStore_pending (s : State) : (s.completeStore).pending = s.pending := by
  unfold State.completeStore; (try dsimp only) <;> (repeat' split) <;> simp
@[simp] theorem completeStore_cu (s : State) : (s.completeStore).cu = s.cu := by
  unfold State.completeStore; (try dsimp only) <;> (repeat' split) <;> simp
@[simp] theorem completeStore_zt (s : State) : (s.completeStore).zt = s.zt := by
  unfold State.completeStore; (try dsimp only) <;> (repeat' split) <;> simp
@[simp] theorem completeStore_pe (s : State) : (s.completeStore).pe = s.pe := by
  unfold State.completeStore; (try dsimp only) <;> (repeat' split) <;> simp
@[simp] theorem completeStore_sq (s : State) : (s.completeStore).sq = s.sq := by
  unfold State.completeStore; (try dsimp only) <;> (repeat' split) <;> simp
@[simp] theorem completeStore_stk (s : State) : (s.completeStore).stk = s.stk := by
  unfold State.completeStore; (try dsimp only) <;> (repeat' split) <;> simp
@[simp] theorem completeStore_lu (s : State) : (s.completeStore).lu = s.lu := by
  unfold State.completeStore; (try dsimp only) <;> (repeat' split) <;> simp
@[simp] theorem completeStore_lp (s : State) : (s.completeStore).lp = s.lp := by
  unfold State.completeStore; (try dsimp only) <;> (repeat' split) <;> simp
@[simp] theorem completeStore_freeCount (s : State) : (s.completeStore).freeCount = s.freeCount := by
  unfold State.completeStore; (try dsimp only) <;> (repeat' split) <;> simp

@[simp] theorem completeErase_pending (s : State) : (s.completeErase).pending = s.pending := by
  unfold State.completeErase; (try dsimp only) <;> (repeat' split) <;> simp
@[simp] theorem completeErase_cu (s : State) : (s.completeErase).cu = s.cu := by
  unfold State.completeErase; (try dsimp only) <;> (repeat' split) <;> simp
@[simp] theorem completeErase_zt (s : State) : (s.completeErase).zt = s.zt := by
  unfold State.completeErase; (try dsimp only) <;> (repeat' split) <;> simp
@[simp] theorem completeErase_pe (s : State) : (s.completeErase).pe = s.pe := by
  unfold State.completeErase; (try dsimp only) <;> (repeat' split) <;> simp
@[simp] theorem completeErase_sq (s : State) : (s.completeErase).sq = s.sq := by
  unfold State.completeErase; (try dsimp only) <;> (repeat' split) <;> simp
@[simp] theorem completeErase_stk (s : State) : (s.completeErase).stk = s.stk := by
  unfold State.completeErase; (try dsimp only) <;> (repeat' split) <;> simp
@[simp] theorem completeErase_lu (s : State) : (s.completeErase).lu = s.lu := by
  unfold State.completeErase; (try dsimp only) <;> (repeat' split) <;> simp
@[simp] theorem completeErase_lp (s : State) : (s.completeErase).lp = s.lp := by
  unfold State.completeErase; (try dsimp only) <;> (repeat' split) <;> simp
@[simp] theorem completeErase_freeCount (s : State) : (s.completeErase).freeCount = s.freeCount := by
  unfold State.completeErase; (try dsimp only) <;> (repeat' split) <;> simp

@[simp] theorem completeOptions_pending (s : State) : (s.completeOptions).pending = s.pending := by
  unfold State.completeOptions; (try dsimp only) <;> (repeat' split) <;> simp
@[simp] theorem completeOptions_cu (s : State) : (s.completeOptions).cu = s.cu := by
  unfold State.completeOptions; (try dsimp only) <;> (repeat' split) <;> simp
@[simp] theorem completeOptions_zt (s : State) : (s.completeOptions).zt = s.zt := by
  unfold State.completeOptions; (try dsimp only) <;> (repeat' split) <;> simp
@[simp] theorem completeOptions_pe (s : State) : (s.completeOptions).pe = s.pe := by
  unfold State.completeOptions; (try dsimp only) <;> (repeat' split) <;> simp
@[simp] theorem completeOptions_sq (s : State) : (s.completeOptions).sq = s.sq := by
  unfold State.completeOptions; (try dsimp only) <;> (repeat' split) <;> simp
@[simp] theorem completeOptions_stk (s : State) : (s.completeOptions).stk = s.stk := by
  unfold State.completeOptions; (try dsimp only) <;> (repeat' split) <;> simp
@[simp] theorem completeOptions_lu (s : State) : (s.completeOptions).lu = s.lu := by
  unfold State.completeOptions; (try dsimp only) <;> (repeat' split) <;> simp
@[simp] theorem completeOptions_lp (s : State) : (s.completeOptions).lp = s.lp := by
  unfold State.completeOptions; (try dsimp only) <;> (repeat' split) <;> simp
@[simp] theorem completeOptions_freeCount (s : State) : (s.completeOptions).freeCount = s.freeCount := by
  unfold State.completeOptions; (try dsimp only) <;> (repeat' split) <;> simp

@[simp] theorem readStatus_pending (s : State) (n : Nat) : ((State.readStatus n s).1).pending = s.pending := by
  unfold State.readStatus; (try dsimp only) <;> (repeat' split) <;> simp
@[simp] theorem readStatus_cu (s : State) (n : Nat) : ((State.readStatus n s).1).cu = s.cu := by
  unfold State.readStatus; (try dsimp only) <;> (repeat' split) <;> simp
@[simp] theorem readStatus_zt (s : State) (n : Nat) : ((State.readStatus n s).1).zt = s.zt := by
  unfold State.readStatus; (try dsimp only) <;> (repeat' split) <;> simp
@[simp] theorem readStatus_rs (s : State) (n : Nat) : ((State.readStatus n s).1).rs = s.rs := by
  unfold State.readStatus; (try dsimp only) <;> (repeat' split) <;> simp
@[simp] theorem readStatus_pe (s : State) (n : Nat) : ((State.readStatus n s).1).pe = s.pe := by
  unfold State.readStatus; (try dsimp only) <;> (repeat' split) <;> simp
@[simp] theorem readStatus_sq (s : State) (n : Nat) : ((State.readStatus n s).1).sq = s.sq := by
  unfold State.readStatus; (try dsimp only) <;> (repeat' split) <;> simp
@[simp] theorem readStatus_stk (s : State) (n : Nat) : ((State.readStatus n s).1).stk = s.stk := by
  unfold State.readStatus; (try dsimp only) <;> (repeat' split) <;> simp
@[simp] theorem readStatus_lu (s : State) (n : Nat) : ((State.readStatus n s).1).lu = s.lu := by
  unfold State.readStatus; (try dsimp only) <;> (repeat' split) <;> simp
@[simp] theorem readStatus_freeCount (s : State) (n : Nat) : ((State.readStatus n s).1).freeCount = s.freeCount := by
  unfold State.readStatus; (try dsimp only) <;> (repeat' split) <;> simp

@[simp] theorem readSummary_pending (s : State) (n : Nat) : ((State.readSummary n s).1).pending = s.pending := by
  unfold State.readSummary; (try dsimp only) <;> (repeat' split) <;> simp
@[simp] theorem readSummary_cu (s : State) (n : Nat) : ((State.readSummary n s).1).cu = s.cu := by
  unfold State.readSummary; (try dsimp only) <;> (repeat' split) <;> simp
@[simp] theorem readSummary_zt (s : State) (n : Nat) : ((State.readSummary n s).1).zt = s.zt := by
  unfold State.readSummary; (try dsimp only) <;> (repeat' split) <;> simp
@[simp] theorem readSummary_rs (s : State) (n : Nat) : ((State.readSummary n s).1).rs = s.rs := by
  unfold State.readSummary; (try dsimp only) <;> (repeat' split) <;> simp
@[simp] theorem readSummary_pe (s : State) (n : Nat) : ((State.readSummary n s).1).pe = s.pe := by
  unfold State.readSummary; (try dsimp only) <;> (repeat' split) <;> simp
@[simp] theorem readSummary_sq (s : State) (n : Nat) : ((State.readSummary n s).1).sq = s.sq := by
  unfold State.readSummary; (try dsimp only) <;> (repeat' split) <;> simp
@[simp] theorem readSummary_lu (s : State) (n : Nat) : ((State.readSummary n s).1).lu = s.lu := by
  unfold State.readSummary; (try dsimp only) <;> (repeat' split) <;> simp
@[simp] theorem readSummary_freeCount (s : State) (n : Nat) : ((State.readSummary n s).1).freeCount = s.freeCount := by
  unfold State.readSummary; (try dsimp only) <;> (repeat' split) <;> simp

@[simp] theorem readException_pending (s : State) (x : Unit) : ((State.readException x s).1).pending = s.pending := by
  unfold State.readException; (try dsimp only) <;> (repeat' split) <;> simp
@[simp] theorem readException_cu (s : State) (x : Unit) : ((State.readException x s).1).cu = s.cu := by
  unfold State.readException; (try dsimp only) <;> (repeat' split) <;> simp
@[simp] theorem readException_zt (s : State) (x : Unit) : ((State.readException x s).1).zt = s.zt := by
  unfold State.readException; (try dsimp only) <;> (repeat' split) <;> simp
@[simp] theorem readException_rs (s : State) (x : Unit) : ((State.readException x s).1).rs = s.rs := by
  unfold State.readException; (try dsimp only) <;> (repeat' split) <;> simp
@[simp] theorem readException_pe (s : State) (x : Unit) : ((State.readException x s).1).pe = s.pe := by
  unfold State.readException; (try dsimp only) <;> (repeat' split) <;> simp
@[simp] theorem readException_sq (s : State) (x : Unit) : ((State.readException x s).1).sq = s.sq := by
  unfold State.readException; (try dsimp only) <;> (repeat' split) <;> simp
@[simp] theorem readException_lu (s : State) (x : Unit) : ((State.readException x s).1).lu = s.lu := by
  unfold State.readException; (try dsimp only) <;> (repeat' split) <;> simp
@[simp] theorem readException_lp (s : State) (x : Unit) : ((State.readException x s).1).lp = s.lp := by
  unfold State.readException; (try dsimp only) <;> (repeat' split) <;> simp
@[simp] theorem readException_freeCount (s : State) (x : Unit) : ((State.readException x s).1).freeCount = s.freeCount := by
  unfold State.readException; (try dsimp only) <;> (repeat' split) <;> simp

@[simp] theorem readCapture_pending (s : State) (x : Unit) : ((State.readCapture x s).1).pending = s.pending := by
  unfold State.readCapture; (try dsimp only) <;> (repeat' split) <;> simp
@[simp] theorem readCapture_zt (s : State) (x : Unit) : ((State.readCapture x s).1).zt = s.zt := by
  unfold State.readCapture; (try dsimp only) <;> (repeat' split) <;> simp
@[simp] theorem readCapture_rs (s : State) (x : Unit) : ((State.readCapture x s).1).rs = s.rs := by
  unfold State.readCapture; (try dsimp only) <;> (repeat' split) <;> simp
@[simp] theorem readCapture_pe (s : State) (x : Unit) : ((State.readCapture x s).1).pe = s.pe := by
  unfold State.readCapture; (try dsimp only) <;> (repeat' split) <;> simp
@[simp] theorem readCapture_sq (s : State) (x : Unit) : ((State.readCapture x s).1).sq = s.sq := by
  unfold State.readCapture; (try dsimp only) <;> (repeat' split) <;> simp
@[simp] theorem readCapture_stk (s : State) (x : Unit) : ((State.readCapture x s).1).stk = s.stk := by
  unfold State.readCapture; (try dsimp only) <;> (repeat' split) <;> simp
@[simp] theorem readCapture_lu (s : State) (x : Unit) : ((State.readCapture x s).1).lu = s.lu := by
  unfold State.readCapture; (try dsimp only) <;> (repeat' split) <;> simp
@[simp] theorem readCapture_lp (s : State) (x : Unit) : ((State.readCapture x s).1).lp = s.lp := by
  unfold State.readCapture; (try dsimp only) <;> (repeat' split) <;> simp
@[simp] theorem readCapture_freeCount (s : State) (x : Unit) : ((State.readCapture x s).1).freeCount = s.freeCount := by
  unfold State.readCapture; (try dsimp only) <;> (repeat' split) <;> simp

@[simp] theorem readFault_pending (s : State) (x : Unit) : ((State.readFault x s).1).pending = s.pending := by
  unfold State.readFault; (try dsimp only) <;> (repeat' split) <;> simp
@[simp] theorem readFault_cu (s : State) (x : Unit) : ((State.readFault x s).1).cu = s.cu := by
  unfold State.readFault; (try dsimp only) <;> (repeat' split) <;> simp
@[simp] theorem readFault_zt (s : State) (x : Unit) : ((State.readFault x s).1).zt = s.zt := by
  unfold State.readFault; (try dsimp only) <;> (repeat' split) <;> simp
@[simp] theorem readFault_rs (s : State) (x : Unit) : ((State.readFault x s).1).rs = s.rs := by
  unfold State.readFault; (try dsimp only) <;> (repeat' split) <;> simp
@[simp] theorem readFault_pe (s : State) (x : Unit) : ((State.readFault x s).1).pe = s.pe := by
  unfold State.readFault; (try dsimp only) <;> (repeat' split) <;> simp
@[simp] theorem readFault_sq (s : State) (x : Unit) : ((State.readFault x s).1).sq = s.sq := by
  unfold State.readFault; (try dsimp only) <;> (repeat' split) <;> simp
@[simp] theorem readFault_stk (s : State) (x : Unit) : ((State.readFault x s).1).stk = s.stk := by
  unfold State.readFault; (try dsimp only) <;> (repeat' split) <;> simp
@[simp] theorem readFault_lu (s : State) (x : Unit) : ((State.readFault x s).1).lu = s.lu := by
  unfold State.readFault; (try dsimp only) <;> (repeat' split) <;> simp
@[simp] theorem readFault_lp (s : State) (x : Unit) : ((State.readFault x s).1).lp = s.lp := by
  unfold State.readFault; (try dsimp only) <;> (repeat' split) <;> simp
@[simp] theorem readFault_freeCount (s : State) (x : Unit) : ((State.readFault x s).1).freeCount = s.freeCount := by
  unfold State.readFault; (try dsimp only) <;> (repeat' split) <;> simp

@[simp] theorem writePosition_pending (s : State) (w : PositionWrite) : ((State.writePosition w s).1).pending = s.pending := by
  unfold State.writePosition; (try dsimp only) <;> (repeat' split) <;> simp
@[simp] theorem writePosition_zt (s : State) (w : PositionWrite) : ((State.writePosition w s).1).zt = s.zt := by
  unfold State.writePosition; (try dsimp only) <;> (repeat' split) <;> simp
@[simp] theorem writePosition_rs (s : State) (w : PositionWrite) : ((State.writePosition w s).1).rs = s.rs := by
  unfold State.writePosition; (try dsimp only) <;> (repeat' split) <;> simp
@[simp] theorem writePosition_pe (s : State) (w : PositionWrite) : ((State.writePosition w s).1).pe = s.pe := by
  unfold State.writePosition; (try dsimp only) <;> (repeat' split) <;> simp
@[simp] theorem writePosition_sq (s : State) (w : PositionWrite) : ((State.writePosition w s).1).sq = s.sq := by
  unfold State.writePosition; (try dsimp only) <;> (repeat' split) <;> simp
@[simp] theorem writePosition_stk (s : State) (w : PositionWrite) : ((State.writePosition w s).1).stk = s.stk := by
  unfold State.writePosition; (try dsimp only) <;> (repeat' split) <;> simp
@[simp] theorem writePosition_lu (s : State) (w : PositionWrite) : ((State.writePosition w s).1).lu = s.lu := by
  unfold State.writePosition; (try dsimp only) <;> (repeat' split) <;> simp
@[simp] theorem writePosition_lp (s : State) (w : PositionWrite) : ((State.writePosition w s).1).lp = s.lp := by
  unfold State.writePosition; (try dsimp only) <;> (repeat' split) <;> simp
@[simp] theorem writePosition_freeCount (s : State) (w : PositionWrite) : ((State.writePosition w s).1).freeCount = s.freeCount := by
  unfold State.writePosition; (try dsimp only) <;> (repeat' split) <;> simp

@[simp] theorem writeLineConfig_pending (s : State) (w : LineWrite) : ((State.writeLineConfig w s).1).pending = s.pending := by
  unfold State.writeLineConfig; (try dsimp only) <;> (repeat' split) <;> simp
@[simp] theorem writeLineConfig_cu (s : State) (w : LineWrite) : ((State.writeLineConfig w s).1).cu = s.cu := by
  unfold State.writeLineConfig; (try dsimp only) <;> (repeat' split) <;> simp
@[simp] theorem writeLineConfig_zt (s : State) (w : LineWrite) : ((State.writeLineConfig w s).1).zt = s.zt := by
  unfold State.writeLineConfig; (try dsimp only) <;> (repeat' split) <;> simp
@[simp] theorem writeLineConfig_rs (s : State) (w : LineWrite) : ((State.writeLineConfig w s).1).rs = s.rs := by
  unfold State.writeLineConfig; (try dsimp only) <;> (repeat' split) <;> simp
@[simp] theorem writeLineConfig_pe (s : State) (w : LineWrite) : ((State.writeLineConfig w s).1).pe = s.pe := by
  unfold State.writeLineConfig; (try dsimp only) <;> (repeat' split) <;> simp
@[simp] theorem writeLineConfig_sq (s : State) (w : LineWrite) : ((State.writeLineConfig w s).1).sq = s.sq := by
  unfold State.writeLineConfig; (try dsimp only) <;> (repeat' split) <;> simp
@[simp] theorem writeLineConfig_stk (s : State) (w : LineWrite) : ((State.writeLineConfig w s).1).stk = s.stk := by
  unfold State.writeLineConfig; (try dsimp only) <;> (repeat' split) <;> simp
@[simp] theorem writeLineConfig_lp (s : State) (w : LineWrite) : ((State.writeLineConfig w s).1).lp = s.lp := by
  unfold State.writeLineConfig; (try dsimp only) <;> (repeat' split) <;> simp
@[simp] theorem writeLineConfig_freeCount (s : State) (w : LineWrite) : ((State.writeLineConfig w s).1).freeCount = s.freeCount := by
  unfold State.writeLineConfig; (try dsimp only) <;> (repeat' split) <;> simp

@[simp] theorem writeLatches_pending (s : State) (l : List (Nat × Bool)) : ((State.writeLatches l s).1).pending = s.pending := by
  unfold State.writeLatches; (try dsimp only) <;> (repeat' split) <;> simp
@[simp] theorem writeLatches_cu (s : State) (l : List (Nat × Bool)) : ((State.writeLatches l s).1).cu = s.cu := by
  unfold State.writeLatches; (try dsimp only) <;> (repeat' split) <;> simp
@[simp] theorem writeLatches_zt (s : State) (l : List (Nat × Bool)) : ((State.writeLatches l s).1).zt = s.zt := by
  unfold State.writeLatches; (try dsimp only) <;> (repeat' split) <;> simp
@[simp] theorem writeLatches_rs (s : State) (l : List (Nat × Bool)) : ((State.writeLatches l s).1).rs = s.rs := by
  unfold State.writeLatches; (try dsimp only) <;> (repeat' split) <;> simp
@[simp] theorem writeLatches_pe (s : State) (l : List (Nat × Bool)) : ((State.writeLatches l s).1).pe = s.pe := by
  unfold State.writeLatches; (try dsimp only) <;> (repeat' split) <;> simp
@[simp] theorem writeLatches_sq (s : State) (l : List (Nat × Bool)) : ((State.writeLatches l s).1).sq = s.sq := by
  unfold State.writeLatches; (try dsimp only) <;> (repeat' split) <;> simp
@[simp] theorem writeLatches_stk (s : State) (l : List (Nat × Bool)) : ((State.writeLatches l s).1).stk = s.stk := by
  unfold State.writeLatches; (try dsimp only) <;> (repeat' split) <;> simp
@[simp] theorem writeLatches_lp (s : State) (l : List (Nat × Bool)) : ((State.writeLatches l s).1).lp = s.lp := by
  unfold State.writeLatches; (try dsimp only) <;> (repeat' split) <;> simp
@[simp] theorem writeLatches_freeCount (s : State) (l : List (Nat × Bool)) : ((State.writeLatches l s).1).freeCount = s.freeCount := by
  unfold State.writeLatches; (try dsimp only) <;> (repeat' split) <;> simp

@[simp] theorem readLines_pending (s : State) (x : Unit) : ((State.readLines x s).1).pending = s.pending := by
  unfold State.readLines; (try dsimp only) <;> (repeat' split) <;> simp
@[simp] theorem readLines_cu (s : State) (x : Unit) : ((State.readLines x s).1).cu = s.cu := by
  unfold State.readLines; (try dsimp only) <;> (repeat' split) <;> simp
@[simp] theorem readLines_zt (s : State) (x : Unit) : ((State.readLines x s).1).zt = s.zt := by
  unfold State.readLines; (try dsimp only) <;> (repeat' split) <;> simp
@[simp] theorem readLines_rs (s : State) (x : Unit) : ((State.readLines x s).1).rs = s.rs := by
  unfold State.readLines; (try dsimp only) <;> (repeat' split) <;> simp
@[simp] theorem readLines_pe (s : State) (x : Unit) : ((State.readLines x s).1).pe = s.pe := by
  unfold State.readLines; (try dsimp only) <;> (repeat' split) <;> simp
@[simp] theorem readLines_sq (s : State) (x : Unit) : ((State.readLines x s).1).sq = s.sq := by
  unfold State.readLines; (try dsimp only) <;> (repeat' split) <;> simp
@[simp] theorem readLines_stk (s : State) (x : Unit) : ((State.readLines x s).1).stk = s.stk := by
  unfold State.readLines; (try dsimp only) <;> (repeat' split) <;> simp
@[simp] theorem readLines_lu (s : State) (x : Unit) : ((State.readLines x s).1).lu = s.lu := by
  unfold State.readLines; (try dsimp only) <;> (repeat' split) <;> simp
@[simp] theorem readLines_lp (s : State) (x : Unit) : ((State.readLines x s).1).lp = s.lp := by
  unfold State.readLines; (try dsimp only) <;> (repeat' split) <;> simp
@[simp] theorem readLines_freeCount (s : State) (x : Unit) : ((State.readLines x s).1).freeCount = s.freeCount := by
  unfold State.readLines; (try dsimp only) <;> (repeat' split) <;> simp

@[simp] theorem writeMark_pending (s : State) (w : MarkWrite) : ((State.writeMark w s).1).pending = s.pending := by
  unfold State.writeMark; (try dsimp only) <;> (repeat' split) <;> simp
@[simp] theorem writeMark_cu (s : State) (w : MarkWrite) : ((State.writeMark w s).1).cu = s.cu := by
  unfold State.writeMark; (try dsimp only) <;> (repeat' split) <;> simp
@[simp] theorem writeMark_zt (s : State) (w : MarkWrite) : ((State.writeMark w s).1).zt = s.zt := by
  unfold State.writeMark; (try dsimp only) <;> (repeat' split) <;> simp
@[simp] theorem writeMark_rs (s : State) (w : MarkWrite) : ((State.writeMark w s).1).rs = s.rs := by
  unfold State.writeMark; (try dsimp only) <;> (repeat' split) <;> simp
@[simp] theorem writeMark_pe (s : State) (w : MarkWrite) : ((State.writeMark w s).1).pe = s.pe := by
  unfold State.writeMark; (try dsimp only) <;> (repeat' split) <;> simp
@[simp] theorem writeMark_sq (s : State) (w : MarkWrite) : ((State.writeMark w s).1).sq = s.sq := by
  unfold State.writeMark; (try dsimp only) <;> (repeat' split) <;> simp
@[simp] theorem writeMark_stk (s : State) (w : MarkWrite) : ((State.writeMark w s).1).stk = s.stk := by
  unfold State.writeMark; (try dsimp only) <;> (repeat' split) <;> simp
@[simp] theorem writeMark_lp (s : State) (w : MarkWrite) : ((State.writeMark w s).1).lp = s.lp := by
  unfold State.writeMark; (try dsimp only) <;> (repeat' split) <;> simp
@[simp] theorem writeMark_freeCount (s : State) (w : MarkWrite) : ((State.writeMark w s).1).freeCount = s.freeCount := by
  unfold State.writeMark; (try dsimp only) <;> (repeat' split) <;> simp

@[simp] theorem setRail_pending (s : State) (mv : Nat) : (s.setRail mv).pending = s.pending := by
  unfold State.setRail; (try dsimp only) <;> (repeat' split) <;> simp
@[simp] theorem setRail_cu (s : State) (mv : Nat) : (s.setRail mv).cu = s.cu := by
  unfold State.setRail; (try dsimp only) <;> (repeat' split) <;> simp
@[simp] theorem setRail_zt (s : State) (mv : Nat) : (s.setRail mv).zt = s.zt := by
  unfold State.setRail; (try dsimp only) <;> (repeat' split) <;> simp
@[simp] theorem setRail_rs (s : State) (mv : Nat) : (s.setRail mv).rs = s.rs := by
  unfold State.setRail; (try dsimp only) <;> (repeat' split) <;> simp
@[simp] theorem setRail_pe (s : State) (mv : Nat) : (s.setRail mv).pe = s.pe := by
  unfold State.setRail; (try dsimp only) <;> (repeat' split) <;> simp
@[simp] theorem setRail_stk (s : State) (mv : Nat) : (s.setRail mv).stk = s.stk := by
  unfold State.setRail; (try dsimp only) <;> (repeat' split) <;> simp
@[simp] theorem setRail_lu (s : State) (mv : Nat) : (s.setRail mv).lu = s.lu := by
  unfold State.setRail; (try dsimp only) <;> (repeat' split) <;> simp
@[simp] theorem setRail_lp (s : State) (mv : Nat) : (s.setRail mv).lp = s.lp := by
  unfold State.setRail; (try dsimp only) <;> (repeat' split) <;> simp
@[simp] theorem setRail_freeCount (s : State) (mv : Nat) : (s.setRail mv).freeCount = s.freeCount := by
  unfold State.setRail; (try dsimp only) <;> (repeat' split) <;> simp

@[simp] theorem takeRail_pending (s : State) (mv : Nat) : (s.takeRail mv).pending = s.pending := by
  unfold State.takeRail; (try dsimp only) <;> (repeat' split) <;> simp
@[simp] theorem takeRail_cu (s : State) (mv : Nat) : (s.takeRail mv).cu = s.cu := by
  unfold State.takeRail; (try dsimp only) <;> (repeat' split) <;> simp
@[simp] theorem takeRail_zt (s : State) (mv : Nat) : (s.takeRail mv).zt = s.zt := by
  unfold State.takeRail; (try dsimp only) <;> (repeat' split) <;> simp
@[simp] theorem takeRail_rs (s : State) (mv : Nat) : (s.takeRail mv).rs = s.rs := by
  unfold State.takeRail; (try dsimp only) <;> (repeat' split) <;> simp
@[simp] theorem takeRail_freeCount (s : State) (mv : Nat) : (s.takeRail mv).freeCount = s.freeCount := by
  unfold State.takeRail; (try dsimp only) <;> (repeat' split) <;> simp

@[simp] theorem startUpLoad_pending (s : State) : (s.startUpLoad).pending = s.pending := by
  unfold State.startUpLoad; (try dsimp only) <;> (repeat' split) <;> simp
@[simp] theorem startUpLoad_cu (s : State) : (s.startUpLoad).cu = s.cu := by
  unfold State.startUpLoad; (try dsimp only) <;> (repeat' split) <;> simp
@[simp] theorem startUpLoad_zt (s : State) : (s.startUpLoad).zt = s.zt := by
  unfold State.startUpLoad; (try dsimp only) <;> (repeat' split) <;> simp
@[simp] theorem startUpLoad_pe (s : State) : (s.startUpLoad).pe = s.pe := by
  unfold State.startUpLoad; (try dsimp only) <;> (repeat' split) <;> simp
@[simp] theorem startUpLoad_sq (s : State) : (s.startUpLoad).sq = s.sq := by
  unfold State.startUpLoad; (try dsimp only) <;> (repeat' split) <;> simp
@[simp] theorem startUpLoad_stk (s : State) : (s.startUpLoad).stk = s.stk := by
  unfold State.startUpLoad; (try dsimp only) <;> (repeat' split) <;> simp
@[simp] theorem startUpLoad_lu (s : State) : (s.startUpLoad).lu = s.lu := by
  unfold State.startUpLoad; (try dsimp only) <;> (repeat' split) <;> simp
@[simp] theorem startUpLoad_lp (s : State) : (s.startUpLoad).lp = s.lp := by
  unfold State.startUpLoad; (try dsimp only) <;> (repeat' split) <;> simp
@[simp] theorem startUpLoad_freeCount (s : State) : (s.startUpLoad).freeCount = s.freeCount := by
  unfold State.startUpLoad; (try dsimp only) <;> (repeat' split) <;> simp

@[simp] theorem blocksReset_pending (s : State) (t : Nat) (n : Word32) (p : EncPhase) (v : Vector PinDrive 8) (mv : Nat) (r : Rs) : (s.blocksReset t n p v mv r).pending = s.pending := by
  unfold State.blocksReset; (try dsimp only) <;> (repeat' split) <;> simp

@[simp] theorem interruptOp_pending (s : State) : (s.interruptOp).pending = s.pending := by
  unfold State.interruptOp; (try dsimp only) <;> (repeat' split) <;> simp
@[simp] theorem interruptOp_cu (s : State) : (s.interruptOp).cu = s.cu := by
  unfold State.interruptOp; (try dsimp only) <;> (repeat' split) <;> simp
@[simp] theorem interruptOp_zt (s : State) : (s.interruptOp).zt = s.zt := by
  unfold State.interruptOp; (try dsimp only) <;> (repeat' split) <;> simp
@[simp] theorem interruptOp_pe (s : State) : (s.interruptOp).pe = s.pe := by
  unfold State.interruptOp; (try dsimp only) <;> (repeat' split) <;> simp
@[simp] theorem interruptOp_sq (s : State) : (s.interruptOp).sq = s.sq := by
  unfold State.interruptOp; (try dsimp only) <;> (repeat' split) <;> simp
@[simp] theorem interruptOp_stk (s : State) : (s.interruptOp).stk = s.stk := by
  unfold State.interruptOp; (try dsimp only) <;> (repeat' split) <;> simp
@[simp] theorem interruptOp_lu (s : State) : (s.interruptOp).lu = s.lu := by
  unfold State.interruptOp; (try dsimp only) <;> (repeat' split) <;> simp
@[simp] theorem interruptOp_lp (s : State) : (s.interruptOp).lp = s.lp := by
  unfold State.interruptOp; (try dsimp only) <;> (repeat' split) <;> simp

@[simp] theorem powerOnBlocks_pending (s : State) (e : ResetEnd) : (s.powerOnBlocks e).pending = s.pending := by
  unfold State.powerOnBlocks; (try dsimp only) <;> (repeat' split) <;> simp

@[simp] theorem powerOn_pending (s : State) (e : ResetEnd) : (s.powerOn e).pending = s.pending := by
  unfold State.powerOn; (try dsimp only) <;> (repeat' split) <;> simp

@[simp] theorem warmReset_pending (s : State) : (s.warmReset).pending = s.pending := by
  unfold State.warmReset; (try dsimp only) <;> (repeat' split) <;> simp

@[simp] theorem takeWarmReset_pending (s : State) : (s.takeWarmReset).pending = s.pending := by
  unfold State.takeWarmReset; (try dsimp only) <;> (repeat' split) <;> simp

@[simp] theorem requestReset_pending (s : State) (x : Unit) : ((State.requestReset x s).1).pending = s.pending := by
  unfold State.requestReset; (try dsimp only) <;> (repeat' split) <;> simp
@[simp] theorem requestReset_cu (s : State) (x : Unit) : ((State.requestReset x s).1).cu = s.cu := by
  unfold State.requestReset; (try dsimp only) <;> (repeat' split) <;> simp
@[simp] theorem requestReset_zt (s : State) (x : Unit) : ((State.requestReset x s).1).zt = s.zt := by
  unfold State.requestReset; (try dsimp only) <;> (repeat' split) <;> simp
@[simp] theorem requestReset_rs (s : State) (x : Unit) : ((State.requestReset x s).1).rs = s.rs := by
  unfold State.requestReset; (try dsimp only) <;> (repeat' split) <;> simp
@[simp] theorem requestReset_pe (s : State) (x : Unit) : ((State.requestReset x s).1).pe = s.pe := by
  unfold State.requestReset; (try dsimp only) <;> (repeat' split) <;> simp
@[simp] theorem requestReset_sq (s : State) (x : Unit) : ((State.requestReset x s).1).sq = s.sq := by
  unfold State.requestReset; (try dsimp only) <;> (repeat' split) <;> simp
@[simp] theorem requestReset_stk (s : State) (x : Unit) : ((State.requestReset x s).1).stk = s.stk := by
  unfold State.requestReset; (try dsimp only) <;> (repeat' split) <;> simp
@[simp] theorem requestReset_lu (s : State) (x : Unit) : ((State.requestReset x s).1).lu = s.lu := by
  unfold State.requestReset; (try dsimp only) <;> (repeat' split) <;> simp
@[simp] theorem requestReset_freeCount (s : State) (x : Unit) : ((State.requestReset x s).1).freeCount = s.freeCount := by
  unfold State.requestReset; (try dsimp only) <;> (repeat' split) <;> simp

@[simp] theorem keepPower_pending (s : State) (r : PowerReport) (st : InverterState) : (s.keepPower r st).pending = s.pending := by
  unfold State.keepPower; (try dsimp only) <;> (repeat' split) <;> simp
@[simp] theorem keepPower_cu (s : State) (r : PowerReport) (st : InverterState) : (s.keepPower r st).cu = s.cu := by
  unfold State.keepPower; (try dsimp only) <;> (repeat' split) <;> simp
@[simp] theorem keepPower_zt (s : State) (r : PowerReport) (st : InverterState) : (s.keepPower r st).zt = s.zt := by
  unfold State.keepPower; (try dsimp only) <;> (repeat' split) <;> simp
@[simp] theorem keepPower_rs (s : State) (r : PowerReport) (st : InverterState) : (s.keepPower r st).rs = s.rs := by
  unfold State.keepPower; (try dsimp only) <;> (repeat' split) <;> simp
@[simp] theorem keepPower_pe (s : State) (r : PowerReport) (st : InverterState) : (s.keepPower r st).pe = s.pe := by
  unfold State.keepPower; (try dsimp only) <;> (repeat' split) <;> simp
@[simp] theorem keepPower_sq (s : State) (r : PowerReport) (st : InverterState) : (s.keepPower r st).sq = s.sq := by
  unfold State.keepPower; (try dsimp only) <;> (repeat' split) <;> simp
@[simp] theorem keepPower_stk (s : State) (r : PowerReport) (st : InverterState) : (s.keepPower r st).stk = s.stk := by
  unfold State.keepPower; (try dsimp only) <;> (repeat' split) <;> simp
@[simp] theorem keepPower_lu (s : State) (r : PowerReport) (st : InverterState) : (s.keepPower r st).lu = s.lu := by
  unfold State.keepPower; (try dsimp only) <;> (repeat' split) <;> simp
@[simp] theorem keepPower_freeCount (s : State) (r : PowerReport) (st : InverterState) : (s.keepPower r st).freeCount = s.freeCount := by
  unfold State.keepPower; (try dsimp only) <;> (repeat' split) <;> simp

@[simp] theorem creditPower_pending (s : State) (r : PowerReport) : (s.creditPower r).pending = s.pending := by
  unfold State.creditPower; (try dsimp only) <;> (repeat' split) <;> simp
@[simp] theorem creditPower_cu (s : State) (r : PowerReport) : (s.creditPower r).cu = s.cu := by
  unfold State.creditPower; (try dsimp only) <;> (repeat' split) <;> simp
@[simp] theorem creditPower_zt (s : State) (r : PowerReport) : (s.creditPower r).zt = s.zt := by
  unfold State.creditPower; (try dsimp only) <;> (repeat' split) <;> simp
@[simp] theorem creditPower_rs (s : State) (r : PowerReport) : (s.creditPower r).rs = s.rs := by
  unfold State.creditPower; (try dsimp only) <;> (repeat' split) <;> simp
@[simp] theorem creditPower_pe (s : State) (r : PowerReport) : (s.creditPower r).pe = s.pe := by
  unfold State.creditPower; (try dsimp only) <;> (repeat' split) <;> simp
@[simp] theorem creditPower_sq (s : State) (r : PowerReport) : (s.creditPower r).sq = s.sq := by
  unfold State.creditPower; (try dsimp only) <;> (repeat' split) <;> simp
@[simp] theorem creditPower_lu (s : State) (r : PowerReport) : (s.creditPower r).lu = s.lu := by
  unfold State.creditPower; (try dsimp only) <;> (repeat' split) <;> simp
@[simp] theorem creditPower_lp (s : State) (r : PowerReport) : (s.creditPower r).lp = s.lp := by
  unfold State.creditPower; (try dsimp only) <;> (repeat' split) <;> simp
@[simp] theorem creditPower_freeCount (s : State) (r : PowerReport) : (s.creditPower r).freeCount = s.freeCount := by
  unfold State.creditPower; (try dsimp only) <;> (repeat' split) <;> simp

@[simp] theorem takeTrip_pending (s : State) (r : PowerReport) : (s.takeTrip r).pending = s.pending := by
  unfold State.takeTrip; (try dsimp only) <;> (repeat' split) <;> simp
@[simp] theorem takeTrip_cu (s : State) (r : PowerReport) : (s.takeTrip r).cu = s.cu := by
  unfold State.takeTrip; (try dsimp only) <;> (repeat' split) <;> simp
@[simp] theorem takeTrip_zt (s : State) (r : PowerReport) : (s.takeTrip r).zt = s.zt := by
  unfold State.takeTrip; (try dsimp only) <;> (repeat' split) <;> simp
@[simp] theorem takeTrip_rs (s : State) (r : PowerReport) : (s.takeTrip r).rs = s.rs := by
  unfold State.takeTrip; (try dsimp only) <;> (repeat' split) <;> simp

@[simp] theorem noteLimiting_pending (s : State) (st : InverterState) : (s.noteLimiting st).pending = s.pending := by
  unfold State.noteLimiting; (try dsimp only) <;> (repeat' split) <;> simp
@[simp] theorem noteLimiting_cu (s : State) (st : InverterState) : (s.noteLimiting st).cu = s.cu := by
  unfold State.noteLimiting; (try dsimp only) <;> (repeat' split) <;> simp
@[simp] theorem noteLimiting_zt (s : State) (st : InverterState) : (s.noteLimiting st).zt = s.zt := by
  unfold State.noteLimiting; (try dsimp only) <;> (repeat' split) <;> simp
@[simp] theorem noteLimiting_rs (s : State) (st : InverterState) : (s.noteLimiting st).rs = s.rs := by
  unfold State.noteLimiting; (try dsimp only) <;> (repeat' split) <;> simp
@[simp] theorem noteLimiting_pe (s : State) (st : InverterState) : (s.noteLimiting st).pe = s.pe := by
  unfold State.noteLimiting; (try dsimp only) <;> (repeat' split) <;> simp
@[simp] theorem noteLimiting_sq (s : State) (st : InverterState) : (s.noteLimiting st).sq = s.sq := by
  unfold State.noteLimiting; (try dsimp only) <;> (repeat' split) <;> simp
@[simp] theorem noteLimiting_lu (s : State) (st : InverterState) : (s.noteLimiting st).lu = s.lu := by
  unfold State.noteLimiting; (try dsimp only) <;> (repeat' split) <;> simp
@[simp] theorem noteLimiting_lp (s : State) (st : InverterState) : (s.noteLimiting st).lp = s.lp := by
  unfold State.noteLimiting; (try dsimp only) <;> (repeat' split) <;> simp
@[simp] theorem noteLimiting_freeCount (s : State) (st : InverterState) : (s.noteLimiting st).freeCount = s.freeCount := by
  unfold State.noteLimiting; (try dsimp only) <;> (repeat' split) <;> simp

@[simp] theorem takePower_pending (s : State) (r : PowerReport) (st : InverterState) : (s.takePower r st).pending = s.pending := by
  unfold State.takePower; (try dsimp only) <;> (repeat' split) <;> simp
@[simp] theorem takePower_cu (s : State) (r : PowerReport) (st : InverterState) : (s.takePower r st).cu = s.cu := by
  unfold State.takePower; (try dsimp only) <;> (repeat' split) <;> simp
@[simp] theorem takePower_zt (s : State) (r : PowerReport) (st : InverterState) : (s.takePower r st).zt = s.zt := by
  unfold State.takePower; (try dsimp only) <;> (repeat' split) <;> simp
@[simp] theorem takePower_rs (s : State) (r : PowerReport) (st : InverterState) : (s.takePower r st).rs = s.rs := by
  unfold State.takePower; (try dsimp only) <;> (repeat' split) <;> simp

@[simp] theorem powerReport_pending (s : State) (p : Payload PowerReport) : (s.powerReport p).pending = s.pending := by
  unfold State.powerReport; (try dsimp only) <;> (repeat' split) <;> simp
@[simp] theorem powerReport_cu (s : State) (p : Payload PowerReport) : (s.powerReport p).cu = s.cu := by
  unfold State.powerReport; (try dsimp only) <;> (repeat' split) <;> simp
@[simp] theorem powerReport_zt (s : State) (p : Payload PowerReport) : (s.powerReport p).zt = s.zt := by
  unfold State.powerReport; (try dsimp only) <;> (repeat' split) <;> simp
@[simp] theorem powerReport_rs (s : State) (p : Payload PowerReport) : (s.powerReport p).rs = s.rs := by
  unfold State.powerReport; (try dsimp only) <;> (repeat' split) <;> simp

@[simp] theorem keepDrive_pending (s : State) (st : DriveState) : (s.keepDrive st).pending = s.pending := by
  unfold State.keepDrive; (try dsimp only) <;> (repeat' split) <;> simp
@[simp] theorem keepDrive_cu (s : State) (st : DriveState) : (s.keepDrive st).cu = s.cu := by
  unfold State.keepDrive; (try dsimp only) <;> (repeat' split) <;> simp
@[simp] theorem keepDrive_zt (s : State) (st : DriveState) : (s.keepDrive st).zt = s.zt := by
  unfold State.keepDrive; (try dsimp only) <;> (repeat' split) <;> simp
@[simp] theorem keepDrive_rs (s : State) (st : DriveState) : (s.keepDrive st).rs = s.rs := by
  unfold State.keepDrive; (try dsimp only) <;> (repeat' split) <;> simp
@[simp] theorem keepDrive_pe (s : State) (st : DriveState) : (s.keepDrive st).pe = s.pe := by
  unfold State.keepDrive; (try dsimp only) <;> (repeat' split) <;> simp
@[simp] theorem keepDrive_sq (s : State) (st : DriveState) : (s.keepDrive st).sq = s.sq := by
  unfold State.keepDrive; (try dsimp only) <;> (repeat' split) <;> simp
@[simp] theorem keepDrive_stk (s : State) (st : DriveState) : (s.keepDrive st).stk = s.stk := by
  unfold State.keepDrive; (try dsimp only) <;> (repeat' split) <;> simp
@[simp] theorem keepDrive_lu (s : State) (st : DriveState) : (s.keepDrive st).lu = s.lu := by
  unfold State.keepDrive; (try dsimp only) <;> (repeat' split) <;> simp
@[simp] theorem keepDrive_freeCount (s : State) (st : DriveState) : (s.keepDrive st).freeCount = s.freeCount := by
  unfold State.keepDrive; (try dsimp only) <;> (repeat' split) <;> simp

@[simp] theorem takeDrive_pending (s : State) (st : DriveState) : (s.takeDrive st).pending = s.pending := by
  unfold State.takeDrive; (try dsimp only) <;> (repeat' split) <;> simp
@[simp] theorem takeDrive_cu (s : State) (st : DriveState) : (s.takeDrive st).cu = s.cu := by
  unfold State.takeDrive; (try dsimp only) <;> (repeat' split) <;> simp
@[simp] theorem takeDrive_zt (s : State) (st : DriveState) : (s.takeDrive st).zt = s.zt := by
  unfold State.takeDrive; (try dsimp only) <;> (repeat' split) <;> simp
@[simp] theorem takeDrive_rs (s : State) (st : DriveState) : (s.takeDrive st).rs = s.rs := by
  unfold State.takeDrive; (try dsimp only) <;> (repeat' split) <;> simp
@[simp] theorem takeDrive_freeCount (s : State) (st : DriveState) : (s.takeDrive st).freeCount = s.freeCount := by
  unfold State.takeDrive; (try dsimp only) <;> (repeat' split) <;> simp

@[simp] theorem driveStatus_pending (s : State) (p : Payload Nat) : (s.driveStatus p).pending = s.pending := by
  unfold State.driveStatus; (try dsimp only) <;> (repeat' split) <;> simp
@[simp] theorem driveStatus_cu (s : State) (p : Payload Nat) : (s.driveStatus p).cu = s.cu := by
  unfold State.driveStatus; (try dsimp only) <;> (repeat' split) <;> simp
@[simp] theorem driveStatus_zt (s : State) (p : Payload Nat) : (s.driveStatus p).zt = s.zt := by
  unfold State.driveStatus; (try dsimp only) <;> (repeat' split) <;> simp
@[simp] theorem driveStatus_rs (s : State) (p : Payload Nat) : (s.driveStatus p).rs = s.rs := by
  unfold State.driveStatus; (try dsimp only) <;> (repeat' split) <;> simp
@[simp] theorem driveStatus_freeCount (s : State) (p : Payload Nat) : (s.driveStatus p).freeCount = s.freeCount := by
  unfold State.driveStatus; (try dsimp only) <;> (repeat' split) <;> simp

@[simp] theorem keepQuench_pending (s : State) (r : QuenchReport) : (s.keepQuench r).pending = s.pending := by
  unfold State.keepQuench; (try dsimp only) <;> (repeat' split) <;> simp
@[simp] theorem keepQuench_cu (s : State) (r : QuenchReport) : (s.keepQuench r).cu = s.cu := by
  unfold State.keepQuench; (try dsimp only) <;> (repeat' split) <;> simp
@[simp] theorem keepQuench_zt (s : State) (r : QuenchReport) : (s.keepQuench r).zt = s.zt := by
  unfold State.keepQuench; (try dsimp only) <;> (repeat' split) <;> simp
@[simp] theorem keepQuench_rs (s : State) (r : QuenchReport) : (s.keepQuench r).rs = s.rs := by
  unfold State.keepQuench; (try dsimp only) <;> (repeat' split) <;> simp
@[simp] theorem keepQuench_pe (s : State) (r : QuenchReport) : (s.keepQuench r).pe = s.pe := by
  unfold State.keepQuench; (try dsimp only) <;> (repeat' split) <;> simp
@[simp] theorem keepQuench_sq (s : State) (r : QuenchReport) : (s.keepQuench r).sq = s.sq := by
  unfold State.keepQuench; (try dsimp only) <;> (repeat' split) <;> simp
@[simp] theorem keepQuench_stk (s : State) (r : QuenchReport) : (s.keepQuench r).stk = s.stk := by
  unfold State.keepQuench; (try dsimp only) <;> (repeat' split) <;> simp
@[simp] theorem keepQuench_lu (s : State) (r : QuenchReport) : (s.keepQuench r).lu = s.lu := by
  unfold State.keepQuench; (try dsimp only) <;> (repeat' split) <;> simp
@[simp] theorem keepQuench_freeCount (s : State) (r : QuenchReport) : (s.keepQuench r).freeCount = s.freeCount := by
  unfold State.keepQuench; (try dsimp only) <;> (repeat' split) <;> simp

@[simp] theorem judgeIndications_pending (s : State) : (s.judgeIndications).pending = s.pending := by
  unfold State.judgeIndications; (try dsimp only) <;> (repeat' split) <;> simp
@[simp] theorem judgeIndications_cu (s : State) : (s.judgeIndications).cu = s.cu := by
  unfold State.judgeIndications; (try dsimp only) <;> (repeat' split) <;> simp
@[simp] theorem judgeIndications_zt (s : State) : (s.judgeIndications).zt = s.zt := by
  unfold State.judgeIndications; (try dsimp only) <;> (repeat' split) <;> simp
@[simp] theorem judgeIndications_rs (s : State) : (s.judgeIndications).rs = s.rs := by
  unfold State.judgeIndications; (try dsimp only) <;> (repeat' split) <;> simp
@[simp] theorem judgeIndications_pe (s : State) : (s.judgeIndications).pe = s.pe := by
  unfold State.judgeIndications; (try dsimp only) <;> (repeat' split) <;> simp
@[simp] theorem judgeIndications_sq (s : State) : (s.judgeIndications).sq = s.sq := by
  unfold State.judgeIndications; (try dsimp only) <;> (repeat' split) <;> simp
@[simp] theorem judgeIndications_stk (s : State) : (s.judgeIndications).stk = s.stk := by
  unfold State.judgeIndications; (try dsimp only) <;> (repeat' split) <;> simp
@[simp] theorem judgeIndications_lu (s : State) : (s.judgeIndications).lu = s.lu := by
  unfold State.judgeIndications; (try dsimp only) <;> (repeat' split) <;> simp
@[simp] theorem judgeIndications_freeCount (s : State) : (s.judgeIndications).freeCount = s.freeCount := by
  unfold State.judgeIndications; (try dsimp only) <;> (repeat' split) <;> simp

@[simp] theorem watchPressure_pending (s : State) (r : QuenchReport) : (s.watchPressure r).pending = s.pending := by
  unfold State.watchPressure; (try dsimp only) <;> (repeat' split) <;> simp
@[simp] theorem watchPressure_cu (s : State) (r : QuenchReport) : (s.watchPressure r).cu = s.cu := by
  unfold State.watchPressure; (try dsimp only) <;> (repeat' split) <;> simp
@[simp] theorem watchPressure_zt (s : State) (r : QuenchReport) : (s.watchPressure r).zt = s.zt := by
  unfold State.watchPressure; (try dsimp only) <;> (repeat' split) <;> simp
@[simp] theorem watchPressure_rs (s : State) (r : QuenchReport) : (s.watchPressure r).rs = s.rs := by
  unfold State.watchPressure; (try dsimp only) <;> (repeat' split) <;> simp
@[simp] theorem watchPressure_pe (s : State) (r : QuenchReport) : (s.watchPressure r).pe = s.pe := by
  unfold State.watchPressure; (try dsimp only) <;> (repeat' split) <;> simp
@[simp] theorem watchPressure_stk (s : State) (r : QuenchReport) : (s.watchPressure r).stk = s.stk := by
  unfold State.watchPressure; (try dsimp only) <;> (repeat' split) <;> simp
@[simp] theorem watchPressure_lu (s : State) (r : QuenchReport) : (s.watchPressure r).lu = s.lu := by
  unfold State.watchPressure; (try dsimp only) <;> (repeat' split) <;> simp
@[simp] theorem watchPressure_lp (s : State) (r : QuenchReport) : (s.watchPressure r).lp = s.lp := by
  unfold State.watchPressure; (try dsimp only) <;> (repeat' split) <;> simp
@[simp] theorem watchPressure_freeCount (s : State) (r : QuenchReport) : (s.watchPressure r).freeCount = s.freeCount := by
  unfold State.watchPressure; (try dsimp only) <;> (repeat' split) <;> simp

@[simp] theorem quenchReport_pending (s : State) (p : Payload QuenchReport) : (s.quenchReport p).pending = s.pending := by
  unfold State.quenchReport; (try dsimp only) <;> (repeat' split) <;> simp
@[simp] theorem quenchReport_cu (s : State) (p : Payload QuenchReport) : (s.quenchReport p).cu = s.cu := by
  unfold State.quenchReport; (try dsimp only) <;> (repeat' split) <;> simp
@[simp] theorem quenchReport_zt (s : State) (p : Payload QuenchReport) : (s.quenchReport p).zt = s.zt := by
  unfold State.quenchReport; (try dsimp only) <;> (repeat' split) <;> simp
@[simp] theorem quenchReport_rs (s : State) (p : Payload QuenchReport) : (s.quenchReport p).rs = s.rs := by
  unfold State.quenchReport; (try dsimp only) <;> (repeat' split) <;> simp
@[simp] theorem quenchReport_pe (s : State) (p : Payload QuenchReport) : (s.quenchReport p).pe = s.pe := by
  unfold State.quenchReport; (try dsimp only) <;> (repeat' split) <;> simp
@[simp] theorem quenchReport_stk (s : State) (p : Payload QuenchReport) : (s.quenchReport p).stk = s.stk := by
  unfold State.quenchReport; (try dsimp only) <;> (repeat' split) <;> simp
@[simp] theorem quenchReport_lu (s : State) (p : Payload QuenchReport) : (s.quenchReport p).lu = s.lu := by
  unfold State.quenchReport; (try dsimp only) <;> (repeat' split) <;> simp
@[simp] theorem quenchReport_freeCount (s : State) (p : Payload QuenchReport) : (s.quenchReport p).freeCount = s.freeCount := by
  unfold State.quenchReport; (try dsimp only) <;> (repeat' split) <;> simp

@[simp] theorem updateExpiry_pending (s : State) : (s.updateExpiry).pending = s.pending := by
  unfold State.updateExpiry; (try dsimp only) <;> (repeat' split) <;> simp
@[simp] theorem updateExpiry_cu (s : State) : (s.updateExpiry).cu = s.cu := by
  unfold State.updateExpiry; (try dsimp only) <;> (repeat' split) <;> simp
@[simp] theorem updateExpiry_zt (s : State) : (s.updateExpiry).zt = s.zt := by
  unfold State.updateExpiry; (try dsimp only) <;> (repeat' split) <;> simp
@[simp] theorem updateExpiry_rs (s : State) : (s.updateExpiry).rs = s.rs := by
  unfold State.updateExpiry; (try dsimp only) <;> (repeat' split) <;> simp
@[simp] theorem updateExpiry_freeCount (s : State) : (s.updateExpiry).freeCount = s.freeCount := by
  unfold State.updateExpiry; (try dsimp only) <;> (repeat' split) <;> simp

@[simp] theorem waitExpiry_pending (s : State) : (s.waitExpiry).pending = s.pending := by
  unfold State.waitExpiry; (try dsimp only) <;> (repeat' split) <;> simp
@[simp] theorem waitExpiry_cu (s : State) : (s.waitExpiry).cu = s.cu := by
  unfold State.waitExpiry; (try dsimp only) <;> (repeat' split) <;> simp
@[simp] theorem waitExpiry_zt (s : State) : (s.waitExpiry).zt = s.zt := by
  unfold State.waitExpiry; (try dsimp only) <;> (repeat' split) <;> simp
@[simp] theorem waitExpiry_rs (s : State) : (s.waitExpiry).rs = s.rs := by
  unfold State.waitExpiry; (try dsimp only) <;> (repeat' split) <;> simp
@[simp] theorem waitExpiry_freeCount (s : State) : (s.waitExpiry).freeCount = s.freeCount := by
  unfold State.waitExpiry; (try dsimp only) <;> (repeat' split) <;> simp

@[simp] theorem dwellExpiry_pending (s : State) : (s.dwellExpiry).pending = s.pending := by
  unfold State.dwellExpiry; (try dsimp only) <;> (repeat' split) <;> simp
@[simp] theorem dwellExpiry_cu (s : State) : (s.dwellExpiry).cu = s.cu := by
  unfold State.dwellExpiry; (try dsimp only) <;> (repeat' split) <;> simp
@[simp] theorem dwellExpiry_zt (s : State) : (s.dwellExpiry).zt = s.zt := by
  unfold State.dwellExpiry; (try dsimp only) <;> (repeat' split) <;> simp
@[simp] theorem dwellExpiry_rs (s : State) : (s.dwellExpiry).rs = s.rs := by
  unfold State.dwellExpiry; (try dsimp only) <;> (repeat' split) <;> simp
@[simp] theorem dwellExpiry_freeCount (s : State) : (s.dwellExpiry).freeCount = s.freeCount := by
  unfold State.dwellExpiry; (try dsimp only) <;> (repeat' split) <;> simp

@[simp] theorem closeSummary_pending (s : State) (st : SummaryStatus) (c : Option FaultCode) : (s.closeSummary st c).pending = s.pending := by
  unfold State.closeSummary; (try dsimp only) <;> (repeat' split) <;> simp
@[simp] theorem closeSummary_cu (s : State) (st : SummaryStatus) (c : Option FaultCode) : (s.closeSummary st c).cu = s.cu := by
  unfold State.closeSummary; (try dsimp only) <;> (repeat' split) <;> simp
@[simp] theorem closeSummary_zt (s : State) (st : SummaryStatus) (c : Option FaultCode) : (s.closeSummary st c).zt = s.zt := by
  unfold State.closeSummary; (try dsimp only) <;> (repeat' split) <;> simp
@[simp] theorem closeSummary_rs (s : State) (st : SummaryStatus) (c : Option FaultCode) : (s.closeSummary st c).rs = s.rs := by
  unfold State.closeSummary; (try dsimp only) <;> (repeat' split) <;> simp
@[simp] theorem closeSummary_pe (s : State) (st : SummaryStatus) (c : Option FaultCode) : (s.closeSummary st c).pe = s.pe := by
  unfold State.closeSummary; (try dsimp only) <;> (repeat' split) <;> simp
@[simp] theorem closeSummary_sq (s : State) (st : SummaryStatus) (c : Option FaultCode) : (s.closeSummary st c).sq = s.sq := by
  unfold State.closeSummary; (try dsimp only) <;> (repeat' split) <;> simp
@[simp] theorem closeSummary_lu (s : State) (st : SummaryStatus) (c : Option FaultCode) : (s.closeSummary st c).lu = s.lu := by
  unfold State.closeSummary; (try dsimp only) <;> (repeat' split) <;> simp
@[simp] theorem closeSummary_lp (s : State) (st : SummaryStatus) (c : Option FaultCode) : (s.closeSummary st c).lp = s.lp := by
  unfold State.closeSummary; (try dsimp only) <;> (repeat' split) <;> simp
@[simp] theorem closeSummary_freeCount (s : State) (st : SummaryStatus) (c : Option FaultCode) : (s.closeSummary st c).freeCount = s.freeCount := by
  unfold State.closeSummary; (try dsimp only) <;> (repeat' split) <;> simp

@[simp] theorem enterDone_pending (s : State) : (s.enterDone).pending = s.pending := by
  unfold State.enterDone; (try dsimp only) <;> (repeat' split) <;> simp
@[simp] theorem enterDone_cu (s : State) : (s.enterDone).cu = s.cu := by
  unfold State.enterDone; (try dsimp only) <;> (repeat' split) <;> simp
@[simp] theorem enterDone_zt (s : State) : (s.enterDone).zt = s.zt := by
  unfold State.enterDone; (try dsimp only) <;> (repeat' split) <;> simp
@[simp] theorem enterDone_rs (s : State) : (s.enterDone).rs = s.rs := by
  unfold State.enterDone; (try dsimp only) <;> (repeat' split) <;> simp
@[simp] theorem enterDone_freeCount (s : State) : (s.enterDone).freeCount = s.freeCount := by
  unfold State.enterDone; (try dsimp only) <;> (repeat' split) <;> simp

@[simp] theorem postQuenchExpiry_pending (s : State) : (s.postQuenchExpiry).pending = s.pending := by
  unfold State.postQuenchExpiry; (try dsimp only) <;> (repeat' split) <;> simp
@[simp] theorem postQuenchExpiry_cu (s : State) : (s.postQuenchExpiry).cu = s.cu := by
  unfold State.postQuenchExpiry; (try dsimp only) <;> (repeat' split) <;> simp
@[simp] theorem postQuenchExpiry_zt (s : State) : (s.postQuenchExpiry).zt = s.zt := by
  unfold State.postQuenchExpiry; (try dsimp only) <;> (repeat' split) <;> simp
@[simp] theorem postQuenchExpiry_rs (s : State) : (s.postQuenchExpiry).rs = s.rs := by
  unfold State.postQuenchExpiry; (try dsimp only) <;> (repeat' split) <;> simp
@[simp] theorem postQuenchExpiry_freeCount (s : State) : (s.postQuenchExpiry).freeCount = s.freeCount := by
  unfold State.postQuenchExpiry; (try dsimp only) <;> (repeat' split) <;> simp

@[simp] theorem endFlood_pending (s : State) : (s.endFlood).pending = s.pending := by
  unfold State.endFlood; (try dsimp only) <;> (repeat' split) <;> simp
@[simp] theorem endFlood_cu (s : State) : (s.endFlood).cu = s.cu := by
  unfold State.endFlood; (try dsimp only) <;> (repeat' split) <;> simp
@[simp] theorem endFlood_zt (s : State) : (s.endFlood).zt = s.zt := by
  unfold State.endFlood; (try dsimp only) <;> (repeat' split) <;> simp
@[simp] theorem endFlood_rs (s : State) : (s.endFlood).rs = s.rs := by
  unfold State.endFlood; (try dsimp only) <;> (repeat' split) <;> simp
@[simp] theorem endFlood_pe (s : State) : (s.endFlood).pe = s.pe := by
  unfold State.endFlood; (try dsimp only) <;> (repeat' split) <;> simp
@[simp] theorem endFlood_stk (s : State) : (s.endFlood).stk = s.stk := by
  unfold State.endFlood; (try dsimp only) <;> (repeat' split) <;> simp
@[simp] theorem endFlood_lu (s : State) : (s.endFlood).lu = s.lu := by
  unfold State.endFlood; (try dsimp only) <;> (repeat' split) <;> simp
@[simp] theorem endFlood_lp (s : State) : (s.endFlood).lp = s.lp := by
  unfold State.endFlood; (try dsimp only) <;> (repeat' split) <;> simp
@[simp] theorem endFlood_freeCount (s : State) : (s.endFlood).freeCount = s.freeCount := by
  unfold State.endFlood; (try dsimp only) <;> (repeat' split) <;> simp

@[simp] theorem floodExpiry_pending (s : State) : (s.floodExpiry).pending = s.pending := by
  unfold State.floodExpiry; (try dsimp only) <;> (repeat' split) <;> simp
@[simp] theorem floodExpiry_cu (s : State) : (s.floodExpiry).cu = s.cu := by
  unfold State.floodExpiry; (try dsimp only) <;> (repeat' split) <;> simp
@[simp] theorem floodExpiry_zt (s : State) : (s.floodExpiry).zt = s.zt := by
  unfold State.floodExpiry; (try dsimp only) <;> (repeat' split) <;> simp
@[simp] theorem floodExpiry_rs (s : State) : (s.floodExpiry).rs = s.rs := by
  unfold State.floodExpiry; (try dsimp only) <;> (repeat' split) <;> simp
@[simp] theorem floodExpiry_freeCount (s : State) : (s.floodExpiry).freeCount = s.freeCount := by
  unfold State.floodExpiry; (try dsimp only) <;> (repeat' split) <;> simp

@[simp] theorem indexWatchExpiry_pending (s : State) : (s.indexWatchExpiry).pending = s.pending := by
  unfold State.indexWatchExpiry; (try dsimp only) <;> (repeat' split) <;> simp
@[simp] theorem indexWatchExpiry_cu (s : State) : (s.indexWatchExpiry).cu = s.cu := by
  unfold State.indexWatchExpiry; (try dsimp only) <;> (repeat' split) <;> simp
@[simp] theorem indexWatchExpiry_zt (s : State) : (s.indexWatchExpiry).zt = s.zt := by
  unfold State.indexWatchExpiry; (try dsimp only) <;> (repeat' split) <;> simp
@[simp] theorem indexWatchExpiry_rs (s : State) : (s.indexWatchExpiry).rs = s.rs := by
  unfold State.indexWatchExpiry; (try dsimp only) <;> (repeat' split) <;> simp
@[simp] theorem indexWatchExpiry_freeCount (s : State) : (s.indexWatchExpiry).freeCount = s.freeCount := by
  unfold State.indexWatchExpiry; (try dsimp only) <;> (repeat' split) <;> simp

@[simp] theorem pressureWatchExpiry_pending (s : State) : (s.pressureWatchExpiry).pending = s.pending := by
  unfold State.pressureWatchExpiry; (try dsimp only) <;> (repeat' split) <;> simp
@[simp] theorem pressureWatchExpiry_cu (s : State) : (s.pressureWatchExpiry).cu = s.cu := by
  unfold State.pressureWatchExpiry; (try dsimp only) <;> (repeat' split) <;> simp
@[simp] theorem pressureWatchExpiry_zt (s : State) : (s.pressureWatchExpiry).zt = s.zt := by
  unfold State.pressureWatchExpiry; (try dsimp only) <;> (repeat' split) <;> simp
@[simp] theorem pressureWatchExpiry_rs (s : State) : (s.pressureWatchExpiry).rs = s.rs := by
  unfold State.pressureWatchExpiry; (try dsimp only) <;> (repeat' split) <;> simp
@[simp] theorem pressureWatchExpiry_freeCount (s : State) : (s.pressureWatchExpiry).freeCount = s.freeCount := by
  unfold State.pressureWatchExpiry; (try dsimp only) <;> (repeat' split) <;> simp

@[simp] theorem endSeek_pending (s : State) : (s.endSeek).pending = s.pending := by
  unfold State.endSeek; (try dsimp only) <;> (repeat' split) <;> simp
@[simp] theorem endSeek_cu (s : State) : (s.endSeek).cu = s.cu := by
  unfold State.endSeek; (try dsimp only) <;> (repeat' split) <;> simp
@[simp] theorem endSeek_zt (s : State) : (s.endSeek).zt = s.zt := by
  unfold State.endSeek; (try dsimp only) <;> (repeat' split) <;> simp
@[simp] theorem endSeek_rs (s : State) : (s.endSeek).rs = s.rs := by
  unfold State.endSeek; (try dsimp only) <;> (repeat' split) <;> simp
@[simp] theorem endSeek_freeCount (s : State) : (s.endSeek).freeCount = s.freeCount := by
  unfold State.endSeek; (try dsimp only) <;> (repeat' split) <;> simp

@[simp] theorem datumStep_pending (s : State) (h : RecipeHeader) (c : Int) : (s.datumStep h c).pending = s.pending := by
  unfold State.datumStep; (try dsimp only) <;> (repeat' split) <;> simp
@[simp] theorem datumStep_zt (s : State) (h : RecipeHeader) (c : Int) : (s.datumStep h c).zt = s.zt := by
  unfold State.datumStep; (try dsimp only) <;> (repeat' split) <;> simp
@[simp] theorem datumStep_rs (s : State) (h : RecipeHeader) (c : Int) : (s.datumStep h c).rs = s.rs := by
  unfold State.datumStep; (try dsimp only) <;> (repeat' split) <;> simp
@[simp] theorem datumStep_freeCount (s : State) (h : RecipeHeader) (c : Int) : (s.datumStep h c).freeCount = s.freeCount := by
  unfold State.datumStep; (try dsimp only) <;> (repeat' split) <;> simp

@[simp] theorem datumEdge_pending (s : State) (c : Int) : (s.datumEdge c).pending = s.pending := by
  unfold State.datumEdge; (try dsimp only) <;> (repeat' split) <;> simp
@[simp] theorem datumEdge_zt (s : State) (c : Int) : (s.datumEdge c).zt = s.zt := by
  unfold State.datumEdge; (try dsimp only) <;> (repeat' split) <;> simp
@[simp] theorem datumEdge_rs (s : State) (c : Int) : (s.datumEdge c).rs = s.rs := by
  unfold State.datumEdge; (try dsimp only) <;> (repeat' split) <;> simp
@[simp] theorem datumEdge_freeCount (s : State) (c : Int) : (s.datumEdge c).freeCount = s.freeCount := by
  unfold State.datumEdge; (try dsimp only) <;> (repeat' split) <;> simp

@[simp] theorem endProbeEdge_pending (s : State) : (s.endProbeEdge).pending = s.pending := by
  unfold State.endProbeEdge; (try dsimp only) <;> (repeat' split) <;> simp
@[simp] theorem endProbeEdge_cu (s : State) : (s.endProbeEdge).cu = s.cu := by
  unfold State.endProbeEdge; (try dsimp only) <;> (repeat' split) <;> simp
@[simp] theorem endProbeEdge_zt (s : State) : (s.endProbeEdge).zt = s.zt := by
  unfold State.endProbeEdge; (try dsimp only) <;> (repeat' split) <;> simp
@[simp] theorem endProbeEdge_rs (s : State) : (s.endProbeEdge).rs = s.rs := by
  unfold State.endProbeEdge; (try dsimp only) <;> (repeat' split) <;> simp
@[simp] theorem endProbeEdge_freeCount (s : State) : (s.endProbeEdge).freeCount = s.freeCount := by
  unfold State.endProbeEdge; (try dsimp only) <;> (repeat' split) <;> simp

@[simp] theorem countRevolution_pending (s : State) : (s.countRevolution).pending = s.pending := by
  unfold State.countRevolution; (try dsimp only) <;> (repeat' split) <;> simp
@[simp] theorem countRevolution_cu (s : State) : (s.countRevolution).cu = s.cu := by
  unfold State.countRevolution; (try dsimp only) <;> (repeat' split) <;> simp
@[simp] theorem countRevolution_zt (s : State) : (s.countRevolution).zt = s.zt := by
  unfold State.countRevolution; (try dsimp only) <;> (repeat' split) <;> simp
@[simp] theorem countRevolution_rs (s : State) : (s.countRevolution).rs = s.rs := by
  unfold State.countRevolution; (try dsimp only) <;> (repeat' split) <;> simp
@[simp] theorem countRevolution_pe (s : State) : (s.countRevolution).pe = s.pe := by
  unfold State.countRevolution; (try dsimp only) <;> (repeat' split) <;> simp
@[simp] theorem countRevolution_stk (s : State) : (s.countRevolution).stk = s.stk := by
  unfold State.countRevolution; (try dsimp only) <;> (repeat' split) <;> simp
@[simp] theorem countRevolution_lu (s : State) : (s.countRevolution).lu = s.lu := by
  unfold State.countRevolution; (try dsimp only) <;> (repeat' split) <;> simp
@[simp] theorem countRevolution_lp (s : State) : (s.countRevolution).lp = s.lp := by
  unfold State.countRevolution; (try dsimp only) <;> (repeat' split) <;> simp
@[simp] theorem countRevolution_freeCount (s : State) : (s.countRevolution).freeCount = s.freeCount := by
  unfold State.countRevolution; (try dsimp only) <;> (repeat' split) <;> simp

@[simp] theorem judgeRevolution_pending (s : State) : (s.judgeRevolution).pending = s.pending := by
  unfold State.judgeRevolution; (try dsimp only) <;> (repeat' split) <;> simp
@[simp] theorem judgeRevolution_cu (s : State) : (s.judgeRevolution).cu = s.cu := by
  unfold State.judgeRevolution; (try dsimp only) <;> (repeat' split) <;> simp
@[simp] theorem judgeRevolution_zt (s : State) : (s.judgeRevolution).zt = s.zt := by
  unfold State.judgeRevolution; (try dsimp only) <;> (repeat' split) <;> simp
@[simp] theorem judgeRevolution_rs (s : State) : (s.judgeRevolution).rs = s.rs := by
  unfold State.judgeRevolution; (try dsimp only) <;> (repeat' split) <;> simp
@[simp] theorem judgeRevolution_freeCount (s : State) : (s.judgeRevolution).freeCount = s.freeCount := by
  unfold State.judgeRevolution; (try dsimp only) <;> (repeat' split) <;> simp

@[simp] theorem handRevolution_pending (s : State) : (s.handRevolution).pending = s.pending := by
  unfold State.handRevolution; (try dsimp only) <;> (repeat' split) <;> simp
@[simp] theorem handRevolution_cu (s : State) : (s.handRevolution).cu = s.cu := by
  unfold State.handRevolution; (try dsimp only) <;> (repeat' split) <;> simp
@[simp] theorem handRevolution_zt (s : State) : (s.handRevolution).zt = s.zt := by
  unfold State.handRevolution; (try dsimp only) <;> (repeat' split) <;> simp
@[simp] theorem handRevolution_rs (s : State) : (s.handRevolution).rs = s.rs := by
  unfold State.handRevolution; (try dsimp only) <;> (repeat' split) <;> simp
@[simp] theorem handRevolution_freeCount (s : State) : (s.handRevolution).freeCount = s.freeCount := by
  unfold State.handRevolution; (try dsimp only) <;> (repeat' split) <;> simp

@[simp] theorem indexEdge_pending (s : State) : (s.indexEdge).pending = s.pending := by
  unfold State.indexEdge; (try dsimp only) <;> (repeat' split) <;> simp
@[simp] theorem indexEdge_cu (s : State) : (s.indexEdge).cu = s.cu := by
  unfold State.indexEdge; (try dsimp only) <;> (repeat' split) <;> simp
@[simp] theorem indexEdge_zt (s : State) : (s.indexEdge).zt = s.zt := by
  unfold State.indexEdge; (try dsimp only) <;> (repeat' split) <;> simp
@[simp] theorem indexEdge_rs (s : State) : (s.indexEdge).rs = s.rs := by
  unfold State.indexEdge; (try dsimp only) <;> (repeat' split) <;> simp
@[simp] theorem indexEdge_freeCount (s : State) : (s.indexEdge).freeCount = s.freeCount := by
  unfold State.indexEdge; (try dsimp only) <;> (repeat' split) <;> simp

@[simp] theorem coilWaterLevel_pending (s : State) (b : Bool) : (s.coilWaterLevel b).pending = s.pending := by
  unfold State.coilWaterLevel; (try dsimp only) <;> (repeat' split) <;> simp
@[simp] theorem coilWaterLevel_cu (s : State) (b : Bool) : (s.coilWaterLevel b).cu = s.cu := by
  unfold State.coilWaterLevel; (try dsimp only) <;> (repeat' split) <;> simp
@[simp] theorem coilWaterLevel_zt (s : State) (b : Bool) : (s.coilWaterLevel b).zt = s.zt := by
  unfold State.coilWaterLevel; (try dsimp only) <;> (repeat' split) <;> simp
@[simp] theorem coilWaterLevel_rs (s : State) (b : Bool) : (s.coilWaterLevel b).rs = s.rs := by
  unfold State.coilWaterLevel; (try dsimp only) <;> (repeat' split) <;> simp
@[simp] theorem coilWaterLevel_freeCount (s : State) (b : Bool) : (s.coilWaterLevel b).freeCount = s.freeCount := by
  unfold State.coilWaterLevel; (try dsimp only) <;> (repeat' split) <;> simp

@[simp] theorem interlockLevel_pending (s : State) (b : Bool) : (s.interlockLevel b).pending = s.pending := by
  unfold State.interlockLevel; (try dsimp only) <;> (repeat' split) <;> simp
@[simp] theorem interlockLevel_cu (s : State) (b : Bool) : (s.interlockLevel b).cu = s.cu := by
  unfold State.interlockLevel; (try dsimp only) <;> (repeat' split) <;> simp
@[simp] theorem interlockLevel_zt (s : State) (b : Bool) : (s.interlockLevel b).zt = s.zt := by
  unfold State.interlockLevel; (try dsimp only) <;> (repeat' split) <;> simp
@[simp] theorem interlockLevel_rs (s : State) (b : Bool) : (s.interlockLevel b).rs = s.rs := by
  unfold State.interlockLevel; (try dsimp only) <;> (repeat' split) <;> simp
@[simp] theorem interlockLevel_freeCount (s : State) (b : Bool) : (s.interlockLevel b).freeCount = s.freeCount := by
  unfold State.interlockLevel; (try dsimp only) <;> (repeat' split) <;> simp

@[simp] theorem handLevel_pending (s : State) (fn : InputFn) (a b : Bool) (c : Int) : (s.handLevel fn a b c).pending = s.pending := by
  unfold State.handLevel; (try dsimp only) <;> (repeat' split) <;> simp
@[simp] theorem handLevel_zt (s : State) (fn : InputFn) (a b : Bool) (c : Int) : (s.handLevel fn a b c).zt = s.zt := by
  unfold State.handLevel; (try dsimp only) <;> (repeat' split) <;> simp
@[simp] theorem handLevel_rs (s : State) (fn : InputFn) (a b : Bool) (c : Int) : (s.handLevel fn a b c).rs = s.rs := by
  unfold State.handLevel; (try dsimp only) <;> (repeat' split) <;> simp
@[simp] theorem handLevel_freeCount (s : State) (fn : InputFn) (a b : Bool) (c : Int) : (s.handLevel fn a b c).freeCount = s.freeCount := by
  unfold State.handLevel; (try dsimp only) <;> (repeat' split) <;> simp

@[simp] theorem captureLine_pending (s : State) (k : LineNo) (e : LineEdge) (c : Int) : (s.captureLine k e c).pending = s.pending := by
  unfold State.captureLine; (try dsimp only) <;> (repeat' split) <;> simp
@[simp] theorem captureLine_zt (s : State) (k : LineNo) (e : LineEdge) (c : Int) : (s.captureLine k e c).zt = s.zt := by
  unfold State.captureLine; (try dsimp only) <;> (repeat' split) <;> simp
@[simp] theorem captureLine_rs (s : State) (k : LineNo) (e : LineEdge) (c : Int) : (s.captureLine k e c).rs = s.rs := by
  unfold State.captureLine; (try dsimp only) <;> (repeat' split) <;> simp
@[simp] theorem captureLine_pe (s : State) (k : LineNo) (e : LineEdge) (c : Int) : (s.captureLine k e c).pe = s.pe := by
  unfold State.captureLine; (try dsimp only) <;> (repeat' split) <;> simp
@[simp] theorem captureLine_sq (s : State) (k : LineNo) (e : LineEdge) (c : Int) : (s.captureLine k e c).sq = s.sq := by
  unfold State.captureLine; (try dsimp only) <;> (repeat' split) <;> simp
@[simp] theorem captureLine_stk (s : State) (k : LineNo) (e : LineEdge) (c : Int) : (s.captureLine k e c).stk = s.stk := by
  unfold State.captureLine; (try dsimp only) <;> (repeat' split) <;> simp
@[simp] theorem captureLine_lu (s : State) (k : LineNo) (e : LineEdge) (c : Int) : (s.captureLine k e c).lu = s.lu := by
  unfold State.captureLine; (try dsimp only) <;> (repeat' split) <;> simp
@[simp] theorem captureLine_lp (s : State) (k : LineNo) (e : LineEdge) (c : Int) : (s.captureLine k e c).lp = s.lp := by
  unfold State.captureLine; (try dsimp only) <;> (repeat' split) <;> simp
@[simp] theorem captureLine_freeCount (s : State) (k : LineNo) (e : LineEdge) (c : Int) : (s.captureLine k e c).freeCount = s.freeCount := by
  unfold State.captureLine; (try dsimp only) <;> (repeat' split) <;> simp

@[simp] theorem captureIf_pending (s : State) (b : Bool) (k : LineNo) (e : LineEdge) (c : Int) : (s.captureIf b k e c).pending = s.pending := by
  unfold State.captureIf; (try dsimp only) <;> (repeat' split) <;> simp
@[simp] theorem captureIf_zt (s : State) (b : Bool) (k : LineNo) (e : LineEdge) (c : Int) : (s.captureIf b k e c).zt = s.zt := by
  unfold State.captureIf; (try dsimp only) <;> (repeat' split) <;> simp
@[simp] theorem captureIf_rs (s : State) (b : Bool) (k : LineNo) (e : LineEdge) (c : Int) : (s.captureIf b k e c).rs = s.rs := by
  unfold State.captureIf; (try dsimp only) <;> (repeat' split) <;> simp
@[simp] theorem captureIf_pe (s : State) (b : Bool) (k : LineNo) (e : LineEdge) (c : Int) : (s.captureIf b k e c).pe = s.pe := by
  unfold State.captureIf; (try dsimp only) <;> (repeat' split) <;> simp
@[simp] theorem captureIf_sq (s : State) (b : Bool) (k : LineNo) (e : LineEdge) (c : Int) : (s.captureIf b k e c).sq = s.sq := by
  unfold State.captureIf; (try dsimp only) <;> (repeat' split) <;> simp
@[simp] theorem captureIf_stk (s : State) (b : Bool) (k : LineNo) (e : LineEdge) (c : Int) : (s.captureIf b k e c).stk = s.stk := by
  unfold State.captureIf; (try dsimp only) <;> (repeat' split) <;> simp
@[simp] theorem captureIf_lu (s : State) (b : Bool) (k : LineNo) (e : LineEdge) (c : Int) : (s.captureIf b k e c).lu = s.lu := by
  unfold State.captureIf; (try dsimp only) <;> (repeat' split) <;> simp
@[simp] theorem captureIf_lp (s : State) (b : Bool) (k : LineNo) (e : LineEdge) (c : Int) : (s.captureIf b k e c).lp = s.lp := by
  unfold State.captureIf; (try dsimp only) <;> (repeat' split) <;> simp
@[simp] theorem captureIf_freeCount (s : State) (b : Bool) (k : LineNo) (e : LineEdge) (c : Int) : (s.captureIf b k e c).freeCount = s.freeCount := by
  unfold State.captureIf; (try dsimp only) <;> (repeat' split) <;> simp

@[simp] theorem acceptLine_pending (s : State) (k : LineNo) : (s.acceptLine k).pending = s.pending := by
  unfold State.acceptLine; (try dsimp only) <;> (repeat' split) <;> simp
@[simp] theorem acceptLine_cu (s : State) (k : LineNo) : (s.acceptLine k).cu = s.cu := by
  unfold State.acceptLine; (try dsimp only) <;> (repeat' split) <;> simp
@[simp] theorem acceptLine_zt (s : State) (k : LineNo) : (s.acceptLine k).zt = s.zt := by
  unfold State.acceptLine; (try dsimp only) <;> (repeat' split) <;> simp
@[simp] theorem acceptLine_rs (s : State) (k : LineNo) : (s.acceptLine k).rs = s.rs := by
  unfold State.acceptLine; (try dsimp only) <;> (repeat' split) <;> simp
@[simp] theorem acceptLine_pe (s : State) (k : LineNo) : (s.acceptLine k).pe = s.pe := by
  unfold State.acceptLine; (try dsimp only) <;> (repeat' split) <;> simp
@[simp] theorem acceptLine_sq (s : State) (k : LineNo) : (s.acceptLine k).sq = s.sq := by
  unfold State.acceptLine; (try dsimp only) <;> (repeat' split) <;> simp
@[simp] theorem acceptLine_stk (s : State) (k : LineNo) : (s.acceptLine k).stk = s.stk := by
  unfold State.acceptLine; (try dsimp only) <;> (repeat' split) <;> simp
@[simp] theorem acceptLine_lp (s : State) (k : LineNo) : (s.acceptLine k).lp = s.lp := by
  unfold State.acceptLine; (try dsimp only) <;> (repeat' split) <;> simp
@[simp] theorem acceptLine_freeCount (s : State) (k : LineNo) : (s.acceptLine k).freeCount = s.freeCount := by
  unfold State.acceptLine; (try dsimp only) <;> (repeat' split) <;> simp

@[simp] theorem filterExpiry_pending (s : State) (k : LineNo) : (s.filterExpiry k).pending = s.pending := by
  unfold State.filterExpiry; (try dsimp only) <;> (repeat' split) <;> simp
@[simp] theorem filterExpiry_zt (s : State) (k : LineNo) : (s.filterExpiry k).zt = s.zt := by
  unfold State.filterExpiry; (try dsimp only) <;> (repeat' split) <;> simp
@[simp] theorem filterExpiry_rs (s : State) (k : LineNo) : (s.filterExpiry k).rs = s.rs := by
  unfold State.filterExpiry; (try dsimp only) <;> (repeat' split) <;> simp
@[simp] theorem filterExpiry_freeCount (s : State) (k : LineNo) : (s.filterExpiry k).freeCount = s.freeCount := by
  unfold State.filterExpiry; (try dsimp only) <;> (repeat' split) <;> simp

@[simp] theorem pinChange_pending (s : State) (k : LineNo) (d : PinDrive) : (s.pinChange k d).pending = s.pending := by
  unfold State.pinChange; (try dsimp only) <;> (repeat' split) <;> simp
@[simp] theorem pinChange_cu (s : State) (k : LineNo) (d : PinDrive) : (s.pinChange k d).cu = s.cu := by
  unfold State.pinChange; (try dsimp only) <;> (repeat' split) <;> simp
@[simp] theorem pinChange_zt (s : State) (k : LineNo) (d : PinDrive) : (s.pinChange k d).zt = s.zt := by
  unfold State.pinChange; (try dsimp only) <;> (repeat' split) <;> simp
@[simp] theorem pinChange_rs (s : State) (k : LineNo) (d : PinDrive) : (s.pinChange k d).rs = s.rs := by
  unfold State.pinChange; (try dsimp only) <;> (repeat' split) <;> simp
@[simp] theorem pinChange_pe (s : State) (k : LineNo) (d : PinDrive) : (s.pinChange k d).pe = s.pe := by
  unfold State.pinChange; (try dsimp only) <;> (repeat' split) <;> simp
@[simp] theorem pinChange_sq (s : State) (k : LineNo) (d : PinDrive) : (s.pinChange k d).sq = s.sq := by
  unfold State.pinChange; (try dsimp only) <;> (repeat' split) <;> simp
@[simp] theorem pinChange_stk (s : State) (k : LineNo) (d : PinDrive) : (s.pinChange k d).stk = s.stk := by
  unfold State.pinChange; (try dsimp only) <;> (repeat' split) <;> simp
@[simp] theorem pinChange_lp (s : State) (k : LineNo) (d : PinDrive) : (s.pinChange k d).lp = s.lp := by
  unfold State.pinChange; (try dsimp only) <;> (repeat' split) <;> simp
@[simp] theorem pinChange_freeCount (s : State) (k : LineNo) (d : PinDrive) : (s.pinChange k d).freeCount = s.freeCount := by
  unfold State.pinChange; (try dsimp only) <;> (repeat' split) <;> simp

@[simp] theorem markExpiry_pending (s : State) (k : MarkNo) : (s.markExpiry k).pending = s.pending := by
  unfold State.markExpiry; (try dsimp only) <;> (repeat' split) <;> simp
@[simp] theorem markExpiry_cu (s : State) (k : MarkNo) : (s.markExpiry k).cu = s.cu := by
  unfold State.markExpiry; (try dsimp only) <;> (repeat' split) <;> simp
@[simp] theorem markExpiry_zt (s : State) (k : MarkNo) : (s.markExpiry k).zt = s.zt := by
  unfold State.markExpiry; (try dsimp only) <;> (repeat' split) <;> simp
@[simp] theorem markExpiry_rs (s : State) (k : MarkNo) : (s.markExpiry k).rs = s.rs := by
  unfold State.markExpiry; (try dsimp only) <;> (repeat' split) <;> simp
@[simp] theorem markExpiry_pe (s : State) (k : MarkNo) : (s.markExpiry k).pe = s.pe := by
  unfold State.markExpiry; (try dsimp only) <;> (repeat' split) <;> simp
@[simp] theorem markExpiry_sq (s : State) (k : MarkNo) : (s.markExpiry k).sq = s.sq := by
  unfold State.markExpiry; (try dsimp only) <;> (repeat' split) <;> simp
@[simp] theorem markExpiry_stk (s : State) (k : MarkNo) : (s.markExpiry k).stk = s.stk := by
  unfold State.markExpiry; (try dsimp only) <;> (repeat' split) <;> simp
@[simp] theorem markExpiry_lp (s : State) (k : MarkNo) : (s.markExpiry k).lp = s.lp := by
  unfold State.markExpiry; (try dsimp only) <;> (repeat' split) <;> simp
@[simp] theorem markExpiry_freeCount (s : State) (k : MarkNo) : (s.markExpiry k).freeCount = s.freeCount := by
  unfold State.markExpiry; (try dsimp only) <;> (repeat' split) <;> simp

@[simp] theorem withdrawalExpiry_pending (s : State) : (s.withdrawalExpiry).pending = s.pending := by
  unfold State.withdrawalExpiry; (try dsimp only) <;> (repeat' split) <;> simp
@[simp] theorem withdrawalExpiry_cu (s : State) : (s.withdrawalExpiry).cu = s.cu := by
  unfold State.withdrawalExpiry; (try dsimp only) <;> (repeat' split) <;> simp
@[simp] theorem withdrawalExpiry_zt (s : State) : (s.withdrawalExpiry).zt = s.zt := by
  unfold State.withdrawalExpiry; (try dsimp only) <;> (repeat' split) <;> simp
@[simp] theorem withdrawalExpiry_rs (s : State) : (s.withdrawalExpiry).rs = s.rs := by
  unfold State.withdrawalExpiry; (try dsimp only) <;> (repeat' split) <;> simp
@[simp] theorem withdrawalExpiry_freeCount (s : State) : (s.withdrawalExpiry).freeCount = s.freeCount := by
  unfold State.withdrawalExpiry; (try dsimp only) <;> (repeat' split) <;> simp

@[simp] theorem loseQuench_pending (s : State) : (s.loseQuench).pending = s.pending := by
  unfold State.loseQuench; (try dsimp only) <;> (repeat' split) <;> simp
@[simp] theorem loseQuench_cu (s : State) : (s.loseQuench).cu = s.cu := by
  unfold State.loseQuench; (try dsimp only) <;> (repeat' split) <;> simp
@[simp] theorem loseQuench_zt (s : State) : (s.loseQuench).zt = s.zt := by
  unfold State.loseQuench; (try dsimp only) <;> (repeat' split) <;> simp
@[simp] theorem loseQuench_rs (s : State) : (s.loseQuench).rs = s.rs := by
  unfold State.loseQuench; (try dsimp only) <;> (repeat' split) <;> simp
@[simp] theorem loseQuench_pe (s : State) : (s.loseQuench).pe = s.pe := by
  unfold State.loseQuench; (try dsimp only) <;> (repeat' split) <;> simp
@[simp] theorem loseQuench_sq (s : State) : (s.loseQuench).sq = s.sq := by
  unfold State.loseQuench; (try dsimp only) <;> (repeat' split) <;> simp
@[simp] theorem loseQuench_stk (s : State) : (s.loseQuench).stk = s.stk := by
  unfold State.loseQuench; (try dsimp only) <;> (repeat' split) <;> simp
@[simp] theorem loseQuench_lu (s : State) : (s.loseQuench).lu = s.lu := by
  unfold State.loseQuench; (try dsimp only) <;> (repeat' split) <;> simp
@[simp] theorem loseQuench_freeCount (s : State) : (s.loseQuench).freeCount = s.freeCount := by
  unfold State.loseQuench; (try dsimp only) <;> (repeat' split) <;> simp

@[simp] theorem applyLossPolicy_pending (s : State) : (s.applyLossPolicy).pending = s.pending := by
  unfold State.applyLossPolicy; (try dsimp only) <;> (repeat' split) <;> simp
@[simp] theorem applyLossPolicy_cu (s : State) : (s.applyLossPolicy).cu = s.cu := by
  unfold State.applyLossPolicy; (try dsimp only) <;> (repeat' split) <;> simp
@[simp] theorem applyLossPolicy_zt (s : State) : (s.applyLossPolicy).zt = s.zt := by
  unfold State.applyLossPolicy; (try dsimp only) <;> (repeat' split) <;> simp
@[simp] theorem applyLossPolicy_rs (s : State) : (s.applyLossPolicy).rs = s.rs := by
  unfold State.applyLossPolicy; (try dsimp only) <;> (repeat' split) <;> simp
@[simp] theorem applyLossPolicy_freeCount (s : State) : (s.applyLossPolicy).freeCount = s.freeCount := by
  unfold State.applyLossPolicy; (try dsimp only) <;> (repeat' split) <;> simp

@[simp] theorem resetIfPending_pending (s : State) : (s.resetIfPending).pending = s.pending := by
  unfold State.resetIfPending; (try dsimp only) <;> (repeat' split) <;> simp

@[simp] theorem loseSupervisor_pending (s : State) : (s.loseSupervisor).pending = s.pending := by
  unfold State.loseSupervisor; (try dsimp only) <;> (repeat' split) <;> simp

@[simp] theorem loseLink_pending (s : State) (w : Port) : (s.loseLink w).pending = s.pending := by
  unfold State.loseLink; (try dsimp only) <;> (repeat' split) <;> simp
@[simp] theorem loseLink_cu (s : State) (w : Port) : (s.loseLink w).cu = s.cu := by
  unfold State.loseLink; (try dsimp only) <;> (repeat' split) <;> simp
@[simp] theorem loseLink_zt (s : State) (w : Port) : (s.loseLink w).zt = s.zt := by
  unfold State.loseLink; (try dsimp only) <;> (repeat' split) <;> simp
@[simp] theorem loseLink_rs (s : State) (w : Port) : (s.loseLink w).rs = s.rs := by
  unfold State.loseLink; (try dsimp only) <;> (repeat' split) <;> simp
@[simp] theorem loseLink_pe (s : State) (w : Port) : (s.loseLink w).pe = s.pe := by
  unfold State.loseLink; (try dsimp only) <;> (repeat' split) <;> simp
@[simp] theorem loseLink_sq (s : State) (w : Port) : (s.loseLink w).sq = s.sq := by
  unfold State.loseLink; (try dsimp only) <;> (repeat' split) <;> simp
@[simp] theorem loseLink_stk (s : State) (w : Port) : (s.loseLink w).stk = s.stk := by
  unfold State.loseLink; (try dsimp only) <;> (repeat' split) <;> simp
@[simp] theorem loseLink_lu (s : State) (w : Port) : (s.loseLink w).lu = s.lu := by
  unfold State.loseLink; (try dsimp only) <;> (repeat' split) <;> simp
@[simp] theorem loseLink_freeCount (s : State) (w : Port) : (s.loseLink w).freeCount = s.freeCount := by
  unfold State.loseLink; (try dsimp only) <;> (repeat' split) <;> simp

@[simp] theorem livenessExpiry_pending (s : State) (w : Port) : (s.livenessExpiry w).pending = s.pending := by
  unfold State.livenessExpiry; (try dsimp only) <;> (repeat' split) <;> simp

@[simp] theorem transmitComplete_pending (s : State) (w : Port) : (s.transmitComplete w).pending = s.pending := by
  unfold State.transmitComplete; (try dsimp only) <;> (repeat' split) <;> simp
@[simp] theorem transmitComplete_cu (s : State) (w : Port) : (s.transmitComplete w).cu = s.cu := by
  unfold State.transmitComplete; (try dsimp only) <;> (repeat' split) <;> simp
@[simp] theorem transmitComplete_zt (s : State) (w : Port) : (s.transmitComplete w).zt = s.zt := by
  unfold State.transmitComplete; (try dsimp only) <;> (repeat' split) <;> simp
@[simp] theorem transmitComplete_rs (s : State) (w : Port) : (s.transmitComplete w).rs = s.rs := by
  unfold State.transmitComplete; (try dsimp only) <;> (repeat' split) <;> simp
@[simp] theorem transmitComplete_pe (s : State) (w : Port) : (s.transmitComplete w).pe = s.pe := by
  unfold State.transmitComplete; (try dsimp only) <;> (repeat' split) <;> simp
@[simp] theorem transmitComplete_sq (s : State) (w : Port) : (s.transmitComplete w).sq = s.sq := by
  unfold State.transmitComplete; (try dsimp only) <;> (repeat' split) <;> simp
@[simp] theorem transmitComplete_stk (s : State) (w : Port) : (s.transmitComplete w).stk = s.stk := by
  unfold State.transmitComplete; (try dsimp only) <;> (repeat' split) <;> simp
@[simp] theorem transmitComplete_lu (s : State) (w : Port) : (s.transmitComplete w).lu = s.lu := by
  unfold State.transmitComplete; (try dsimp only) <;> (repeat' split) <;> simp
@[simp] theorem transmitComplete_freeCount (s : State) (w : Port) : (s.transmitComplete w).freeCount = s.freeCount := by
  unfold State.transmitComplete; (try dsimp only) <;> (repeat' split) <;> simp

@[simp] theorem powerSendExpiry_pending (s : State) : (s.powerSendExpiry).pending = s.pending := by
  unfold State.powerSendExpiry; (try dsimp only) <;> (repeat' split) <;> simp
@[simp] theorem powerSendExpiry_cu (s : State) : (s.powerSendExpiry).cu = s.cu := by
  unfold State.powerSendExpiry; (try dsimp only) <;> (repeat' split) <;> simp
@[simp] theorem powerSendExpiry_zt (s : State) : (s.powerSendExpiry).zt = s.zt := by
  unfold State.powerSendExpiry; (try dsimp only) <;> (repeat' split) <;> simp
@[simp] theorem powerSendExpiry_rs (s : State) : (s.powerSendExpiry).rs = s.rs := by
  unfold State.powerSendExpiry; (try dsimp only) <;> (repeat' split) <;> simp
@[simp] theorem powerSendExpiry_pe (s : State) : (s.powerSendExpiry).pe = s.pe := by
  unfold State.powerSendExpiry; (try dsimp only) <;> (repeat' split) <;> simp
@[simp] theorem powerSendExpiry_sq (s : State) : (s.powerSendExpiry).sq = s.sq := by
  unfold State.powerSendExpiry; (try dsimp only) <;> (repeat' split) <;> simp
@[simp] theorem powerSendExpiry_stk (s : State) : (s.powerSendExpiry).stk = s.stk := by
  unfold State.powerSendExpiry; (try dsimp only) <;> (repeat' split) <;> simp
@[simp] theorem powerSendExpiry_lu (s : State) : (s.powerSendExpiry).lu = s.lu := by
  unfold State.powerSendExpiry; (try dsimp only) <;> (repeat' split) <;> simp
@[simp] theorem powerSendExpiry_freeCount (s : State) : (s.powerSendExpiry).freeCount = s.freeCount := by
  unfold State.powerSendExpiry; (try dsimp only) <;> (repeat' split) <;> simp

@[simp] theorem quenchSendExpiry_pending (s : State) : (s.quenchSendExpiry).pending = s.pending := by
  unfold State.quenchSendExpiry; (try dsimp only) <;> (repeat' split) <;> simp
@[simp] theorem quenchSendExpiry_cu (s : State) : (s.quenchSendExpiry).cu = s.cu := by
  unfold State.quenchSendExpiry; (try dsimp only) <;> (repeat' split) <;> simp
@[simp] theorem quenchSendExpiry_zt (s : State) : (s.quenchSendExpiry).zt = s.zt := by
  unfold State.quenchSendExpiry; (try dsimp only) <;> (repeat' split) <;> simp
@[simp] theorem quenchSendExpiry_rs (s : State) : (s.quenchSendExpiry).rs = s.rs := by
  unfold State.quenchSendExpiry; (try dsimp only) <;> (repeat' split) <;> simp
@[simp] theorem quenchSendExpiry_pe (s : State) : (s.quenchSendExpiry).pe = s.pe := by
  unfold State.quenchSendExpiry; (try dsimp only) <;> (repeat' split) <;> simp
@[simp] theorem quenchSendExpiry_sq (s : State) : (s.quenchSendExpiry).sq = s.sq := by
  unfold State.quenchSendExpiry; (try dsimp only) <;> (repeat' split) <;> simp
@[simp] theorem quenchSendExpiry_stk (s : State) : (s.quenchSendExpiry).stk = s.stk := by
  unfold State.quenchSendExpiry; (try dsimp only) <;> (repeat' split) <;> simp
@[simp] theorem quenchSendExpiry_lu (s : State) : (s.quenchSendExpiry).lu = s.lu := by
  unfold State.quenchSendExpiry; (try dsimp only) <;> (repeat' split) <;> simp
@[simp] theorem quenchSendExpiry_freeCount (s : State) : (s.quenchSendExpiry).freeCount = s.freeCount := by
  unfold State.quenchSendExpiry; (try dsimp only) <;> (repeat' split) <;> simp

@[simp] theorem answerRole_pending (s : State) (tag : Byte) : (s.answerRole tag).pending = s.pending := by
  unfold State.answerRole; (try dsimp only) <;> (repeat' split) <;> simp
@[simp] theorem answerRole_cu (s : State) (tag : Byte) : (s.answerRole tag).cu = s.cu := by
  unfold State.answerRole; (try dsimp only) <;> (repeat' split) <;> simp
@[simp] theorem answerRole_zt (s : State) (tag : Byte) : (s.answerRole tag).zt = s.zt := by
  unfold State.answerRole; (try dsimp only) <;> (repeat' split) <;> simp
@[simp] theorem answerRole_rs (s : State) (tag : Byte) : (s.answerRole tag).rs = s.rs := by
  unfold State.answerRole; (try dsimp only) <;> (repeat' split) <;> simp
@[simp] theorem answerRole_pe (s : State) (tag : Byte) : (s.answerRole tag).pe = s.pe := by
  unfold State.answerRole; (try dsimp only) <;> (repeat' split) <;> simp
@[simp] theorem answerRole_sq (s : State) (tag : Byte) : (s.answerRole tag).sq = s.sq := by
  unfold State.answerRole; (try dsimp only) <;> (repeat' split) <;> simp
@[simp] theorem answerRole_stk (s : State) (tag : Byte) : (s.answerRole tag).stk = s.stk := by
  unfold State.answerRole; (try dsimp only) <;> (repeat' split) <;> simp
@[simp] theorem answerRole_lu (s : State) (tag : Byte) : (s.answerRole tag).lu = s.lu := by
  unfold State.answerRole; (try dsimp only) <;> (repeat' split) <;> simp
@[simp] theorem answerRole_freeCount (s : State) (tag : Byte) : (s.answerRole tag).freeCount = s.freeCount := by
  unfold State.answerRole; (try dsimp only) <;> (repeat' split) <;> simp

@[simp] theorem setRx_pending (s : State) (w : Port) (r : RxPhase) (g : Option Nat) : (s.setRx w r g).pending = s.pending := by
  unfold State.setRx; (try dsimp only) <;> (repeat' split) <;> simp
@[simp] theorem setRx_cu (s : State) (w : Port) (r : RxPhase) (g : Option Nat) : (s.setRx w r g).cu = s.cu := by
  unfold State.setRx; (try dsimp only) <;> (repeat' split) <;> simp
@[simp] theorem setRx_zt (s : State) (w : Port) (r : RxPhase) (g : Option Nat) : (s.setRx w r g).zt = s.zt := by
  unfold State.setRx; (try dsimp only) <;> (repeat' split) <;> simp
@[simp] theorem setRx_rs (s : State) (w : Port) (r : RxPhase) (g : Option Nat) : (s.setRx w r g).rs = s.rs := by
  unfold State.setRx; (try dsimp only) <;> (repeat' split) <;> simp
@[simp] theorem setRx_pe (s : State) (w : Port) (r : RxPhase) (g : Option Nat) : (s.setRx w r g).pe = s.pe := by
  unfold State.setRx; (try dsimp only) <;> (repeat' split) <;> simp
@[simp] theorem setRx_sq (s : State) (w : Port) (r : RxPhase) (g : Option Nat) : (s.setRx w r g).sq = s.sq := by
  unfold State.setRx; (try dsimp only) <;> (repeat' split) <;> simp
@[simp] theorem setRx_stk (s : State) (w : Port) (r : RxPhase) (g : Option Nat) : (s.setRx w r g).stk = s.stk := by
  unfold State.setRx; (try dsimp only) <;> (repeat' split) <;> simp
@[simp] theorem setRx_lu (s : State) (w : Port) (r : RxPhase) (g : Option Nat) : (s.setRx w r g).lu = s.lu := by
  unfold State.setRx; (try dsimp only) <;> (repeat' split) <;> simp
@[simp] theorem setRx_freeCount (s : State) (w : Port) (r : RxPhase) (g : Option Nat) : (s.setRx w r g).freeCount = s.freeCount := by
  unfold State.setRx; (try dsimp only) <;> (repeat' split) <;> simp

@[simp] theorem discardFrame_pending (s : State) (w : Port) : (s.discardFrame w).pending = s.pending := by
  unfold State.discardFrame; (try dsimp only) <;> (repeat' split) <;> simp
@[simp] theorem discardFrame_cu (s : State) (w : Port) : (s.discardFrame w).cu = s.cu := by
  unfold State.discardFrame; (try dsimp only) <;> (repeat' split) <;> simp
@[simp] theorem discardFrame_zt (s : State) (w : Port) : (s.discardFrame w).zt = s.zt := by
  unfold State.discardFrame; (try dsimp only) <;> (repeat' split) <;> simp
@[simp] theorem discardFrame_rs (s : State) (w : Port) : (s.discardFrame w).rs = s.rs := by
  unfold State.discardFrame; (try dsimp only) <;> (repeat' split) <;> simp
@[simp] theorem discardFrame_pe (s : State) (w : Port) : (s.discardFrame w).pe = s.pe := by
  unfold State.discardFrame; (try dsimp only) <;> (repeat' split) <;> simp
@[simp] theorem discardFrame_sq (s : State) (w : Port) : (s.discardFrame w).sq = s.sq := by
  unfold State.discardFrame; (try dsimp only) <;> (repeat' split) <;> simp
@[simp] theorem discardFrame_stk (s : State) (w : Port) : (s.discardFrame w).stk = s.stk := by
  unfold State.discardFrame; (try dsimp only) <;> (repeat' split) <;> simp
@[simp] theorem discardFrame_lu (s : State) (w : Port) : (s.discardFrame w).lu = s.lu := by
  unfold State.discardFrame; (try dsimp only) <;> (repeat' split) <;> simp
@[simp] theorem discardFrame_freeCount (s : State) (w : Port) : (s.discardFrame w).freeCount = s.freeCount := by
  unfold State.discardFrame; (try dsimp only) <;> (repeat' split) <;> simp

@[simp] theorem gapExpiry_pending (s : State) (w : Port) : (s.gapExpiry w).pending = s.pending := by
  unfold State.gapExpiry; (try dsimp only) <;> (repeat' split) <;> simp
@[simp] theorem gapExpiry_cu (s : State) (w : Port) : (s.gapExpiry w).cu = s.cu := by
  unfold State.gapExpiry; (try dsimp only) <;> (repeat' split) <;> simp
@[simp] theorem gapExpiry_zt (s : State) (w : Port) : (s.gapExpiry w).zt = s.zt := by
  unfold State.gapExpiry; (try dsimp only) <;> (repeat' split) <;> simp
@[simp] theorem gapExpiry_rs (s : State) (w : Port) : (s.gapExpiry w).rs = s.rs := by
  unfold State.gapExpiry; (try dsimp only) <;> (repeat' split) <;> simp
@[simp] theorem gapExpiry_pe (s : State) (w : Port) : (s.gapExpiry w).pe = s.pe := by
  unfold State.gapExpiry; (try dsimp only) <;> (repeat' split) <;> simp
@[simp] theorem gapExpiry_sq (s : State) (w : Port) : (s.gapExpiry w).sq = s.sq := by
  unfold State.gapExpiry; (try dsimp only) <;> (repeat' split) <;> simp
@[simp] theorem gapExpiry_stk (s : State) (w : Port) : (s.gapExpiry w).stk = s.stk := by
  unfold State.gapExpiry; (try dsimp only) <;> (repeat' split) <;> simp
@[simp] theorem gapExpiry_lu (s : State) (w : Port) : (s.gapExpiry w).lu = s.lu := by
  unfold State.gapExpiry; (try dsimp only) <;> (repeat' split) <;> simp
@[simp] theorem gapExpiry_freeCount (s : State) (w : Port) : (s.gapExpiry w).freeCount = s.freeCount := by
  unfold State.gapExpiry; (try dsimp only) <;> (repeat' split) <;> simp

@[simp] theorem refuseControl_pending (s : State) (w : Port) (tag : Byte) : (s.refuseControl w tag).pending = s.pending := by
  unfold State.refuseControl; (try dsimp only) <;> (repeat' split) <;> simp
@[simp] theorem refuseControl_cu (s : State) (w : Port) (tag : Byte) : (s.refuseControl w tag).cu = s.cu := by
  unfold State.refuseControl; (try dsimp only) <;> (repeat' split) <;> simp
@[simp] theorem refuseControl_zt (s : State) (w : Port) (tag : Byte) : (s.refuseControl w tag).zt = s.zt := by
  unfold State.refuseControl; (try dsimp only) <;> (repeat' split) <;> simp
@[simp] theorem refuseControl_rs (s : State) (w : Port) (tag : Byte) : (s.refuseControl w tag).rs = s.rs := by
  unfold State.refuseControl; (try dsimp only) <;> (repeat' split) <;> simp
@[simp] theorem refuseControl_pe (s : State) (w : Port) (tag : Byte) : (s.refuseControl w tag).pe = s.pe := by
  unfold State.refuseControl; (try dsimp only) <;> (repeat' split) <;> simp
@[simp] theorem refuseControl_sq (s : State) (w : Port) (tag : Byte) : (s.refuseControl w tag).sq = s.sq := by
  unfold State.refuseControl; (try dsimp only) <;> (repeat' split) <;> simp
@[simp] theorem refuseControl_stk (s : State) (w : Port) (tag : Byte) : (s.refuseControl w tag).stk = s.stk := by
  unfold State.refuseControl; (try dsimp only) <;> (repeat' split) <;> simp
@[simp] theorem refuseControl_lu (s : State) (w : Port) (tag : Byte) : (s.refuseControl w tag).lu = s.lu := by
  unfold State.refuseControl; (try dsimp only) <;> (repeat' split) <;> simp
@[simp] theorem refuseControl_freeCount (s : State) (w : Port) (tag : Byte) : (s.refuseControl w tag).freeCount = s.freeCount := by
  unfold State.refuseControl; (try dsimp only) <;> (repeat' split) <;> simp

@[simp] theorem takeControlPayload_pending (s : State) (w : Port) (tag : Byte) (l : List Byte) : (s.takeControlPayload w tag l).pending = s.pending := by
  unfold State.takeControlPayload; (try dsimp only) <;> (repeat' split) <;> simp
@[simp] theorem takeControlPayload_zt (s : State) (w : Port) (tag : Byte) (l : List Byte) : (s.takeControlPayload w tag l).zt = s.zt := by
  unfold State.takeControlPayload; (try dsimp only) <;> (repeat' split) <;> simp
@[simp] theorem takeControlPayload_rs (s : State) (w : Port) (tag : Byte) (l : List Byte) : (s.takeControlPayload w tag l).rs = s.rs := by
  unfold State.takeControlPayload; (try dsimp only) <;> (repeat' split) <;> simp
@[simp] theorem takeControlPayload_freeCount (s : State) (w : Port) (tag : Byte) (l : List Byte) : (s.takeControlPayload w tag l).freeCount = s.freeCount := by
  unfold State.takeControlPayload; (try dsimp only) <;> (repeat' split) <;> simp

@[simp] theorem takeSupervisor_pending (s : State) (k : FrameKind) (tag : Byte) (l : List Byte) : (s.takeSupervisor k tag l).pending = s.pending := by
  unfold State.takeSupervisor; (repeat' split) <;> first | exact takeRequest_keeps State.pending _ _ _ _ (by simp) (by simp) (by simp) | simp

@[simp] theorem takeFrame_pending (s : State) (w : Port) (k tag : Byte) (l : List Byte) : (s.takeFrame w k tag l).pending = s.pending := by
  unfold State.takeFrame; (try dsimp only) <;> (repeat' split) <;> simp

@[simp] theorem endHeader_pending (s : State) (w : Port) (k tag n : Byte) : (s.endHeader w k tag n).pending = s.pending := by
  unfold State.endHeader; (try dsimp only) <;> (repeat' split) <;> simp
@[simp] theorem endHeader_cu (s : State) (w : Port) (k tag n : Byte) : (s.endHeader w k tag n).cu = s.cu := by
  unfold State.endHeader; (try dsimp only) <;> (repeat' split) <;> simp
@[simp] theorem endHeader_zt (s : State) (w : Port) (k tag n : Byte) : (s.endHeader w k tag n).zt = s.zt := by
  unfold State.endHeader; (try dsimp only) <;> (repeat' split) <;> simp
@[simp] theorem endHeader_rs (s : State) (w : Port) (k tag n : Byte) : (s.endHeader w k tag n).rs = s.rs := by
  unfold State.endHeader; (try dsimp only) <;> (repeat' split) <;> simp
@[simp] theorem endHeader_pe (s : State) (w : Port) (k tag n : Byte) : (s.endHeader w k tag n).pe = s.pe := by
  unfold State.endHeader; (try dsimp only) <;> (repeat' split) <;> simp
@[simp] theorem endHeader_sq (s : State) (w : Port) (k tag n : Byte) : (s.endHeader w k tag n).sq = s.sq := by
  unfold State.endHeader; (try dsimp only) <;> (repeat' split) <;> simp
@[simp] theorem endHeader_stk (s : State) (w : Port) (k tag n : Byte) : (s.endHeader w k tag n).stk = s.stk := by
  unfold State.endHeader; (try dsimp only) <;> (repeat' split) <;> simp
@[simp] theorem endHeader_lu (s : State) (w : Port) (k tag n : Byte) : (s.endHeader w k tag n).lu = s.lu := by
  unfold State.endHeader; (try dsimp only) <;> (repeat' split) <;> simp
@[simp] theorem endHeader_freeCount (s : State) (w : Port) (k tag n : Byte) : (s.endHeader w k tag n).freeCount = s.freeCount := by
  unfold State.endHeader; (try dsimp only) <;> (repeat' split) <;> simp

@[simp] theorem endCheck_pending (s : State) (w : Port) (k tag : Byte) (l : List Byte) (a b : Byte) : (s.endCheck w k tag l a b).pending = s.pending := by
  unfold State.endCheck; (try dsimp only) <;> (repeat' split) <;> simp

@[simp] theorem goodCharacter_pending (s : State) (w : Port) (c : Byte) : (s.goodCharacter w c).pending = s.pending := by
  unfold State.goodCharacter; (try dsimp only) <;> (repeat' split) <;> simp

@[simp] theorem takeCharacter_pending (s : State) (w : Port) (c : Byte) (g : Bool) : (s.takeCharacter w c g).pending = s.pending := by
  unfold State.takeCharacter; (try dsimp only) <;> (repeat' split) <;> simp

end State

end Sys2Proof.Machine
end

