-- ==== Sys2Proof/Laws/Links.lean ====
section
/-! SUPPORT. What sending, arriving and answering leave of the link ports beside the four ports themselves. -/

namespace Sys2Proof.Machine

@[simp] theorem Lp.setPort_control (l : Lp) (v : PortState) (w : Port) : (l.setPort v w).control = l.control := by
  cases w <;> rfl
@[simp] theorem Lp.setPort_power (l : Lp) (v : PortState) (w : Port) : (l.setPort v w).power = l.power := by
  cases w <;> rfl
@[simp] theorem Lp.setPort_drive (l : Lp) (v : PortState) (w : Port) : (l.setPort v w).drive = l.drive := by
  cases w <;> rfl
@[simp] theorem Lp.setPort_quench (l : Lp) (v : PortState) (w : Port) : (l.setPort v w).quench = l.quench := by
  cases w <;> rfl
@[simp] theorem Lp.setPort_pressureLow (l : Lp) (v : PortState) (w : Port) : (l.setPort v w).pressureLow = l.pressureLow := by
  cases w <;> rfl
@[simp] theorem Lp.setPort_quenchantOut (l : Lp) (v : PortState) (w : Port) : (l.setPort v w).quenchantOut = l.quenchantOut := by
  cases w <;> rfl
@[simp] theorem Lp.setPort_staging (l : Lp) (v : PortState) (w : Port) : (l.setPort v w).staging = l.staging := by
  cases w <;> rfl
@[simp] theorem Lp.setPort_buffer (l : Lp) (v : PortState) (w : Port) : (l.setPort v w).buffer = l.buffer := by
  cases w <;> rfl
@[simp] theorem Lp.setPort_pendingReset (l : Lp) (v : PortState) (w : Port) : (l.setPort v w).pendingReset = l.pendingReset := by
  cases w <;> rfl

@[simp] theorem Lp.sendSet_control (l : Lp) (i : SendInput) (w : Port) : (l.sendSet i w).control = l.control := by
  cases w <;> rfl
@[simp] theorem Lp.sendSet_power (l : Lp) (i : SendInput) (w : Port) : (l.sendSet i w).power = l.power := by
  cases w <;> rfl
@[simp] theorem Lp.sendSet_drive (l : Lp) (i : SendInput) (w : Port) : (l.sendSet i w).drive = l.drive := by
  cases w <;> rfl
@[simp] theorem Lp.sendSet_quench (l : Lp) (i : SendInput) (w : Port) : (l.sendSet i w).quench = l.quench := by
  cases w <;> rfl
@[simp] theorem Lp.sendSet_pressureLow (l : Lp) (i : SendInput) (w : Port) : (l.sendSet i w).pressureLow = l.pressureLow := by
  cases w <;> rfl
@[simp] theorem Lp.sendSet_quenchantOut (l : Lp) (i : SendInput) (w : Port) : (l.sendSet i w).quenchantOut = l.quenchantOut := by
  cases w <;> rfl
@[simp] theorem Lp.sendSet_staging (l : Lp) (i : SendInput) (w : Port) : (l.sendSet i w).staging = l.staging := by
  cases w <;> rfl
@[simp] theorem Lp.sendSet_buffer (l : Lp) (i : SendInput) (w : Port) : (l.sendSet i w).buffer = l.buffer := by
  cases w <;> rfl
@[simp] theorem Lp.sendSet_pendingReset (l : Lp) (i : SendInput) (w : Port) : (l.sendSet i w).pendingReset = l.pendingReset := by
  cases w <;> rfl

@[simp] theorem Lp.kick_control (l : Lp) (i : SendInput) (w : Port) : (l.kick i w).control = l.control := by
  unfold Lp.kick; dsimp only; (repeat' split) <;> simp
@[simp] theorem Lp.kick_power (l : Lp) (i : SendInput) (w : Port) : (l.kick i w).power = l.power := by
  unfold Lp.kick; dsimp only; (repeat' split) <;> simp
@[simp] theorem Lp.kick_drive (l : Lp) (i : SendInput) (w : Port) : (l.kick i w).drive = l.drive := by
  unfold Lp.kick; dsimp only; (repeat' split) <;> simp
@[simp] theorem Lp.kick_quench (l : Lp) (i : SendInput) (w : Port) : (l.kick i w).quench = l.quench := by
  unfold Lp.kick; dsimp only; (repeat' split) <;> simp
@[simp] theorem Lp.kick_pressureLow (l : Lp) (i : SendInput) (w : Port) : (l.kick i w).pressureLow = l.pressureLow := by
  unfold Lp.kick; dsimp only; (repeat' split) <;> simp
@[simp] theorem Lp.kick_quenchantOut (l : Lp) (i : SendInput) (w : Port) : (l.kick i w).quenchantOut = l.quenchantOut := by
  unfold Lp.kick; dsimp only; (repeat' split) <;> simp
@[simp] theorem Lp.kick_staging (l : Lp) (i : SendInput) (w : Port) : (l.kick i w).staging = l.staging := by
  unfold Lp.kick; dsimp only; (repeat' split) <;> simp
@[simp] theorem Lp.kick_buffer (l : Lp) (i : SendInput) (w : Port) : (l.kick i w).buffer = l.buffer := by
  unfold Lp.kick; dsimp only; (repeat' split) <;> simp
@[simp] theorem Lp.kick_pendingReset (l : Lp) (i : SendInput) (w : Port) : (l.kick i w).pendingReset = l.pendingReset := by
  unfold Lp.kick; dsimp only; (repeat' split) <;> simp

@[simp] theorem Lp.notify_control (l : Lp) (i : SendInput) (n : StateNotice) (w : Port) : (l.notify i n w).control = l.control := by
  unfold Lp.notify; dsimp only; split <;> simp
@[simp] theorem Lp.notify_power (l : Lp) (i : SendInput) (n : StateNotice) (w : Port) : (l.notify i n w).power = l.power := by
  unfold Lp.notify; dsimp only; split <;> simp
@[simp] theorem Lp.notify_drive (l : Lp) (i : SendInput) (n : StateNotice) (w : Port) : (l.notify i n w).drive = l.drive := by
  unfold Lp.notify; dsimp only; split <;> simp
@[simp] theorem Lp.notify_quench (l : Lp) (i : SendInput) (n : StateNotice) (w : Port) : (l.notify i n w).quench = l.quench := by
  unfold Lp.notify; dsimp only; split <;> simp
@[simp] theorem Lp.notify_pressureLow (l : Lp) (i : SendInput) (n : StateNotice) (w : Port) : (l.notify i n w).pressureLow = l.pressureLow := by
  unfold Lp.notify; dsimp only; split <;> simp
@[simp] theorem Lp.notify_quenchantOut (l : Lp) (i : SendInput) (n : StateNotice) (w : Port) : (l.notify i n w).quenchantOut = l.quenchantOut := by
  unfold Lp.notify; dsimp only; split <;> simp
@[simp] theorem Lp.notify_staging (l : Lp) (i : SendInput) (n : StateNotice) (w : Port) : (l.notify i n w).staging = l.staging := by
  unfold Lp.notify; dsimp only; split <;> simp
@[simp] theorem Lp.notify_buffer (l : Lp) (i : SendInput) (n : StateNotice) (w : Port) : (l.notify i n w).buffer = l.buffer := by
  unfold Lp.notify; dsimp only; split <;> simp
@[simp] theorem Lp.notify_pendingReset (l : Lp) (i : SendInput) (n : StateNotice) (w : Port) : (l.notify i n w).pendingReset = l.pendingReset := by
  unfold Lp.notify; dsimp only; split <;> simp

@[simp] theorem Lp.markDue_control (l : Lp) (i : SendInput) (w : Port) : (l.markDue i w).control = l.control := by
  unfold Lp.markDue; dsimp only; split <;> simp
@[simp] theorem Lp.markDue_power (l : Lp) (i : SendInput) (w : Port) : (l.markDue i w).power = l.power := by
  unfold Lp.markDue; dsimp only; split <;> simp
@[simp] theorem Lp.markDue_drive (l : Lp) (i : SendInput) (w : Port) : (l.markDue i w).drive = l.drive := by
  unfold Lp.markDue; dsimp only; split <;> simp
@[simp] theorem Lp.markDue_quench (l : Lp) (i : SendInput) (w : Port) : (l.markDue i w).quench = l.quench := by
  unfold Lp.markDue; dsimp only; split <;> simp
@[simp] theorem Lp.markDue_pressureLow (l : Lp) (i : SendInput) (w : Port) : (l.markDue i w).pressureLow = l.pressureLow := by
  unfold Lp.markDue; dsimp only; split <;> simp
@[simp] theorem Lp.markDue_quenchantOut (l : Lp) (i : SendInput) (w : Port) : (l.markDue i w).quenchantOut = l.quenchantOut := by
  unfold Lp.markDue; dsimp only; split <;> simp
@[simp] theorem Lp.markDue_staging (l : Lp) (i : SendInput) (w : Port) : (l.markDue i w).staging = l.staging := by
  unfold Lp.markDue; dsimp only; split <;> simp
@[simp] theorem Lp.markDue_buffer (l : Lp) (i : SendInput) (w : Port) : (l.markDue i w).buffer = l.buffer := by
  unfold Lp.markDue; dsimp only; split <;> simp
@[simp] theorem Lp.markDue_pendingReset (l : Lp) (i : SendInput) (w : Port) : (l.markDue i w).pendingReset = l.pendingReset := by
  unfold Lp.markDue; dsimp only; split <;> simp

@[simp] theorem Lp.takeUpdate_control (l : Lp) (i : SendInput) (st : SeqState) : (l.takeUpdate i st).control = l.control := by
  unfold Lp.takeUpdate; dsimp only; (repeat' split) <;> simp
@[simp] theorem Lp.takeUpdate_power (l : Lp) (i : SendInput) (st : SeqState) : (l.takeUpdate i st).power = l.power := by
  unfold Lp.takeUpdate; dsimp only; (repeat' split) <;> simp
@[simp] theorem Lp.takeUpdate_drive (l : Lp) (i : SendInput) (st : SeqState) : (l.takeUpdate i st).drive = l.drive := by
  unfold Lp.takeUpdate; dsimp only; (repeat' split) <;> simp
@[simp] theorem Lp.takeUpdate_quench (l : Lp) (i : SendInput) (st : SeqState) : (l.takeUpdate i st).quench = l.quench := by
  unfold Lp.takeUpdate; dsimp only; (repeat' split) <;> simp
@[simp] theorem Lp.takeUpdate_pressureLow (l : Lp) (i : SendInput) (st : SeqState) : (l.takeUpdate i st).pressureLow = l.pressureLow := by
  unfold Lp.takeUpdate; dsimp only; (repeat' split) <;> simp
@[simp] theorem Lp.takeUpdate_quenchantOut (l : Lp) (i : SendInput) (st : SeqState) : (l.takeUpdate i st).quenchantOut = l.quenchantOut := by
  unfold Lp.takeUpdate; dsimp only; (repeat' split) <;> simp
@[simp] theorem Lp.takeUpdate_staging (l : Lp) (i : SendInput) (st : SeqState) : (l.takeUpdate i st).staging = l.staging := by
  unfold Lp.takeUpdate; dsimp only; (repeat' split) <;> simp
@[simp] theorem Lp.takeUpdate_buffer (l : Lp) (i : SendInput) (st : SeqState) : (l.takeUpdate i st).buffer = l.buffer := by
  unfold Lp.takeUpdate; dsimp only; (repeat' split) <;> simp
@[simp] theorem Lp.takeUpdate_pendingReset (l : Lp) (i : SendInput) (st : SeqState) : (l.takeUpdate i st).pendingReset = l.pendingReset := by
  unfold Lp.takeUpdate; dsimp only; (repeat' split) <;> simp

@[simp] theorem Lp.startCadence_control (l : Lp) (n : Nat) (w : Port) : (l.startCadence n w).control = l.control := by
  cases w <;> rfl
@[simp] theorem Lp.startCadence_power (l : Lp) (n : Nat) (w : Port) : (l.startCadence n w).power = l.power := by
  cases w <;> rfl
@[simp] theorem Lp.startCadence_drive (l : Lp) (n : Nat) (w : Port) : (l.startCadence n w).drive = l.drive := by
  cases w <;> rfl
@[simp] theorem Lp.startCadence_quench (l : Lp) (n : Nat) (w : Port) : (l.startCadence n w).quench = l.quench := by
  cases w <;> rfl
@[simp] theorem Lp.startCadence_pressureLow (l : Lp) (n : Nat) (w : Port) : (l.startCadence n w).pressureLow = l.pressureLow := by
  cases w <;> rfl
@[simp] theorem Lp.startCadence_quenchantOut (l : Lp) (n : Nat) (w : Port) : (l.startCadence n w).quenchantOut = l.quenchantOut := by
  cases w <;> rfl
@[simp] theorem Lp.startCadence_staging (l : Lp) (n : Nat) (w : Port) : (l.startCadence n w).staging = l.staging := by
  cases w <;> rfl
@[simp] theorem Lp.startCadence_buffer (l : Lp) (n : Nat) (w : Port) : (l.startCadence n w).buffer = l.buffer := by
  cases w <;> rfl
@[simp] theorem Lp.startCadence_pendingReset (l : Lp) (n : Nat) (w : Port) : (l.startCadence n w).pendingReset = l.pendingReset := by
  cases w <;> rfl

@[simp] theorem Lp.arrive_control (l : Lp) (i : SendInput) (n : StateNotice) (w : Port) : (l.arrive i n w).control = l.control := by
  unfold Lp.arrive; dsimp only; (repeat' split) <;> simp
@[simp] theorem Lp.arrive_power (l : Lp) (i : SendInput) (n : StateNotice) (w : Port) : (l.arrive i n w).power = l.power := by
  unfold Lp.arrive; dsimp only; (repeat' split) <;> simp
@[simp] theorem Lp.arrive_drive (l : Lp) (i : SendInput) (n : StateNotice) (w : Port) : (l.arrive i n w).drive = l.drive := by
  unfold Lp.arrive; dsimp only; (repeat' split) <;> simp
@[simp] theorem Lp.arrive_quench (l : Lp) (i : SendInput) (n : StateNotice) (w : Port) : (l.arrive i n w).quench = l.quench := by
  unfold Lp.arrive; dsimp only; (repeat' split) <;> simp
@[simp] theorem Lp.arrive_pressureLow (l : Lp) (i : SendInput) (n : StateNotice) (w : Port) : (l.arrive i n w).pressureLow = l.pressureLow := by
  unfold Lp.arrive; dsimp only; (repeat' split) <;> simp
@[simp] theorem Lp.arrive_quenchantOut (l : Lp) (i : SendInput) (n : StateNotice) (w : Port) : (l.arrive i n w).quenchantOut = l.quenchantOut := by
  unfold Lp.arrive; dsimp only; (repeat' split) <;> simp
@[simp] theorem Lp.arrive_staging (l : Lp) (i : SendInput) (n : StateNotice) (w : Port) : (l.arrive i n w).staging = l.staging := by
  unfold Lp.arrive; dsimp only; (repeat' split) <;> simp
@[simp] theorem Lp.arrive_buffer (l : Lp) (i : SendInput) (n : StateNotice) (w : Port) : (l.arrive i n w).buffer = l.buffer := by
  unfold Lp.arrive; dsimp only; (repeat' split) <;> simp
@[simp] theorem Lp.arrive_pendingReset (l : Lp) (i : SendInput) (n : StateNotice) (w : Port) : (l.arrive i n w).pendingReset = l.pendingReset := by
  unfold Lp.arrive; dsimp only; (repeat' split) <;> simp

@[simp] theorem Lp.answer_control (l : Lp) (i : SendInput) (tag : Byte) (a : Answer) : (l.answer i tag a).control = l.control := by
  unfold Lp.answer; simp
@[simp] theorem Lp.answer_power (l : Lp) (i : SendInput) (tag : Byte) (a : Answer) : (l.answer i tag a).power = l.power := by
  unfold Lp.answer; simp
@[simp] theorem Lp.answer_drive (l : Lp) (i : SendInput) (tag : Byte) (a : Answer) : (l.answer i tag a).drive = l.drive := by
  unfold Lp.answer; simp
@[simp] theorem Lp.answer_quench (l : Lp) (i : SendInput) (tag : Byte) (a : Answer) : (l.answer i tag a).quench = l.quench := by
  unfold Lp.answer; simp
@[simp] theorem Lp.answer_pressureLow (l : Lp) (i : SendInput) (tag : Byte) (a : Answer) : (l.answer i tag a).pressureLow = l.pressureLow := by
  unfold Lp.answer; simp
@[simp] theorem Lp.answer_quenchantOut (l : Lp) (i : SendInput) (tag : Byte) (a : Answer) : (l.answer i tag a).quenchantOut = l.quenchantOut := by
  unfold Lp.answer; simp
@[simp] theorem Lp.answer_staging (l : Lp) (i : SendInput) (tag : Byte) (a : Answer) : (l.answer i tag a).staging = l.staging := by
  unfold Lp.answer; simp
@[simp] theorem Lp.answer_buffer (l : Lp) (i : SendInput) (tag : Byte) (a : Answer) : (l.answer i tag a).buffer = l.buffer := by
  unfold Lp.answer; simp
@[simp] theorem Lp.answer_pendingReset (l : Lp) (i : SendInput) (tag : Byte) (a : Answer) : (l.answer i tag a).pendingReset = l.pendingReset := by
  unfold Lp.answer; simp

@[simp] theorem Lp.endFrame_control (l : Lp) (i : SendInput) (w : Port) : (l.endFrame i w).control = l.control := by
  unfold Lp.endFrame; simp
@[simp] theorem Lp.endFrame_power (l : Lp) (i : SendInput) (w : Port) : (l.endFrame i w).power = l.power := by
  unfold Lp.endFrame; simp
@[simp] theorem Lp.endFrame_drive (l : Lp) (i : SendInput) (w : Port) : (l.endFrame i w).drive = l.drive := by
  unfold Lp.endFrame; simp
@[simp] theorem Lp.endFrame_quench (l : Lp) (i : SendInput) (w : Port) : (l.endFrame i w).quench = l.quench := by
  unfold Lp.endFrame; simp
@[simp] theorem Lp.endFrame_pressureLow (l : Lp) (i : SendInput) (w : Port) : (l.endFrame i w).pressureLow = l.pressureLow := by
  unfold Lp.endFrame; simp
@[simp] theorem Lp.endFrame_quenchantOut (l : Lp) (i : SendInput) (w : Port) : (l.endFrame i w).quenchantOut = l.quenchantOut := by
  unfold Lp.endFrame; simp
@[simp] theorem Lp.endFrame_staging (l : Lp) (i : SendInput) (w : Port) : (l.endFrame i w).staging = l.staging := by
  unfold Lp.endFrame; simp
@[simp] theorem Lp.endFrame_buffer (l : Lp) (i : SendInput) (w : Port) : (l.endFrame i w).buffer = l.buffer := by
  unfold Lp.endFrame; simp
@[simp] theorem Lp.endFrame_pendingReset (l : Lp) (i : SendInput) (w : Port) : (l.endFrame i w).pendingReset = l.pendingReset := by
  unfold Lp.endFrame; simp

@[simp] theorem Lp.lose_control (l : Lp) (w : Port) : (l.lose w).control = l.control := by
  cases w <;> rfl
@[simp] theorem Lp.lose_power (l : Lp) (w : Port) : (l.lose w).power = l.power := by
  cases w <;> rfl
@[simp] theorem Lp.lose_drive (l : Lp) (w : Port) : (l.lose w).drive = l.drive := by
  cases w <;> rfl
@[simp] theorem Lp.lose_quench (l : Lp) (w : Port) : (l.lose w).quench = l.quench := by
  cases w <;> rfl
@[simp] theorem Lp.lose_pressureLow (l : Lp) (w : Port) : (l.lose w).pressureLow = l.pressureLow := by
  cases w <;> rfl
@[simp] theorem Lp.lose_quenchantOut (l : Lp) (w : Port) : (l.lose w).quenchantOut = l.quenchantOut := by
  cases w <;> rfl
@[simp] theorem Lp.lose_staging (l : Lp) (w : Port) : (l.lose w).staging = l.staging := by
  cases w <;> rfl
@[simp] theorem Lp.lose_buffer (l : Lp) (w : Port) : (l.lose w).buffer = l.buffer := by
  cases w <;> rfl
@[simp] theorem Lp.lose_pendingReset (l : Lp) (w : Port) : (l.lose w).pendingReset = l.pendingReset := by
  cases w <;> rfl

/-- A port written reads back as written. -/
@[simp] theorem Lp.port_setPort (l : Lp) (v : PortState) (w : Port) : (l.setPort v w).port w = v := by
  cases w <;> rfl

/-- A port written leaves the other ports. -/
theorem Lp.port_setPort_ne (l : Lp) (v : PortState) (w u : Port) (h : u ≠ w) : (l.setPort v w).port u = l.port u := by
  cases w <;> cases u <;> first | rfl | exact absurd rfl h

@[simp] theorem Lp.setPort_acks (l : Lp) (v : PortState) (w : Port) : (l.setPort v w).acks = l.acks := by
  cases w <;> rfl

@[simp] theorem Lp.sendSet_acks (l : Lp) (i : SendInput) (w : Port) : (l.sendSet i w).acks = l.acks := by
  cases w <;> rfl

@[simp] theorem Lp.startCadence_acks (l : Lp) (n : Nat) (w : Port) : (l.startCadence n w).acks = l.acks := by
  cases w <;> rfl

@[simp] theorem Lp.startCadence_port (l : Lp) (n : Nat) (w u : Port) : (l.startCadence n w).port u = l.port u := by
  cases w <;> cases u <;> rfl

/-- A send on an actuator port leaves the answers. -/
theorem Lp.kick_acks_actuator (l : Lp) (i : SendInput) (w : Port) (h : w ≠ .s) : (l.kick i w).acks = l.acks := by
  unfold Lp.kick
  cases w with
  | s => exact absurd rfl h
  | p => simp only [Lp.waitingAcks]; (repeat' split) <;> simp
  | m => simp only [Lp.waitingAcks]; (repeat' split) <;> simp
  | q => simp only [Lp.waitingAcks]; (repeat' split) <;> simp

/-- While a notice waits, a send leaves the answers. -/
theorem Lp.kick_acks_notice (l : Lp) (i : SendInput) (w : Port) (h : (l.port w).notices ≠ []) :
    (l.kick i w).acks = l.acks := by
  unfold Lp.kick
  dsimp only
  split
  · split
    · simp
    · next e => exact absurd e h
  · rfl

theorem pushNotice_ne_nil (l : List StateNotice) (n : StateNotice) : pushNotice l n ≠ [] := by
  unfold pushNotice; split <;> simp

@[simp] theorem Lp.notify_acks (l : Lp) (i : SendInput) (n : StateNotice) (w : Port) :
    (l.notify i n w).acks = l.acks := by
  unfold Lp.notify
  dsimp only
  split
  · rw [Lp.kick_acks_notice _ _ _ (by simp [pushNotice_ne_nil])]; simp
  · rfl

theorem Lp.markDue_acks (l : Lp) (i : SendInput) (w : Port) (h : w ≠ .s) : (l.markDue i w).acks = l.acks := by
  unfold Lp.markDue
  dsimp only
  split
  · rw [Lp.kick_acks_actuator _ _ _ h]; simp
  · rfl

@[simp] theorem Lp.takeUpdate_acks (l : Lp) (i : SendInput) (st : SeqState) : (l.takeUpdate i st).acks = l.acks := by
  unfold Lp.takeUpdate
  dsimp only
  (repeat' split) <;> simp [Lp.markDue_acks]

@[simp] theorem Lp.arrive_acks (l : Lp) (i : SendInput) (n : StateNotice) (w : Port) :
    (l.arrive i n w).acks = l.acks := by
  unfold Lp.arrive
  cases w <;> dsimp only [Port.isActuator] <;> (repeat' split) <;> simp_all [Lp.markDue_acks]

namespace State

@[simp] theorem arrive_lp_control (s : State) (w : Port) : (s.arrive w).lp.control = s.lp.control := by
  unfold State.arrive; simp
@[simp] theorem arrive_lp_power (s : State) (w : Port) : (s.arrive w).lp.power = s.lp.power := by
  unfold State.arrive; simp
@[simp] theorem arrive_lp_drive (s : State) (w : Port) : (s.arrive w).lp.drive = s.lp.drive := by
  unfold State.arrive; simp
@[simp] theorem arrive_lp_quench (s : State) (w : Port) : (s.arrive w).lp.quench = s.lp.quench := by
  unfold State.arrive; simp
@[simp] theorem arrive_lp_pressureLow (s : State) (w : Port) : (s.arrive w).lp.pressureLow = s.lp.pressureLow := by
  unfold State.arrive; simp
@[simp] theorem arrive_lp_quenchantOut (s : State) (w : Port) : (s.arrive w).lp.quenchantOut = s.lp.quenchantOut := by
  unfold State.arrive; simp
@[simp] theorem arrive_lp_staging (s : State) (w : Port) : (s.arrive w).lp.staging = s.lp.staging := by
  unfold State.arrive; simp
@[simp] theorem arrive_lp_buffer (s : State) (w : Port) : (s.arrive w).lp.buffer = s.lp.buffer := by
  unfold State.arrive; simp
@[simp] theorem arrive_lp_pendingReset (s : State) (w : Port) : (s.arrive w).lp.pendingReset = s.lp.pendingReset := by
  unfold State.arrive; simp
@[simp] theorem arrive_lp_acks (s : State) (w : Port) : (s.arrive w).lp.acks = s.lp.acks := by
  unfold State.arrive; simp

@[simp] theorem answer_lp_control (s : State) (tag : Byte) (a : Answer) : (s.answer tag a).lp.control = s.lp.control := by
  unfold State.answer; simp
@[simp] theorem answer_lp_power (s : State) (tag : Byte) (a : Answer) : (s.answer tag a).lp.power = s.lp.power := by
  unfold State.answer; simp
@[simp] theorem answer_lp_drive (s : State) (tag : Byte) (a : Answer) : (s.answer tag a).lp.drive = s.lp.drive := by
  unfold State.answer; simp
@[simp] theorem answer_lp_quench (s : State) (tag : Byte) (a : Answer) : (s.answer tag a).lp.quench = s.lp.quench := by
  unfold State.answer; simp
@[simp] theorem answer_lp_pressureLow (s : State) (tag : Byte) (a : Answer) : (s.answer tag a).lp.pressureLow = s.lp.pressureLow := by
  unfold State.answer; simp
@[simp] theorem answer_lp_quenchantOut (s : State) (tag : Byte) (a : Answer) : (s.answer tag a).lp.quenchantOut = s.lp.quenchantOut := by
  unfold State.answer; simp
@[simp] theorem answer_lp_staging (s : State) (tag : Byte) (a : Answer) : (s.answer tag a).lp.staging = s.lp.staging := by
  unfold State.answer; simp
@[simp] theorem answer_lp_buffer (s : State) (tag : Byte) (a : Answer) : (s.answer tag a).lp.buffer = s.lp.buffer := by
  unfold State.answer; simp
@[simp] theorem answer_lp_pendingReset (s : State) (tag : Byte) (a : Answer) : (s.answer tag a).lp.pendingReset = s.lp.pendingReset := by
  unfold State.answer; simp

@[simp] theorem announce_lp_control (s : State) : s.announce.lp.control = s.lp.control := by
  unfold State.announce; simp
@[simp] theorem announce_lp_power (s : State) : s.announce.lp.power = s.lp.power := by
  unfold State.announce; simp
@[simp] theorem announce_lp_drive (s : State) : s.announce.lp.drive = s.lp.drive := by
  unfold State.announce; simp
@[simp] theorem announce_lp_quench (s : State) : s.announce.lp.quench = s.lp.quench := by
  unfold State.announce; simp
@[simp] theorem announce_lp_pressureLow (s : State) : s.announce.lp.pressureLow = s.lp.pressureLow := by
  unfold State.announce; simp
@[simp] theorem announce_lp_quenchantOut (s : State) : s.announce.lp.quenchantOut = s.lp.quenchantOut := by
  unfold State.announce; simp
@[simp] theorem announce_lp_staging (s : State) : s.announce.lp.staging = s.lp.staging := by
  unfold State.announce; simp
@[simp] theorem announce_lp_buffer (s : State) : s.announce.lp.buffer = s.lp.buffer := by
  unfold State.announce; simp
@[simp] theorem announce_lp_pendingReset (s : State) : s.announce.lp.pendingReset = s.lp.pendingReset := by
  unfold State.announce; simp
@[simp] theorem announce_lp_acks (s : State) : s.announce.lp.acks = s.lp.acks := by
  unfold State.announce; simp

@[simp] theorem sendUpdate_lp_control (s : State) : s.sendUpdate.lp.control = s.lp.control := by
  unfold State.sendUpdate; simp
@[simp] theorem sendUpdate_lp_power (s : State) : s.sendUpdate.lp.power = s.lp.power := by
  unfold State.sendUpdate; simp
@[simp] theorem sendUpdate_lp_drive (s : State) : s.sendUpdate.lp.drive = s.lp.drive := by
  unfold State.sendUpdate; simp
@[simp] theorem sendUpdate_lp_quench (s : State) : s.sendUpdate.lp.quench = s.lp.quench := by
  unfold State.sendUpdate; simp
@[simp] theorem sendUpdate_lp_pressureLow (s : State) : s.sendUpdate.lp.pressureLow = s.lp.pressureLow := by
  unfold State.sendUpdate; simp
@[simp] theorem sendUpdate_lp_quenchantOut (s : State) : s.sendUpdate.lp.quenchantOut = s.lp.quenchantOut := by
  unfold State.sendUpdate; simp
@[simp] theorem sendUpdate_lp_staging (s : State) : s.sendUpdate.lp.staging = s.lp.staging := by
  unfold State.sendUpdate; simp
@[simp] theorem sendUpdate_lp_buffer (s : State) : s.sendUpdate.lp.buffer = s.lp.buffer := by
  unfold State.sendUpdate; simp
@[simp] theorem sendUpdate_lp_pendingReset (s : State) : s.sendUpdate.lp.pendingReset = s.lp.pendingReset := by
  unfold State.sendUpdate; simp
@[simp] theorem sendUpdate_lp_acks (s : State) : s.sendUpdate.lp.acks = s.lp.acks := by
  unfold State.sendUpdate; simp

@[simp] theorem handUpdate_lp_control (s : State) : s.handUpdate.lp.control = s.lp.control := by
  unfold State.handUpdate; simp
@[simp] theorem handUpdate_lp_power (s : State) : s.handUpdate.lp.power = s.lp.power := by
  unfold State.handUpdate; simp
@[simp] theorem handUpdate_lp_drive (s : State) : s.handUpdate.lp.drive = s.lp.drive := by
  unfold State.handUpdate; simp
@[simp] theorem handUpdate_lp_quench (s : State) : s.handUpdate.lp.quench = s.lp.quench := by
  unfold State.handUpdate; simp
@[simp] theorem handUpdate_lp_pressureLow (s : State) : s.handUpdate.lp.pressureLow = s.lp.pressureLow := by
  unfold State.handUpdate; simp
@[simp] theorem handUpdate_lp_quenchantOut (s : State) : s.handUpdate.lp.quenchantOut = s.lp.quenchantOut := by
  unfold State.handUpdate; simp
@[simp] theorem handUpdate_lp_staging (s : State) : s.handUpdate.lp.staging = s.lp.staging := by
  unfold State.handUpdate; simp
@[simp] theorem handUpdate_lp_buffer (s : State) : s.handUpdate.lp.buffer = s.lp.buffer := by
  unfold State.handUpdate; simp
@[simp] theorem handUpdate_lp_pendingReset (s : State) : s.handUpdate.lp.pendingReset = s.lp.pendingReset := by
  unfold State.handUpdate; simp
@[simp] theorem handUpdate_lp_acks (s : State) : s.handUpdate.lp.acks = s.lp.acks := by
  unfold State.handUpdate; simp

@[simp] theorem updateCore_lp_control (s : State) : s.updateCore.lp.control = s.lp.control := by
  unfold State.updateCore; simp
@[simp] theorem updateCore_lp_power (s : State) : s.updateCore.lp.power = s.lp.power := by
  unfold State.updateCore; simp
@[simp] theorem updateCore_lp_drive (s : State) : s.updateCore.lp.drive = s.lp.drive := by
  unfold State.updateCore; simp
@[simp] theorem updateCore_lp_quench (s : State) : s.updateCore.lp.quench = s.lp.quench := by
  unfold State.updateCore; simp
@[simp] theorem updateCore_lp_pressureLow (s : State) : s.updateCore.lp.pressureLow = s.lp.pressureLow := by
  unfold State.updateCore; simp
@[simp] theorem updateCore_lp_quenchantOut (s : State) : s.updateCore.lp.quenchantOut = s.lp.quenchantOut := by
  unfold State.updateCore; simp
@[simp] theorem updateCore_lp_staging (s : State) : s.updateCore.lp.staging = s.lp.staging := by
  unfold State.updateCore; simp
@[simp] theorem updateCore_lp_buffer (s : State) : s.updateCore.lp.buffer = s.lp.buffer := by
  unfold State.updateCore; simp
@[simp] theorem updateCore_lp_pendingReset (s : State) : s.updateCore.lp.pendingReset = s.lp.pendingReset := by
  unfold State.updateCore; simp
@[simp] theorem updateCore_lp_acks (s : State) : s.updateCore.lp.acks = s.lp.acks := by
  unfold State.updateCore; simp

@[simp] theorem handOn_lp_control (s : State) : s.handOn.lp.control = s.lp.control := by
  unfold State.handOn State.clearIndications; split <;> simp
@[simp] theorem change_lp_control (s : State) (st : SeqState) : (s.change st).lp.control = s.lp.control := by
  unfold State.change; simp
@[simp] theorem enterFault_lp_control (s : State) (c : FaultCode) (w : FaultSource) :
    (s.enterFault c w).lp.control = s.lp.control := by
  unfold State.enterFault; simp
@[simp] theorem handOn_lp_power (s : State) : s.handOn.lp.power = s.lp.power := by
  unfold State.handOn State.clearIndications; split <;> simp
@[simp] theorem change_lp_power (s : State) (st : SeqState) : (s.change st).lp.power = s.lp.power := by
  unfold State.change; simp
@[simp] theorem enterFault_lp_power (s : State) (c : FaultCode) (w : FaultSource) :
    (s.enterFault c w).lp.power = s.lp.power := by
  unfold State.enterFault; simp
@[simp] theorem handOn_lp_drive (s : State) : s.handOn.lp.drive = s.lp.drive := by
  unfold State.handOn State.clearIndications; split <;> simp
@[simp] theorem change_lp_drive (s : State) (st : SeqState) : (s.change st).lp.drive = s.lp.drive := by
  unfold State.change; simp
@[simp] theorem enterFault_lp_drive (s : State) (c : FaultCode) (w : FaultSource) :
    (s.enterFault c w).lp.drive = s.lp.drive := by
  unfold State.enterFault; simp
@[simp] theorem handOn_lp_quench (s : State) : s.handOn.lp.quench = s.lp.quench := by
  unfold State.handOn State.clearIndications; split <;> simp
@[simp] theorem change_lp_quench (s : State) (st : SeqState) : (s.change st).lp.quench = s.lp.quench := by
  unfold State.change; simp
@[simp] theorem enterFault_lp_quench (s : State) (c : FaultCode) (w : FaultSource) :
    (s.enterFault c w).lp.quench = s.lp.quench := by
  unfold State.enterFault; simp
@[simp] theorem handOn_lp_staging (s : State) : s.handOn.lp.staging = s.lp.staging := by
  unfold State.handOn State.clearIndications; split <;> simp
@[simp] theorem change_lp_staging (s : State) (st : SeqState) : (s.change st).lp.staging = s.lp.staging := by
  unfold State.change; simp
@[simp] theorem enterFault_lp_staging (s : State) (c : FaultCode) (w : FaultSource) :
    (s.enterFault c w).lp.staging = s.lp.staging := by
  unfold State.enterFault; simp
@[simp] theorem handOn_lp_buffer (s : State) : s.handOn.lp.buffer = s.lp.buffer := by
  unfold State.handOn State.clearIndications; split <;> simp
@[simp] theorem change_lp_buffer (s : State) (st : SeqState) : (s.change st).lp.buffer = s.lp.buffer := by
  unfold State.change; simp
@[simp] theorem enterFault_lp_buffer (s : State) (c : FaultCode) (w : FaultSource) :
    (s.enterFault c w).lp.buffer = s.lp.buffer := by
  unfold State.enterFault; simp
@[simp] theorem handOn_lp_pendingReset (s : State) : s.handOn.lp.pendingReset = s.lp.pendingReset := by
  unfold State.handOn State.clearIndications; split <;> simp
@[simp] theorem change_lp_pendingReset (s : State) (st : SeqState) : (s.change st).lp.pendingReset = s.lp.pendingReset := by
  unfold State.change; simp
@[simp] theorem enterFault_lp_pendingReset (s : State) (c : FaultCode) (w : FaultSource) :
    (s.enterFault c w).lp.pendingReset = s.lp.pendingReset := by
  unfold State.enterFault; simp
@[simp] theorem handOn_lp_acks (s : State) : s.handOn.lp.acks = s.lp.acks := by
  unfold State.handOn State.clearIndications; split <;> simp
@[simp] theorem change_lp_acks (s : State) (st : SeqState) : (s.change st).lp.acks = s.lp.acks := by
  unfold State.change; simp
@[simp] theorem enterFault_lp_acks (s : State) (c : FaultCode) (w : FaultSource) :
    (s.enterFault c w).lp.acks = s.lp.acks := by
  unfold State.enterFault; simp

end State

end Sys2Proof.Machine
end

