-- ==== Sys2Proof/Laws/Sending.lean ====
section
/-! SUPPORT. What a change of state and an update bring to the ports, in the statements' words, said once. -/

namespace Sys2Proof.Machine

/-! ## One set-point frame falling due (R150, R152 to R154) -/

/-- The set-point frame that falls due on an actuator port changes that port alone, and what was last sent there. -/
theorem markDue_frame (l : Lp) (i : SendInput) (w u : Port) (hw : w ≠ .s) (hu : u ≠ w) :
    (l.markDue i w).port u = l.port u := by
  unfold Lp.markDue Lp.kick
  cases w <;> cases u <;> first | exact absurd rfl hw | exact absurd rfl hu |
    (dsimp only [Lp.waitingAcks]; (repeat' split) <;> rfl)

theorem markDue_power (l : Lp) (i : SendInput) (w : Port) (hw : w ≠ .p) :
    (l.markDue i w).sentPower = l.sentPower ∧ (l.markDue i w).powerSend = l.powerSend := by
  unfold Lp.markDue Lp.kick
  cases w <;> first | exact absurd rfl hw | (dsimp only [Lp.waitingAcks]; (repeat' split) <;> exact ⟨rfl, rfl⟩)

theorem markDue_quench (l : Lp) (i : SendInput) (w : Port) (hw : w ≠ .q) :
    (l.markDue i w).sentQuench = l.sentQuench ∧ (l.markDue i w).quenchSend = l.quenchSend := by
  unfold Lp.markDue Lp.kick
  cases w <;> first | exact absurd rfl hw | (dsimp only [Lp.waitingAcks]; (repeat' split) <;> exact ⟨rfl, rfl⟩)

/-- Where the frame is begun, it is the last one sent. -/
theorem markDue_sentPower (l : Lp) (i : SendInput) :
    (BeginsNow l.portP → (l.markDue i .p).sentPower = some { power := i.pe.power, enable := i.pe.enable } ∧
      (l.markDue i .p).powerSend = some (i.now + 10000)) ∧
    (¬ BeginsNow l.portP → (l.markDue i .p).sentPower = l.sentPower ∧ (l.markDue i .p).powerSend = l.powerSend) := by
  unfold Lp.markDue Lp.kick BeginsNow
  dsimp only [Lp.port, Lp.setPort, Lp.waitingAcks]
  by_cases hl : l.portP.link = .online <;> cases ht : l.portP.tx <;> cases hn : l.portP.notices <;>
    simp_all [Lp.sendSet, Config.powerSend]

theorem markDue_sentQuench (l : Lp) (i : SendInput) :
    (BeginsNow l.portQ → (l.markDue i .q).sentQuench = some
        { mask := i.pe.mask, flow := i.pe.flow, flood := i.pe.flood, quenchZone := i.pe.quenchZone } ∧
      (l.markDue i .q).quenchSend = some (i.now + 5000)) ∧
    (¬ BeginsNow l.portQ →
      (l.markDue i .q).sentQuench = l.sentQuench ∧ (l.markDue i .q).quenchSend = l.quenchSend) := by
  unfold Lp.markDue Lp.kick BeginsNow
  dsimp only [Lp.port, Lp.setPort, Lp.waitingAcks]
  by_cases hl : l.portQ.link = .online <;> cases ht : l.portQ.tx <;> cases hn : l.portQ.notices <;>
    simp_all [Lp.sendSet, Config.quenchSend]

/-- The port on which a set-point frame falls due, where its own port is the one of state s (R150, R152 to R154). -/
theorem markDue_dueOn (s t : State) (l : Lp) (i : SendInput) (w : Port) (hw : w ≠ .s)
    (hp : l.port w = s.lp.port w) (hi : i = { pe := t.pe, direction := s.cu.direction, now := s.cu.cellTime })
    (ht : t.lp.port w = (l.markDue i w).port w) : DueOn w s t := by
  subst hi
  unfold DueOn
  rw [ht]
  rw [← hp]
  unfold Lp.markDue Lp.kick
  cases w with
  | s => exact absurd rfl hw
  | p =>
    have hp' : l.portP = s.lp.portP := hp
    dsimp only [Lp.port, Lp.setPort, Lp.waitingAcks]
    by_cases hl : l.portP.link = .online <;> cases hx : l.portP.tx <;> cases hn : l.portP.notices <;>
      simp_all [Lp.sendSet, setPointFrame, begun, SendInput.job, Lp.port]
  | m =>
    have hp' : l.portM = s.lp.portM := hp
    have hspeed : SendInput.speed { pe := t.pe, direction := s.cu.direction, now := s.cu.cellTime } =
        (if s.cu.direction = .plus then (t.pe.speed : Int) else -(t.pe.speed : Int)) := by
      unfold SendInput.speed; cases s.cu.direction <;> rfl
    dsimp only [Lp.port, Lp.setPort, Lp.waitingAcks]
    by_cases hl : l.portM.link = .online <;> cases hx : l.portM.tx <;> cases hn : l.portM.notices <;>
      simp_all [Lp.sendSet, setPointFrame, begun, SendInput.job, Lp.port]
    by_cases e : s.cu.direction = .plus <;> simp [e]
  | q =>
    have hp' : l.portQ = s.lp.portQ := hp
    dsimp only [Lp.port, Lp.setPort, Lp.waitingAcks]
    by_cases hl : l.portQ.link = .online <;> cases hx : l.portQ.tx <;> cases hn : l.portQ.notices <;>
      simp_all [Lp.sendSet, setPointFrame, begun, SendInput.job, Lp.port]

/-! ## An update's set-point frames (R152 to R154) -/

/-- What the links take of an update is what the statements call the frames sent (R152 to R154). -/
theorem takeUpdate_sent (s t : State) (i : SendInput)
    (hi : i = { pe := t.pe, direction := s.cu.direction, now := s.cu.cellTime })
    (ht : t.lp = s.lp.takeUpdate i s.sq.st) : SetPointsSent s t := by
  have hpe : i.pe = t.pe := by rw [hi]
  have hnow : i.now = s.cu.cellTime := by rw [hi]
  let l1 := if s.lp.powerDue s.sq.st i.pe then s.lp.markDue i .p else s.lp
  let l2 := l1.markDue i .m
  let l3 := if l2.quenchDue i.pe then l2.markDue i .q else l2
  have h3 : t.lp = l3 := ht
  have p1 : ∀ u, u ≠ .p → l1.port u = s.lp.port u := by
    intro u hu; simp only [l1]; split
    · exact markDue_frame _ _ _ _ (by decide) hu
    · rfl
  have p2 : ∀ u, u ≠ .m → l2.port u = l1.port u := fun u hu => markDue_frame _ _ _ _ (by decide) hu
  have p3 : ∀ u, u ≠ .q → l3.port u = l2.port u := by
    intro u hu; simp only [l3]; split
    · exact markDue_frame _ _ _ _ (by decide) hu
    · rfl
  have q1 : l1.sentQuench = s.lp.sentQuench ∧ l1.quenchSend = s.lp.quenchSend := by
    simp only [l1]; split
    · exact markDue_quench _ _ _ (by decide)
    · exact ⟨rfl, rfl⟩
  have q2 := markDue_quench l1 i .m (by decide)
  have w2 := markDue_power l1 i .m (by decide)
  have w3 : l3.sentPower = l2.sentPower ∧ l3.powerSend = l2.powerSend := by
    simp only [l3]; split
    · exact markDue_power _ _ _ (by decide)
    · exact ⟨rfl, rfl⟩
  have hP : t.lp.portP = l1.portP := by
    rw [h3]; exact (p3 .p (by decide)).trans (p2 .p (by decide))
  have hQ2 : l2.portQ = s.lp.portQ := (p2 .q (by decide)).trans (p1 .q (by decide))
  have hpow : s.lp.powerDue s.sq.st i.pe = true ↔
      (s.sq.st.isHeat = true ∨ s.lp.sentPower ≠ some { power := t.pe.power, enable := t.pe.enable }) := by
    rw [hpe]; simp [Lp.powerDue]
  have hque : l2.quenchDue i.pe = true ↔ s.lp.sentQuench ≠ some
      { mask := t.pe.mask, flow := t.pe.flow, flood := t.pe.flood, quenchZone := t.pe.quenchZone } := by
    rw [hpe]; simp [Lp.quenchDue, l2, q2.1, q1.1]
  have sp : t.lp.sentPower = l1.sentPower ∧ t.lp.powerSend = l1.powerSend := by
    rw [h3]; exact ⟨w3.1.trans w2.1, w3.2.trans w2.2⟩
  have sq2 : l2.sentQuench = s.lp.sentQuench ∧ l2.quenchSend = s.lp.quenchSend :=
    ⟨q2.1.trans q1.1, q2.2.trans q1.2⟩
  refine ⟨?_, ?_, ?_, ?_, ?_, ?_, ?_, ?_, ?_, ?_⟩
  · rw [h3]; exact ((p3 .s (by decide)).trans (p2 .s (by decide))).trans (p1 .s (by decide))
  · refine markDue_dueOn s t l1 i .m (by decide) (p1 .m (by decide)) hi ?_
    rw [h3]; exact p3 .m (by decide)
  · intro h
    refine markDue_dueOn s t s.lp i .p (by decide) rfl hi ?_
    show t.lp.portP = _
    rw [hP]; simp only [l1, if_pos (hpow.2 h)]; rfl
  · intro h
    rw [hP]; simp only [l1]; rw [if_neg (fun e => h (hpow.1 e))]
  · intro h
    refine markDue_dueOn s t l2 i .q (by decide) hQ2 hi ?_
    rw [h3]; simp only [l3, if_pos (hque.2 h)]
  · intro h
    rw [h3]; simp only [l3]; rw [if_neg (fun e => h (hque.1 e))]; exact hQ2
  · intro h
    have := (markDue_sentPower s.lp i).1 h.2
    rw [sp.1, sp.2]; simp only [l1, if_pos (hpow.2 h.1)]
    rw [this.1, this.2, hpe, hnow]; exact ⟨rfl, rfl⟩
  · intro h
    rw [sp.1, sp.2]; simp only [l1]
    split
    · next e => exact (markDue_sentPower s.lp i).2 (fun b => h ⟨hpow.1 e, b⟩)
    · exact ⟨rfl, rfl⟩
  · intro h
    have hb : BeginsNow l2.portQ := by rw [hQ2]; exact h.2
    have := (markDue_sentQuench l2 i).1 hb
    rw [h3]; simp only [l3, if_pos (hque.2 h.1)]
    rw [this.1, this.2, hpe, hnow]; exact ⟨rfl, rfl⟩
  · intro h
    rw [h3]; simp only [l3]
    split
    · next e =>
      have := (markDue_sentQuench l2 i).2 (fun b => h ⟨hque.1 e, by rw [← hQ2]; exact b⟩)
      rw [this.1, this.2]; exact sq2
    · exact sq2

/-- An update sends the set-point frames it makes due (R51, R152 to R154). -/
theorem updateCore_sent (s : State) : SetPointsSent s s.updateCore := by
  refine takeUpdate_sent s s.updateCore { pe := s.updateCore.pe, direction := s.cu.direction, now := s.cu.cellTime } rfl ?_
  unfold State.updateCore State.handUpdate State.sendUpdate State.noticeLimited State.stopDryWatch
  dsimp only
  (repeat' split) <;> simp [State.sendInput]

/-- The frames sent depend on the state before through its ports, what was last sent, the coordinate unit and whether it
heats, alone. -/
theorem SetPointsSent.congr {s u t : State} (h : SetPointsSent s t) (hc : u.cu = s.cu)
    (hs : u.sq.st.isHeat = s.sq.st.isHeat) (hl : ∀ w, u.lp.port w = s.lp.port w)
    (h1 : u.lp.sentPower = s.lp.sentPower) (h2 : u.lp.powerSend = s.lp.powerSend)
    (h3 : u.lp.sentQuench = s.lp.sentQuench) (h4 : u.lp.quenchSend = s.lp.quenchSend) : SetPointsSent u t := by
  have hd : ∀ w, DueOn w u t = DueOn w s t := by
    intro w
    unfold DueOn
    rw [hl w]
    have e1 : ∀ f, begun f u = begun f s := fun f => by unfold begun; rw [hc]
    have e2 : setPointFrame w (u.setPe t.pe) = setPointFrame w (s.setPe t.pe) := by
      unfold setPointFrame
      cases w <;> simp [hl, hc]
      · by_cases e : s.cu.direction = .plus <;> simp [e]
    simp only [e1, e2]
  have eS : u.lp.portS = s.lp.portS := hl .s
  have eP : u.lp.portP = s.lp.portP := hl .p
  have eQ : u.lp.portQ = s.lp.portQ := hl .q
  unfold SetPointsSent at h ⊢
  rw [hd, hd, hd, hs, h1, h2, h3, h4, eS, eP, eQ, hc]
  exact h

/-! ## A change handed on (R72, R155) -/

theorem placedIn_eq (l : List StateNotice) (n : StateNotice) : pushNotice l n = placedIn l n := rfl

/-- A notice falling due on a port (R150, R155). -/
theorem notify_eq (s : State) (l : Lp) (i : SendInput) (n : StateNotice) (w : Port)
    (hi : i.now = s.cu.cellTime) : l.notify i n w = l.setPort (noticedPort s n (l.port w)) w := by
  unfold Lp.notify noticedPort
  dsimp only
  split
  · next h =>
    unfold Lp.kick
    rw [Lp.port_setPort]
    simp only [h, true_and]
    cases ht : (l.port w).tx with
    | some j => cases w <;> simp [Lp.setPort, placedIn_eq]
    | none =>
      rw [if_pos rfl]
      cases hn : pushNotice (l.port w).notices n with
      | nil => exact absurd hn (pushNotice_ne_nil _ _)
      | cons m rest =>
        rw [← placedIn_eq, hn]
        cases w <;> simp [Lp.setPort, SendInput.job, begun, hi]
  · cases w <;> rfl

/-- A change announced is the notice on each of the four ports (R72, R155). -/
theorem announce_eq (s : State) : s.announce = s.setLp { s.lp with
    portS := noticedPort s s.notice s.lp.portS, portP := noticedPort s s.notice s.lp.portP
    portM := noticedPort s s.notice s.lp.portM, portQ := noticedPort s s.notice s.lp.portQ } := by
  unfold State.announce
  dsimp only
  rw [notify_eq s _ _ _ _ rfl, notify_eq s _ _ _ _ rfl, notify_eq s _ _ _ _ rfl, notify_eq s _ _ _ _ rfl] <;> rfl

/-- A state handed on, seen from the state before the entry: its notices and its set-point frames (R72, R155). -/
theorem handOn_sent (code : Option FaultCode) (s v : State) (hc : v.cu = s.cu) (hn : v.sq.scanNumber = s.sq.scanNumber)
    (hl : v.lp = s.lp) (hcode : v.notice.code = code) : ChangeSent v.sq.st code s v.handOn := by
  have hnotice : v.notice = { state := v.sq.st, code := code, frontier := s.cu.frontier, scanNumber := s.sq.scanNumber } := by
    rw [← hcode, ← hn, ← hc]; rfl
  have hport : ∀ x : State, x.cu = s.cu → ∀ n w, noticedPort x n w = noticedPort s n w := by
    intro x hx n w
    unfold noticedPort begun
    rw [hx]
  have hcl : v.clearIndications.notice = v.notice ∧ v.clearIndications.cu = v.cu ∧ v.clearIndications.sq = v.sq ∧
      (∀ w, v.clearIndications.lp.port w = v.lp.port w) ∧ v.clearIndications.lp.sentPower = v.lp.sentPower ∧
      v.clearIndications.lp.powerSend = v.lp.powerSend ∧ v.clearIndications.lp.sentQuench = v.lp.sentQuench ∧
      v.clearIndications.lp.quenchSend = v.lp.quenchSend := by
    unfold State.clearIndications
    split
    · exact ⟨rfl, rfl, rfl, fun w => by cases w <;> rfl, rfl, rfl, rfl, rfl⟩
    · exact ⟨rfl, rfl, rfl, fun _ => rfl, rfl, rfl, rfl, rfl⟩
  obtain ⟨c1, c2, c3, c4, c5, c6, c7, c8⟩ := hcl
  unfold ChangeSent
  refine (updateCore_sent v.clearIndications.announce).congr ?_ ?_ ?_ ?_ ?_ ?_ ?_
  · rw [announce_eq]; exact (hc.symm.trans c2.symm)
  · rw [announce_eq]; show v.sq.st.isHeat = v.clearIndications.sq.st.isHeat; rw [c3]
  · intro w
    rw [announce_eq, c1, hnotice]
    have hx := hport v.clearIndications (c2.trans hc)
    have eS := (c4 .s).trans (by rw [hl] : v.lp.port .s = s.lp.port .s)
    have eP := (c4 .p).trans (by rw [hl] : v.lp.port .p = s.lp.port .p)
    have eM := (c4 .m).trans (by rw [hl] : v.lp.port .m = s.lp.port .m)
    have eQ := (c4 .q).trans (by rw [hl] : v.lp.port .q = s.lp.port .q)
    simp only [Lp.port] at eS eP eM eQ
    cases w <;> simp [announced, Lp.port, hx, eS, eP, eM, eQ]
  · rw [announce_eq]; exact (c5.trans (congrArg _ hl)).symm
  · rw [announce_eq]; exact (c6.trans (congrArg _ hl)).symm
  · rw [announce_eq]; exact (c7.trans (congrArg _ hl)).symm
  · rw [announce_eq]; exact (c8.trans (congrArg _ hl)).symm

end Sys2Proof.Machine
end

