-- ==== Sys2Proof/Laws/Tracker.lean ====
section
/-! SUPPORT. The operations of the slice tracker in the statements' words, said once each; and the words of the
set-points, of CONTROL's answer and of the dwell pointer. -/

namespace Sys2Proof.Machine

/-! ## Closing -/

theorem sliceTarget_eq (c : TrackRecipe) (account : Option (Nat × Nat)) (r : SliceRecord) :
    sliceTarget c account r = closingTarget c account r := by
  unfold sliceTarget closingTarget TrackRecipe.midpoint addEnergy Config.energyBound
  cases r.kind <;> cases account <;> rfl

/-- The close of the open slices, no hold breaking them. -/
theorem closeOpen_eq (c : TrackRecipe) (now : Nat) (k : Stk) :
    k.closeOpen c now false = { k with
      track := k.track.map (closedNow c k.dwellAccount now)
      dwellAccount := accountLeft (fun r => r.closeTime.isNone) k } := by
  have h1 : k.track.map (fun r => if r.isOpen then { r with
      closeTime := some now, target := sliceTarget c k.dwellAccount r
      flags := { r.flags with holdBreak := r.flags.holdBreak || false } } else r) =
      k.track.map (closedNow c k.dwellAccount now) := by
    apply List.map_congr_left
    intro r _
    simp [closedNow, SliceRecord.isOpen, sliceTarget_eq]
  have h2 : (match k.dwellAccount with
      | some (j, _) => k.track.any (fun r => r.isOpen && r.index == j)
      | none => false) = k.track.any (fun r => r.closeTime.isNone && k.dwellAccount.any (fun a => a.1 == r.index)) := by
    cases k.dwellAccount with
    | none => simp
    | some a =>
      refine congrArg (fun f => List.any k.track f) (funext fun r => ?_)
      show (r.closeTime.isNone && r.index == a.1) = (r.closeTime.isNone && a.1 == r.index)
      rw [BEq.comm]
  unfold Stk.closeOpen accountLeft
  dsimp only
  rw [← h1, ← h2] <;> rfl

/-! ## Departures -/

/-- A departure touches the summary and the exceptions alone. -/
theorem depart_eq (c : TrackRecipe) (q : QuenchCondition) (now : Nat) (b : Bool) (r : SliceRecord) (k : Stk) :
    k.depart c q now b r = { k with
      summary := (k.depart c q now b r).summary, exceptions := (k.depart c q now b r).exceptions } := by
  simp only [Stk.depart, Stk.except, Stk.onOpenSummary]
  (repeat' split) <;> rfl

/-- What a departure does to the summary and the exceptions does not depend on the rest. -/
theorem depart_with (c : TrackRecipe) (q : QuenchCondition) (now : Nat) (b : Bool) (r : SliceRecord) (k : Stk)
    (track : List SliceRecord) (heating : Bool) (high seam : Option Nat) (account : Option (Nat × Nat)) :
    Stk.depart c q now b r { k with
        track := track, heating := heating, highWater := high, seam := seam, dwellAccount := account } =
      { k.depart c q now b r with
        track := track, heating := heating, highWater := high, seam := seam, dwellAccount := account } := by
  simp only [Stk.depart, Stk.except, Stk.onOpenSummary]
  (repeat' split) <;> simp_all

/-- Departures one after another, on a tracker with anything else in it. -/
theorem departs_with (c : TrackRecipe) (q : QuenchCondition) (now : Nat) (b : Bool) (l : List SliceRecord) (k : Stk)
    (track : List SliceRecord) (heating : Bool) (high seam : Option Nat) (account : Option (Nat × Nat)) :
    l.foldl (fun v r => v.depart c q now b r) { k with
        track := track, heating := heating, highWater := high, seam := seam, dwellAccount := account } =
      { l.foldl (fun v r => v.depart c q now b r) k with
        track := track, heating := heating, highWater := high, seam := seam, dwellAccount := account } := by
  induction l generalizing k with
  | nil => rfl
  | cons r rest ih => rw [List.foldl_cons, depart_with, ih, List.foldl_cons]

theorem floodAll_eq (c : TrackRecipe) (q : QuenchCondition) (now : Nat) (l : List SliceRecord) (k : Stk) :
    Stk.floodAll c q now l k = { l.foldl (fun v r => v.depart c q now true r) k with track := [] } := by
  induction l generalizing k with
  | nil => rfl
  | cons r rest ih => rw [Stk.floodAll, ih, List.foldl_cons]

theorem retire_eq (c : TrackRecipe) (q : QuenchCondition) (f : Int) (now : Nat) (l : List SliceRecord) (k : Stk) :
    Stk.retire c q f now l k =
      { (l.takeWhile (departsAt c f)).foldl (fun v r => v.depart c q now false r) k with
        track := l.dropWhile (departsAt c f) } := by
  have h (r : SliceRecord) : departsAt c f r = (!r.isOpen && decide (((c.arrivalPoint r.index : Nat) : Int) ≤ f)) := by
    unfold departsAt SliceRecord.isOpen TrackRecipe.arrivalPoint
    cases r.closeTime <;> rfl
  induction l generalizing k with
  | nil => rfl
  | cons r rest ih =>
    rw [Stk.retire, ← h]
    cases hr : departsAt c f r
    · simp [hr]
    · simp [hr, ih]

/-- The flood-start notice (R111). -/
theorem floodStart_eq (c : TrackRecipe) (q : QuenchCondition) (now : Nat) (k : Stk) :
    k.floodStart c q now = floodedStk c q now k := by
  unfold Stk.floodStart floodedStk
  rw [closeOpen_eq]
  dsimp only
  rw [floodAll_eq]
  let closed := k.track.map (closedNow c k.dwellAccount now)
  let left (x : Stk) : Stk := { x with track := [], heating := false, seam := none, dwellAccount := none }
  have e (l : List SliceRecord) (d : Option (Nat × Nat)) :=
    departs_with c q now true closed k l k.heating k.highWater k.seam d
  exact (congrArg left (e closed (accountLeft (fun r => r.closeTime.isNone) k))).trans
    (congrArg left (e k.track k.dwellAccount)).symm

/-- The close and the departures of an advance (R98, R108), with at most the youngest record open. -/
theorem advance_eq (c : TrackRecipe) (q : QuenchCondition) (f : Int) (now : Nat) (k : Stk)
    (h : ∀ r ∈ k.track.dropLast, r.closeTime ≠ none) : k.advance c q f now = passedStk c q f now k := by
  have hc : k.closeAtBoundary c f now = { k with
      track := k.track.map (closedAt c k.dwellAccount f now), dwellAccount := accountLeft (endsAt c f) k } := by
    unfold Stk.closeAtBoundary
    have hone : ∀ r ∈ k.track, r.closeTime = none → ∀ v ∈ k.track, v.closeTime = none → r = v := by
      rcases List.eq_nil_or_concat k.track with e | ⟨l, x, e⟩
      · simp [e]
      · rw [e] at h ⊢
        simp only [List.concat_eq_append, List.dropLast_concat, List.mem_append, List.mem_singleton] at h ⊢
        rintro r (hr | rfl) hr' v (hv | rfl) hv'
        · exact absurd hr' (h r hr)
        · exact absurd hr' (h r hr)
        · exact absurd hv' (h v hv)
        · rfl
    have hb : k.track.any (fun r => r.isOpen && decide ((((r.index + 1) * c.pitch : Nat) : Int) ≤ f)) =
        k.track.any (endsAt c f) := rfl
    rw [hb]
    cases ha : k.track.any (endsAt c f) with
    | false =>
      have hn : ∀ r ∈ k.track, endsAt c f r = false := by simpa [List.any_eq_false] using ha
      have h1 : k.track.map (closedAt c k.dwellAccount f now) = k.track := by
        conv => rhs; rw [← List.map_id k.track]
        exact List.map_congr_left fun r hr => by simp [closedAt, hn r hr]
      have h2 : accountLeft (endsAt c f) k = k.dwellAccount := by
        unfold accountLeft
        rw [if_neg]
        simp only [List.any_eq_true, not_exists, not_and]
        intro r hr; simp [hn r hr]
      rw [h1, h2]; rfl
    | true =>
      obtain ⟨x, hx, hex⟩ := List.any_eq_true.1 ha
      have hxo : x.closeTime = none := by
        simp only [endsAt, Bool.and_eq_true, Option.isNone_iff_eq_none] at hex; exact hex.1
      have hsame : ∀ r ∈ k.track, endsAt c f r = r.closeTime.isNone := by
        intro r hr
        cases ho : r.closeTime with
        | none => rw [hone r hr ho x hx hxo]; simp [hex]
        | some t => simp [endsAt, ho]
      rw [if_pos rfl, closeOpen_eq]
      have h1 : k.track.map (closedNow c k.dwellAccount now) = k.track.map (closedAt c k.dwellAccount f now) :=
        List.map_congr_left fun r hr => by simp [closedNow, closedAt, hsame r hr]
      have h2 : accountLeft (fun r => r.closeTime.isNone) k = accountLeft (endsAt c f) k := by
        unfold accountLeft
        congr 1
        rw [eq_iff_iff, List.any_eq_true, List.any_eq_true]
        constructor <;> rintro ⟨r, hr, e⟩ <;> exact ⟨r, hr, by simpa [hsame r hr] using e⟩
      rw [h1, h2]
  unfold Stk.advance passedStk
  rw [hc]
  dsimp only
  rw [retire_eq]
  let closed := k.track.map (closedAt c k.dwellAccount f now)
  let left (x : Stk) : Stk := { x with track := closed.dropWhile (departsAt c f) }
  have e (l : List SliceRecord) := departs_with c q now false (closed.takeWhile (departsAt c f)) k l k.heating
    k.highWater k.seam (accountLeft (endsAt c f) k)
  exact (congrArg left (e closed)).trans (congrArg left (e k.track)).symm

/-! ## Opening and the notices -/

theorem sliceKind_eq (c : TrackRecipe) (z : Nat) :
    (c.zones[z]?.map (fun e => e.kind.sliceKind)).getD .gap = kindOfZone (c.zones[z]?.map (·.kind)) := by
  cases c.zones[z]? with
  | none => rfl
  | some e => cases hk : e.kind <;> simp [kindOfZone, ZoneKind.sliceKind, hk]

/-- The opening test at a frontier (R99). -/
theorem tryOpen_eq (c : TrackRecipe) (f : Int) (k : Stk) : k.tryOpen c f = openedStk c f k := by
  have ht : (k.heating && !k.anyOpen && decide (0 ≤ f) && k.aboveHighWater (f.toNat / c.pitch) &&
      decide (f.toNat / c.pitch * c.pitch < zonesEnd c.zones)) = opensAt c f k := by
    unfold opensAt Stk.anyOpen Stk.aboveHighWater
    congr 2
    · congr 2
      rw [List.all_eq_not_any_not]
      congr 2
      funext r; cases h : r.closeTime <;> simp [SliceRecord.isOpen, h]
    · cases k.highWater <;> rfl
  unfold Stk.tryOpen openedStk
  dsimp only
  rw [ht]
  split
  · unfold Stk.openSlice newSlice Stk.onOpenSummary TrackRecipe.midpoint addCount Config.countBound SliceFlags.empty
    dsimp only
    rw [sliceKind_eq]
    obtain ⟨track, heating, high, seam, account, exceptions, summary⟩ := k
    cases seam with
    | none => cases account <;> rfl
    | some b =>
      cases summary with
      | none => cases account <;> rfl
      | some u => cases hs : u.status <;> cases account <;> simp [hs]
  · rfl

/-- The heating-end notice (R101). -/
theorem heatingEnd_eq (c : TrackRecipe) (now : Nat) (k : Stk) : k.heatingEnd c now = endedStk c now k := by
  unfold Stk.heatingEnd endedStk
  rw [closeOpen_eq]
  unfold Stk.onOpenSummary TrackRecipe.sliceCount addCount Config.countBound
  dsimp only
  cases hseam : k.seam with
  | none => rfl
  | some b =>
    cases hu : k.summary with
    | none => simp
    | some u => cases hs : u.status <;> simp [hs]

/-- The dwell notice (R103). -/
theorem dwellNotice_eq (c : TrackRecipe) (power time : Nat) (f : Int) (k : Stk) :
    k.dwellNotice c power time f = dweltStk c power time f k := by
  unfold Stk.dwellNotice dweltStk Stk.onOpenSlice
  have h1 : k.track.map (fun r => if r.isOpen then
        if r.index = f.toNat / c.pitch then { r with flags := { r.flags with dwell := true } } else r else r) =
      k.track.map (fun r => if r.closeTime = none ∧ r.index = f.toNat / c.pitch then
        { r with flags := { r.flags with dwell := true } } else r) := by
    apply List.map_congr_left
    intro r _
    cases hr : r.closeTime <;> simp [SliceRecord.isOpen, hr]
  have h2 : (match k.dwellAccount with
      | some (j, e) => if j = f.toNat / c.pitch then some (f.toNat / c.pitch, e + power * time)
          else some (f.toNat / c.pitch, power * time)
      | none => some (f.toNat / c.pitch, power * time)) = some (f.toNat / c.pitch,
        power * time + ((k.dwellAccount.filter (fun a => a.1 == f.toNat / c.pitch)).map (·.2)).getD 0) := by
    cases k.dwellAccount with
    | none => rfl
    | some a => by_cases h : a.1 = f.toNat / c.pitch <;> simp [Option.filter, h, Nat.add_comm]
  dsimp only
  rw [← h1, ← h2] <;> rfl

/-- The energy credit (R104). -/
theorem credit_eq (e : Nat) (k : Stk) : k.credit e = creditedStk e k := by
  unfold Stk.credit creditedStk Stk.anyOpen Stk.onOpenSlice Stk.onOpenSummary addEnergy Config.energyBound
  have h : k.track.any SliceRecord.isOpen = k.track.any (fun r => r.closeTime.isNone) := rfl
  rw [h]
  split
  · congr 1
    apply List.map_congr_left
    intro r _
    cases hr : r.closeTime <;> simp [SliceRecord.isOpen, hr]
  · cases hu : k.summary with
    | none => cases k; simp_all
    | some u => cases hs : u.status <;> simp [hs] <;> (cases k; simp_all)

/-- The power-limited notice (R105). -/
theorem powerLimited_eq (k : Stk) : k.powerLimited = limitedStk k := by
  unfold Stk.powerLimited limitedStk Stk.onOpenSlice
  congr 1
  apply List.map_congr_left
  intro r _
  cases hr : r.closeTime <;> simp [SliceRecord.isOpen, hr]

/-! ## Set-points and CONTROL's answer -/

theorem zoneSpeedOr_eq (vMin : Nat) (e : ZoneEntry) : zoneSpeedOr vMin e = speedOfKind vMin e := by
  unfold zoneSpeedOr speedOfKind
  cases e.kind <;> rfl

theorem spindleHelix_eq (zones : List ZoneEntry) (zone : Option Nat) : spindleHelix zones zone = helixAt zones zone := by
  unfold spindleHelix helixAt
  cases zone with
  | none => rfl
  | some z =>
    cases hz : zones[z]? with
    | none => simp [hz]
    | some e => cases hk : e.kind <;> simp [hz, hk, ZoneKind.hasHelix]

/-- CONTROL's answer (R184). -/
theorem controlAnswer_eq (c : Control) (clear run : FieldResult) :
    controlAnswer c clear run = controlReply c clear run := by
  have hw : BitVec.ofNat 8 c.byte = wordByte c := by
    obtain ⟨a, b, d, e, f⟩ := c
    cases a <;> cases b <;> cases d <;> cases e <;> cases f <;> decide
  have hb (r : FieldResult) : r.bytes = outcomeBytes r := by
    cases r with
    | none => rfl
    | ok => rfl
    | refused st r => cases r <;> rfl
  have hd (st : Status) (r : Option BlockReason) : (FieldResult.refused st r).detail = reasonByte r := by
    cases r <;> rfl
  unfold controlAnswer controlReply
  simp only [hw, hb]
  cases clear <;> cases run <;> simp [hd, Answer.ok]

/-! ## The dwell pointer -/

/-- The first match at or after a position, found among the numbers. -/
theorem findIdx_drop {α : Type} (p : α → Bool) (l : List α) (i : Nat) :
    ((l.drop i).findIdx? p).map (· + i) = (List.range l.length).find? (fun j => decide (i ≤ j) && (l[j]?).any p) := by
  apply Option.ext
  intro j
  rw [List.find?_range_eq_some]
  simp only [Option.map_eq_some_iff, List.findIdx?_eq_some_iff_getElem, List.getElem_drop, List.length_drop,
    List.mem_range, Bool.and_eq_true, decide_eq_true_eq]
  constructor
  · rintro ⟨k, ⟨hk, hp, hn⟩, rfl⟩
    have hkl : k + i < l.length := by omega
    refine ⟨⟨by omega, ?_⟩, hkl, ?_⟩
    · rw [List.getElem?_eq_getElem hkl]; simpa [Nat.add_comm] using hp
    · intro m hm
      by_cases him : i ≤ m
      · have := hn (m - i) (by omega)
        rw [List.getElem?_eq_getElem (by omega : m < l.length)]
        simp only [show i + (m - i) = m by omega] at this
        simp [this]
      · simp [him]
  · rintro ⟨⟨hij, hp⟩, hj, hn⟩
    refine ⟨j - i, ⟨by omega, ?_, ?_⟩, by omega⟩
    · rw [List.getElem?_eq_getElem hj] at hp
      simp only [show i + (j - i) = j by omega]; simpa using hp
    · intro m hm
      have := hn (i + m) (by omega)
      rw [List.getElem?_eq_getElem (by omega : i + m < l.length)] at this
      simpa using this

/-- The next dwell from a zone number on (R71, R84). -/
theorem nextDwellFrom_eq (i : Nat) (zones : List ZoneEntry) : nextDwellFrom i zones = dwellFrom i zones := by
  unfold nextDwellFrom dwellFrom
  rw [findIdx_drop]
  congr 1
  funext j
  cases zones[j]? <;> simp

/-- The pointer's move past the dwells reached (R84). -/
theorem movePointer_eq (s : State) : s.movePointer = pointedPast s := by
  unfold State.movePointer pointedPast
  cases h : s.sq.nextDwell with
  | none => simp only [Option.bind_none]; rw [← h]; rfl
  | some i =>
    simp only [State.dwellBeyond, findIdx_drop, Option.bind_some]

end Sys2Proof.Machine
end

