-- ==== Sys2Proof/Laws/Faults.lean ====
section
/-! SUPPORT. What a fault report does, said once. -/

namespace Sys2Proof.Machine

/-- An update in FAULT: everything off but, in phase FLOOD, the flood (R59, R62, R64, R65, R68). -/
theorem computePe_fault (r : PeInput) (ph : FaultPhase) (h : Option RecipeHeader) (old : Pe) (hr : r.st = .fault ph) :
    (computePe r h old).powerLimited = false ∧ (computePe r h old).power = 0 ∧ (computePe r h old).enable = false ∧
    (computePe r h old).speed = 0 ∧ (computePe r h old).stop = true ∧ (computePe r h old).spindle = 0 ∧
    (computePe r h old).latch = false ∧ (computePe r h old).quenchOn = false ∧
    (computePe r h old).flood = (decide (ph = .flood) && h.isSome) ∧
    (computePe r h old).mask = (if ph = .flood ∧ h.isSome then 0xFF else 0) ∧
    (computePe r h old).flow = (if ph = .flood then (h.map (·.floodFlow)).getD 0 else 0) ∧
    (computePe r h old).quenchZone = none ∧ (computePe r h old).readFrontier = r.frontier ∧
    (computePe r h old).nextUpdate = old.nextUpdate ∧
    (computePe r h old).heatingZone = h.bind r.heatingZone := by
  cases h with
  | none => unfold computePe; rw [hr]; cases ph <;> simp [Pe.noRecipe, Pe.resetValue, Pe.quenchOn]
  | some h =>
    unfold computePe; rw [hr]
    cases ph <;> simp [PeInput.power, PeInput.limited, PeInput.speed, PeInput.spindle, PeInput.latch, PeInput.quench, hr, SeqState.isHeat, SeqState.sprays, QuenchPoints.off, Pe.quenchOn]

/-- What entering FAULT does (R139). -/
theorem enterFault_entered (code : FaultCode) (source : FaultSource) (s : State) :
    EnteredFault code source s (s.enterFault code source) := by
  have h1 : ∀ u : State, ∀ ph, u.sq.st = .fault ph → u.sq.pressureWatch = none →
      u.handOn.sq = u.sq ∧ u.handOn.stk = u.stk ∧ u.handOn.pe = computePe u.announce.peInput u.recipe u.pe ∧ SameKept u.lp u.handOn.lp := by
    intro u ph hu hw
    obtain ⟨f1, _, _, _, _, _, _, f8, _⟩ := computePe_fault u.announce.peInput ph u.recipe u.pe (by simpa [State.peInput] using hu)
    have hc : u.clearIndications = u := by unfold State.clearIndications; rw [if_neg (by simp [hu])]
    have hrec : u.announce.recipe = u.recipe := by simp [State.recipe]
    unfold State.handOn
    rw [hc]
    unfold State.updateCore State.handUpdate State.noticeLimited
    simp only [State.setPe_pe, State.announce_pe, hrec, f1]
    refine ⟨?_, ?_, ?_, ?_⟩
    · simp [State.stopDryWatch, f8]
      conv => rhs; rw [show u.sq = { u.sq with pressureWatch := u.sq.pressureWatch } from rfl, hw]
    · simp
    · simp
    · simp [SameKept]
  let v : State := ((s.enter (.fault (State.faultPhase s.sq.st)) (some (s.recordOf code source))).dropScan).floodIf
    s.sq.st.inScan
  have hst : v.sq = faultedSq code source s := by
    simp only [v, State.floodIf, faultedSq]
    cases hin : s.sq.st.inScan <;> simp [State.enter, State.dropScan, State.startFlood, State.faultPhase, hin, State.recordOf, State.hdr, State.recipe, State.now]
  obtain ⟨e1, e2, e3, e4⟩ := h1 v (State.faultPhase s.sq.st) (by rw [hst]; rfl) (by rw [hst]; rfl)
  have hfl := computePe_fault v.announce.peInput (State.faultPhase s.sq.st) v.recipe v.pe (by simp only [State.peInput, State.announce_sq]; rw [hst]; rfl)
  have hrec : v.recipe = s.recipe := by simp [v, State.recipe]
  rw [← e3, hrec] at hfl
  obtain ⟨p0, p1, p2, p3, p4, p5, p6, _, p8, p9, p10, p11, p12, p13, p14⟩ := hfl
  have hsent : ChangeSent (.fault (State.faultPhase s.sq.st)) (some code) s (s.enterFault code source) := by
    have := handOn_sent (some code) s v (by simp [v]) (by rw [hst]; rfl) (by simp [v])
      (by simp [State.notice, hst, faultedSq, SeqState.isFault])
    rw [hst] at this
    exact this
  have hph : decide (State.faultPhase s.sq.st = .flood) = s.sq.st.inScan := by unfold State.faultPhase; cases s.sq.st.inScan <;> rfl
  have p8' : (s.enterFault code source).pe.flood = (s.sq.st.inScan && s.recipe.isSome) := by rw [← hph]; exact p8
  unfold EnteredFault
  refine ⟨e1.trans hst, ?_, ?_, p1, p2, p3, p4, p5, p8', ?_, ?_, p6, p11, p0, p14.trans ?_, p12.trans ?_, p13.trans ?_,
    hsent, ?_, ?_, ?_, ?_, ?_, ?_, ?_⟩
  · unfold State.enterFault; simp [State.floodIf]; cases s.sq.st.inScan <;> simp [State.enter, State.dropScan, State.startFlood]
  · refine e2.trans ?_
    simp only [v, State.floodIf]
    cases hin : s.sq.st.inScan
    · simp [State.enter, State.dropScan]
    · simp [State.startFlood, State.trackCtx, State.quenchCondition, State.enter, State.dropScan, State.now, floodStart_eq]
  · rw [p8']; refine p9.trans ?_; rw [← hph]; cases s.recipe <;> simp
  · rw [p8']; refine p10.trans ?_; rw [← hph]; simp [State.hdr]; cases s.recipe <;> simp
  · have hz : v.announce.peInput.zones = s.zones := by simp [v, State.peInput, State.zones]
    have hf : v.announce.peInput.frontier = s.cu.frontier := by simp [v, State.peInput]
    have hv : v.announce.peInput.vPos = s.cu.forwardSpeed := by simp [v, State.peInput]
    cases s.recipe with
    | none => rfl
    | some h => simp [PeInput.heatingZone, PeInput.lookPower, aheadZone, aheadPoint, hz, hf, hv]
  · simp [v, State.peInput]
  · simp [v]
  · simp
  · simp
  · simp
  · unfold State.enterFault; unfold SameKept at e4 ⊢; simpa [v] using e4
  · simp
  · simp
  · simp

/-- A report that is taken in every state but IDLE, and in FAULT as a secondary fault (R130, R141). -/
theorem reportFault_faultOrSecondary (code : FaultCode) (source : FaultSource) (s : State)
    (h : State.faultTaking code s.sq.st s.pe.quenchOn = State.takenOrSecondary s.sq.st (s.sq.st != .idle)) :
    FaultOrSecondary code source s (s.reportFault code source) := by
  unfold State.reportFault
  rw [h]
  refine ⟨fun hi => ?_, fun hf => ?_, fun hi hf => ?_⟩
  · simp [hi, State.takenOrSecondary, SeqState.isFault, State.takenIf]
  · simp [State.takenOrSecondary, hf]; rfl
  · simp only [State.takenOrSecondary, hf, State.takenIf]
    have : (s.sq.st != .idle) = true := by simpa using hi
    rw [this]; exact enterFault_entered code source s
end Sys2Proof.Machine
end

