-- ==== Sys2Proof/Laws/Changes.lean ====
section
/-! SUPPORT. What each shared operation of the sequencer does, said once: the update, a change of state, the entries of a
scan and its arrivals. -/

namespace Sys2Proof.Machine

/-! ## The update (R49 to R68) -/

theorem aheadEnergy_eq (h : RecipeHeader) (t : State) : t.peInput.energy h = aheadEnergy h t := by
  unfold PeInput.energy aheadEnergy aheadZone PeInput.heatingZone PeInput.lookPower
  show (match findZone t.zones (aheadPoint h t) with
    | none => 0
    | some z => energyAt t.zones z (aheadPoint h t)) = _
  cases findZone t.zones (aheadPoint h t) <;> rfl

theorem aheadSpeed_eq (h : RecipeHeader) (t : State) : t.peInput.zoneSpeed h = aheadSpeed h t := by
  unfold PeInput.zoneSpeed aheadSpeed
  have : (zoneSpeedOr h.vMin) = speedOfKind h.vMin := funext (zoneSpeedOr_eq h.vMin)
  rw [this]; rfl

theorem spindleAt_eq (h : RecipeHeader) (t : State) (v : Nat) : t.peInput.spindleFor h v = spindleAt h t v := by
  unfold PeInput.spindleFor spindleAt
  rw [spindleHelix_eq]; rfl

theorem sprays_iff (st : SeqState) : st.sprays = true ↔ Sprays st := by
  cases st <;> simp [SeqState.sprays, Sprays, SeqState.isHeat]

/-- The quench set-points of a state in which the spray can be latched on (R65 to R67). -/
theorem quench_sprays (h : RecipeHeader) (t : State) (hs : Sprays t.sq.st) (latch : Bool) :
    t.peInput.quench h latch =
      if latch then zonePattern t.zones (t.peInput.latchedZone h) else QuenchPoints.off := by
  have hst : t.peInput.st = t.sq.st := rfl
  rw [← sprays_iff] at hs
  unfold PeInput.quench
  rw [hst]
  cases h' : t.sq.st <;> simp [h', SeqState.sprays] at hs ⊢ <;> rfl

/-- The quench set-points that the arithmetic of an update finds (R65 to R68). -/
theorem computePe_spray (h : RecipeHeader) (old : Pe) (t : State) :
    SprayPoints h old.latch t (computePe t.peInput (some h) old) := by
  have hst : t.peInput.st = t.sq.st := rfl
  have hidle : t.sq.st = .idle → computePe t.peInput (some h) old = Pe.noRecipe t.cu.frontier old := by
    intro e; unfold computePe; rw [hst, e]; rfl
  have hrun : t.sq.st ≠ .idle → (computePe t.peInput (some h) old).latch = t.peInput.latch h old.latch ∧
      (computePe t.peInput (some h) old).mask = (t.peInput.quench h (t.peInput.latch h old.latch)).mask ∧
      (computePe t.peInput (some h) old).flow = (t.peInput.quench h (t.peInput.latch h old.latch)).flow ∧
      (computePe t.peInput (some h) old).flood = (t.peInput.quench h (t.peInput.latch h old.latch)).flood ∧
      (computePe t.peInput (some h) old).quenchZone = (t.peInput.quench h (t.peInput.latch h old.latch)).zone := by
    intro e
    unfold computePe
    rw [hst]
    cases h' : t.sq.st <;> first | exact absurd h' e | simp
  unfold SprayPoints
  dsimp only
  refine ⟨fun hsp => ?_, fun hsp => ?_, fun hf => ?_, fun e hd hk he => ?_, fun hsp hf hd => ?_⟩
  · have hne : t.sq.st ≠ .idle := by rintro e; simp [e, Sprays, SeqState.isHeat] at hsp
    obtain ⟨r1, r2, r3, r4, r5⟩ := hrun hne
    have hl : t.peInput.latch h old.latch = (old.latch || decide (-(h.prewet : Int) ≤ quenchPoint h t)) := by
      unfold PeInput.latch; rw [hst, (sprays_iff _).2 hsp]; rfl
    rw [quench_sprays h t hsp] at r2 r3 r4 r5
    refine ⟨r1.trans hl, ?_, fun hlat z e hz he => ?_, fun hlat => ?_⟩
    · rw [r4]; split
      · unfold zonePattern; split <;> rfl
      · rfl
    · rw [r1] at hlat
      have hz' : t.peInput.latchedZone h = some z := hz
      rw [hlat, hz'] at r2 r3 r5
      rw [r2, r3, r5]
      simp [zonePattern, he]
    · rw [r1] at hlat
      rw [hlat] at r2 r3 r5
      exact ⟨r2, r3, r5⟩
  · by_cases e : t.sq.st = .idle
    · rw [hidle e]; rfl
    · rw [(hrun e).1]; unfold PeInput.latch; rw [hst]
      have : t.sq.st.sprays = false := by rw [← Bool.not_eq_true, sprays_iff]; exact hsp
      rw [this]; rfl
  · obtain ⟨r1, r2, r3, r4, r5⟩ := hrun (by rw [hf]; simp)
    rw [r2, r3, r4, r5]; unfold PeInput.quench; rw [hst, hf]; exact ⟨rfl, rfl, rfl, rfl⟩
  · obtain ⟨r1, r2, r3, r4, r5⟩ := hrun (by rw [hd]; simp)
    have hk' : t.peInput.keepOn = true := hk
    rw [r2, r3, r4, r5]; unfold PeInput.quench; rw [hst, hd]
    simp only [hk', if_true]
    rw [List.getLast?_eq_getElem?] at he
    have hz : t.peInput.zones = t.zones := rfl
    simp [zonePattern, hz, he]
  · by_cases e : t.sq.st = .idle
    · rw [hidle e]; exact ⟨rfl, rfl, rfl, rfl⟩
    · obtain ⟨r1, r2, r3, r4, r5⟩ := hrun e
      rw [r2, r3, r4, r5]; unfold PeInput.quench; rw [hst]
      cases h' : t.sq.st with
      | fault ph => cases ph with
        | flood => exact absurd h' hf
        | standing => exact ⟨rfl, rfl, rfl, rfl⟩
      | done =>
        have : t.peInput.keepOn = false := by
          rw [← Bool.not_eq_true]; intro hk; exact hd ⟨h', hk⟩
        rw [this]; exact ⟨rfl, rfl, rfl, rfl⟩
      | _ => first | exact ⟨rfl, rfl, rfl, rfl⟩ | exact absurd ((sprays_iff _).1 (by rw [h']; rfl)) hsp

/-- The set-points that the arithmetic of an update finds are those of the state (R54 to R68). -/
theorem computePe_points (h : RecipeHeader) (old : Pe) (t : State) (hp : t.pe = computePe t.peInput (some h) old) :
    SetPointsOf h old.latch t := by
  have hst : t.peInput.st = t.sq.st := rfl
  refine ⟨fun hh => ?_, fun hn => ?_, ?_⟩
  · rw [hp]
    unfold computePe HeatingPoints
    simp only [hst, hh, PeInput.power, PeInput.limited, PeInput.speed, PeInput.spindle, PeInput.rawPower,
      aheadEnergy_eq, aheadSpeed_eq, spindleAt_eq, PeInput.speedLimit]
    refine ⟨rfl, rfl, rfl, rfl, ?_, trivial, trivial, rfl⟩
    by_cases he : aheadEnergy h t = 0
    · simp [he]
    · simp [he, Nat.pos_of_ne_zero he]
  · rw [hp]
    unfold computePe OtherPoints
    cases hs : t.sq.st with
    | heating => exact absurd hs hn
    | idle => simp [hst, hs, SeqState.isHeat, Pe.noRecipe, Pe.resetValue]; rfl
    | dwell ph =>
      simp only [hst, hs, PeInput.power, PeInput.limited, PeInput.speed, PeInput.spindle, SeqState.isHeat, spindleAt_eq]
      refine ⟨by simp, by simp, by simp, ?_, by simp, by simp, by simp, by simp; rfl, rfl⟩
      intro z e _ hz he
      simp [PeInput.dwellPower, State.peInput, hz, he]
    | approach ph | runout ph | quenchout ph =>
      cases ph <;> simp [hst, hs, PeInput.power, PeInput.limited, PeInput.speed, PeInput.spindle, SeqState.isHeat,
        spindleAt_eq] <;> exact ⟨rfl, rfl⟩
    | _ =>
      simp [hst, hs, PeInput.power, PeInput.limited, PeInput.speed, PeInput.spindle, SeqState.isHeat] <;>
        exact ⟨rfl, rfl⟩
  · rw [hp]
    exact computePe_spray h old t

/-! ## Updates and changes handed on (R51, R72, R155) -/

theorem updateCore_pe (s : State) : s.updateCore.pe = computePe s.peInput s.recipe s.pe := by
  unfold State.updateCore State.handUpdate State.sendUpdate State.noticeLimited State.stopDryWatch
  (repeat' split) <;> simp

theorem updateCore_sq (s : State) : s.updateCore.sq = { s.sq with
    pressureWatch := if s.updateCore.pe.latch || s.updateCore.pe.quenchZone.isSome then s.sq.pressureWatch else none } := by
  rw [updateCore_pe]
  unfold State.updateCore State.handUpdate State.sendUpdate State.noticeLimited State.stopDryWatch Pe.quenchOn
  (repeat' split) <;> simp_all

theorem updateCore_stk (s : State) : s.updateCore.stk =
    if s.updateCore.pe.powerLimited then limitedStk s.stk else s.stk := by
  rw [updateCore_pe]
  unfold State.updateCore State.handUpdate State.sendUpdate State.noticeLimited State.stopDryWatch
  rw [← powerLimited_eq]
  (repeat' split) <;> simp_all

theorem updateCore_peInput (s : State) : s.updateCore.peInput = s.peInput := by
  simp [State.peInput, updateCore_sq, State.zones]

/-- The set-points after an update are those of the state (R49 to R68). -/
theorem updateCore_points (h : RecipeHeader) (s : State) (hr : s.recipe = some h) :
    SetPointsOf h s.pe.latch s.updateCore :=
  computePe_points h s.pe s.updateCore (by rw [updateCore_pe, updateCore_peInput, hr])

/-- Nothing but HEATING is power limited (R58). -/
theorem updateCore_stk_of_ne (s : State) (hn : s.sq.st ≠ .heating) : s.updateCore.stk = s.stk := by
  rw [updateCore_stk, updateCore_pe, if_neg]
  unfold computePe
  rw [show s.peInput.st = s.sq.st from rfl]
  cases hs : s.sq.st <;> cases s.recipe <;> simp_all [PeInput.limited, State.peInput, Pe.noRecipe, Pe.resetValue]

/-- A state handed on, but for IDLE: what it leaves, its frames apart (R51, R72). -/
theorem handOn_eq (s : State) (hs : s.sq.st ≠ .idle) : s.handOn = s.announce.updateCore := by
  unfold State.handOn State.clearIndications
  rw [if_neg hs]

theorem announce_peInput (s : State) : s.announce.peInput = s.peInput := by
  simp [State.peInput, State.zones]

/-- A state handed on keeps what no change of state touches. -/
theorem handOn_kept (s : State) (hs : s.sq.st ≠ .idle) : Kept s s.handOn := by
  refine ⟨by simp, by simp, by simp, ?_, ?_, by simp, by simp, ?_⟩
  · unfold SameKept; rw [handOn_eq s hs]; simp
  · rw [handOn_eq s hs]; simp
  · rw [handOn_eq s hs, updateCore_pe]
    unfold computePe
    (repeat' split) <;> simp [Pe.noRecipe]

/-- A state handed on has its own set-points (R49, R72). -/
theorem handOn_points (h : RecipeHeader) (s : State) (hr : s.recipe = some h) (hs : s.sq.st ≠ .idle) :
    SetPointsOf h s.pe.latch s.handOn := by
  rw [handOn_eq s hs]
  have := updateCore_points h s.announce (by simpa [State.recipe] using hr)
  simpa using this

theorem handOn_sq (s : State) (hs : s.sq.st ≠ .idle) : s.handOn.sq = { s.sq with
    pressureWatch := if s.handOn.pe.latch || s.handOn.pe.quenchZone.isSome then s.sq.pressureWatch else none } := by
  rw [handOn_eq s hs, updateCore_sq]; simp

theorem change_pe (st : SeqState) (s : State) (hs : st ≠ .idle) :
    (s.change st).pe = computePe (s.change st).peInput s.recipe s.pe := by
  have hi : (s.enter st none).sq.st ≠ .idle := hs
  unfold State.change
  rw [handOn_eq _ hi, updateCore_pe, updateCore_peInput]
  simp [State.recipe]

/-- The two phases of DWELL have the same set-points. -/
theorem computePe_dwell (r : PeInput) (h : Option RecipeHeader) (old : Pe) (a b : DwellPhase) :
    computePe { r with st := .dwell a } h old = computePe { r with st := .dwell b } h old := by
  cases h <;> rfl

/-- What is sent shows in the ports and the set-points left alone. -/
theorem SetPointsSent.target {s t u : State} (h : SetPointsSent s t) (hp : u.pe = t.pe) (hl : u.lp = t.lp) :
    SetPointsSent s u := by
  unfold SetPointsSent DueOn at h ⊢
  rw [hp, hl]
  simpa using h

/-- A change to a state other than HEATING, IDLE and FAULT (R72, R90). -/
theorem change_changed (h : RecipeHeader) (st : SeqState) (s : State) (hr : s.recipe = some h) (h1 : st ≠ .heating)
    (h2 : st ≠ .idle) (h3 : st.isFault = false) : Changed h st s (s.change st) := by
  have hst : (s.enter st none).sq.st = st := rfl
  have hi : (s.enter st none).sq.st ≠ .idle := h2
  refine ⟨handOn_kept _ hi, ?_, ?_, handOn_points h _ hr hi, ?_, ?_⟩
  · simp [State.change, State.enter]
  · unfold State.change; rw [handOn_eq _ hi, updateCore_stk_of_ne _ (fun e => h1 (by simpa [hst] using e))]; simp [State.enter]
  · exact handOn_sq _ hi
  · exact handOn_sent none s _ rfl rfl rfl (by unfold State.notice; rw [hst, h3]; rfl)

/-- IDLE entered (R72, R74, R90, R143, R160). -/
theorem change_idle (s : State) : IdleEntered s (s.change .idle) := by
  let v := (s.enter .idle none).clearIndications
  have hv : s.change .idle = v.announce.updateCore := rfl
  have hpe : (s.change .idle).pe = offPoints s.cu.frontier s.pe := by
    rw [hv, updateCore_pe]
    have : v.announce.peInput.st = .idle := by simp [State.peInput, v, State.enter]
    unfold computePe
    rw [this]
    simp [Pe.noRecipe, Pe.resetValue, offPoints, v, State.peInput, State.enter]
  refine ⟨by simp, by simp, by simp, ?_, ?_, ?_, ?_, hpe, ?_, ?_, by simp, by simp⟩
  · rw [hv, updateCore_stk_of_ne _ (by simp [v, State.enter])]; simp [v]
  · simp [State.change, State.enter, SeqState.isHeat]
  · rw [hv]; unfold SameKept; simp [v, State.clearIndications, State.enter]
  · rw [hv]; simp [v, State.clearIndications, State.enter]
  · rw [hv, updateCore_sq, ← hv, hpe]; simp [v, offPoints, State.enter, changedSq]
  · exact handOn_sent none s _ rfl rfl rfl rfl

/-! ## Entries of a scan (R17, R81 to R88, R100, R101, R103, R123, R131) -/

/-- The travel-limit check of an entry (R17). -/
theorem travelCheck_judged (s : State) : TravelJudged s (s.travelCheck false) := by
  have hb : s.cu.beyondLimits false = true ↔ ¬ WithinLimits s.cu := by
    unfold Cu.beyondLimits WithinLimits
    simp only [Bool.false_or, Bool.or_eq_true, decide_eq_true_eq]
    omega
  refine ⟨fun hm hw => ?_, fun hk => ?_⟩
  · unfold State.travelCheck
    rw [if_pos (by rw [hm, hb.2 hw]; rfl)]
    unfold State.reportFault
    simp only [State.faultTaking, hm, State.takenIf, if_true]
    exact enterFault_entered _ _ _
  · unfold State.travelCheck
    rw [if_neg]
    rw [Bool.and_eq_true]
    rintro ⟨hm, hw⟩
    rcases hk with hk | hk
    · rw [hk] at hm; exact absurd hm (by simp)
    · exact hb.1 hw hk

/-- Where the spray can be latched on, quench is commanded on by the latch alone. -/
theorem wet_of_sprays (h : RecipeHeader) (b : Bool) (t : State) (hp : SetPointsOf h b t) (hs : Sprays t.sq.st) :
    (t.pe.latch || t.pe.quenchZone.isSome) = t.pe.latch := by
  have := ((hp.2.2).1 hs).2.2.2
  cases hl : t.pe.latch with
  | true => rfl
  | false => rw [(this hl).2.2]; rfl

/-- Post-quench begun (R87, R88, R123). -/
theorem startPostQuench_begun (h : RecipeHeader) (st : SeqState) (s : State) (hr : s.recipe = some h)
    (hn : st ≠ .heating) (hs : Sprays st) : PostQuenchBegun h st s (s.startPostQuench st) := by
  let v : State := (s.setPhase st).startPostTimer
  have hv : s.startPostQuench st = v.updateCore := rfl
  have hvr : v.recipe = some h := hr
  have hvs : v.sq = { s.sq with st := st, postQuench := some (s.cu.cellTime + 1000 * h.postQuenchTime) } := by
    simp [v, State.startPostTimer, State.setPhase, State.hdr, State.now]
    rw [show (s.setSq { s.sq with st := st }).recipe = some h from hr]; simp
  have hp : SetPointsOf h s.pe.latch v.updateCore := updateCore_points h v hvr
  have hst : v.updateCore.sq.st = st := by rw [updateCore_sq]; simp [hvs]
  rw [hv]
  refine ⟨⟨by simp [v, State.startPostTimer, State.setPhase], by simp [v, State.startPostTimer, State.setPhase],
    by simp [v, State.startPostTimer, State.setPhase], ?_, ?_, by simp [v, State.startPostTimer, State.setPhase],
    by simp [v, State.startPostTimer, State.setPhase], ?_⟩, by simp [v, State.startPostTimer, State.setPhase], ?_, hp, ?_, ?_⟩
  · unfold SameKept; simp [v, State.startPostTimer, State.setPhase]
  · simp [v, State.startPostTimer, State.setPhase]
  · rw [updateCore_pe]; unfold computePe
    (repeat' split) <;> simp [Pe.noRecipe, v, State.startPostTimer, State.setPhase]
  · rw [updateCore_stk_of_ne _ (by rw [hvs]; exact hn)]; simp [v, State.startPostTimer, State.setPhase]
  · exact (updateCore_sent v).congr rfl rfl (fun _ => rfl) rfl rfl rfl rfl
  · have := wet_of_sprays h _ _ hp (by rw [hst]; exact hs)
    rw [updateCore_sq, this, hvs]

/-- RUNOUT entered (R87, R101). -/
theorem enterRunout_entered (h : RecipeHeader) (s : State) (hr : s.recipe = some h) :
    RunoutEntered h s s.enterRunout := by
  have hc := change_changed h (.runout .travel) s hr (by simp) (by simp) rfl
  let u : State := (s.change (.runout .travel)).noticeHeatingEnd
  have hu : u = (s.change (.runout .travel)).setStk (endedStk (trackRecipe s.zt.activeBank) s.cu.cellTime s.stk) := by
    simp [u, State.noticeHeatingEnd, heatingEnd_eq, State.trackCtx, State.now, hc.2.2.1]
  have hst : u.sq.st = .runout .travel := by rw [hu]; simp [hc.2.2.2.2.1, changedSq]
  have hd : u.drainedAt ≤ u.cu.frontier ∧ u.stk.track = [] ↔
      ((zonesEnd s.zones + h.offsetD : Nat) : Int) ≤ s.cu.frontier ∧ s.stk.track = [] := by
    have : u.drainedAt = ((zonesEnd s.zones + h.offsetD : Nat) : Int) := by
      have hr' : s.zt.activeBank.header = some h := hr
      simp [hu, State.drainedAt, State.xEnd, State.zones, State.hdr, State.recipe, hr']
    rw [this, hu]
    simp [endedStk]
  refine ⟨s.change (.runout .travel), hc, fun hdr => ?_, fun hdr => ?_⟩
  · show PostQuenchBegun h _ _ u.judgePostQuench
    rw [← hu]
    unfold State.judgePostQuench
    rw [if_pos hst, if_pos (hd.2 hdr)]
    exact startPostQuench_begun h _ u (by rw [hu]; simpa [State.recipe] using hr) (by simp) (by simp [Sprays])
  · show u.judgePostQuench = _
    rw [← hu]
    unfold State.judgePostQuench
    rw [if_pos hst, if_neg (fun e => hdr (hd.1 e))]

/-- DWELL entered (R84, R85, R103). -/
theorem enterDwell_entered (h : RecipeHeader) (z : Nat) (s : State) (hr : s.recipe = some h) :
    DwellEntered h z s (s.enterDwell z) := by
  let c := (s.pointDwell z).change (.dwell .settling)
  have hc : Changed h (.dwell .settling) (s.pointDwell z) c :=
    change_changed h (.dwell .settling) (s.pointDwell z) hr (by simp) (by simp) rfl
  obtain ⟨⟨k1, k2, k3, k4, k5, k6, k7, k8⟩, hlu, hstk, hp, hsq, hsent⟩ := hc
  have hwet := wet_of_sprays h _ c hp (by rw [hsq]; simp [changedSq, Sprays, SeqState.isHeat])
  rw [hwet] at hsq
  let e := s.zones[z]?
  let u := c.noticeDwell z
  have huz : c.zones = s.zones := by simp [State.zones, k2, State.pointDwell]
  have hustk : u.stk = dweltStk (trackRecipe s.zt.activeBank) ((e.bind (·.dwellPower)).getD 0)
      ((e.bind (·.dwellTime)).getD 0) s.cu.frontier s.stk := by
    simp [u, State.noticeDwell, huz, e, hstk, k1, k2, State.trackCtx, State.pointDwell, dwellNotice_eq]
  have husq : u.sq = c.sq := rfl
  have hucu : u.cu = s.cu := k1
  have htime : u.dwellTime = (e.bind (·.dwellTime)).getD 0 := by
    have : u.zones = s.zones := huz
    unfold State.dwellTime
    rw [this, husq, hsq]; simp [changedSq, State.pointDwell, e]
  have hd : s.enterDwell z = u.settle := rfl
  have hfin : u.settle.sq = { changedSq (if decide (s.cu.speed.natAbs < 100) then .dwell .timing else .dwell .settling)
      c.pe.latch s.sq with
      dwellZone := some z, nextDwell := dwellFrom (z + 1) s.zones
      dwellTimer := if decide (s.cu.speed.natAbs < 100) then
        some (s.cu.cellTime + 1000 * (e.bind (·.dwellTime)).getD 0) else none } := by
    have hset : u.sq.st = .dwell .settling := by rw [husq, hsq]; rfl
    unfold State.settle
    rw [hset, hucu]
    by_cases hv : s.cu.speed.natAbs < 100
    · simp only [hv, and_true, if_true, decide_true]
      unfold State.startDwellTimer
      rw [htime]
      simp [husq, hsq, changedSq, State.pointDwell, nextDwellFrom_eq, State.now, hucu]
    · simp [hv, husq, hsq, changedSq, State.pointDwell, nextDwellFrom_eq]
  have hsame : ∀ {α : Type} (f : State → α), (∀ (x : State) (q : Sq), f (x.setSq q) = f x) → f u.settle = f u := by
    intro α f hf
    unfold State.settle State.startDwellTimer
    split
    · exact hf _ _
    · rfl
  have hpe : u.settle.pe = c.pe := hsame State.pe (fun _ _ => rfl)
  rw [hd]
  refine ⟨⟨?_, ?_, ?_, ?_, ?_, ?_, ?_, ?_⟩, ?_, ?_, ?_, ?_, ?_⟩
  · exact (hsame State.cu (fun _ _ => rfl)).trans k1
  · exact (hsame State.zt (fun _ _ => rfl)).trans k2
  · exact (hsame State.rs (fun _ _ => rfl)).trans k3
  · rw [hsame State.lp (fun _ _ => rfl)]; exact k4
  · rw [hsame State.lp (fun _ _ => rfl)]; exact k5
  · exact (hsame State.pending (fun _ _ => rfl)).trans k6
  · exact (hsame State.freeCount (fun _ _ => rfl)).trans k7
  · rw [hpe]; exact k8
  · exact (hsame State.lu (fun _ _ => rfl)).trans hlu
  · refine computePe_points h s.pe u.settle ?_
    rw [hpe]
    have hcp : c.pe = computePe c.peInput (some h) s.pe := by
      have := change_pe (.dwell .settling) (s.pointDwell z) (by simp)
      rw [show (s.pointDwell z).recipe = some h from hr] at this
      exact this
    refine hcp.trans ?_
    have hin : u.settle.peInput = { c.peInput with st := u.settle.sq.st } := by
      have e4 : u.settle.sq.dwellZone = c.sq.dwellZone := by rw [hfin, hsq]; rfl
      simp [State.peInput, State.zones, e4]
      exact ⟨rfl, rfl, rfl, rfl⟩
    have hcst : c.peInput.st = .dwell .settling := by
      show c.sq.st = _
      rw [hsq]; rfl
    have hph : ∃ ph, u.settle.sq.st = .dwell ph := by
      rw [hfin]; by_cases hv : s.cu.speed.natAbs < 100 <;> simp [changedSq, hv]
    obtain ⟨ph, hph⟩ := hph
    rw [hin, hph]
    conv => lhs; rw [show c.peInput = { c.peInput with st := .dwell .settling } by rw [← hcst]]
    exact computePe_dwell _ _ _ _ _
  · exact ((SetPointsSent.congr hsent rfl rfl (fun w => by cases w <;> rfl) rfl rfl rfl rfl).target hpe
      (hsame State.lp (fun _ _ => rfl)))
  · exact (hsame State.stk (fun _ _ => rfl)).trans hustk
  · rw [hfin, hpe]

/-- The arrivals judged in HEATING (R84). -/
theorem arrivalChecks_judged (h : RecipeHeader) (s : State) (hr : s.recipe = some h) (hs : s.sq.st = .heating) :
    ArrivalsJudged h s s.arrivalChecks := by
  unfold State.arrivalChecks
  rw [if_pos hs]
  refine ⟨fun z hz hz' => ?_, fun hno => ?_⟩
  · have : s.sq.nextDwell.filter (fun z => decide (s.zoneStart z ≤ s.cu.frontier)) = some z := by
      rw [hz]; simp [Option.filter, State.zoneStart, hz']
    rw [this]
    exact enterDwell_entered h z s hr
  · have : s.sq.nextDwell.filter (fun z => decide (s.zoneStart z ≤ s.cu.frontier)) = none := by
      cases hd : s.sq.nextDwell with
      | none => rfl
      | some z => simp [Option.filter, State.zoneStart, hno z hd]
    rw [this]
    dsimp only
    refine ⟨fun hx => ?_, fun hx => ?_⟩
    · rw [if_pos (show (s.xEnd : Int) ≤ _ from hx)]; exact enterRunout_entered h s hr
    · rw [if_neg (show ¬ (s.xEnd : Int) ≤ _ from Int.not_le.2 hx)]

/-- HEATING made (R83, R90, R100, R133). -/
theorem heatingMade (h : RecipeHeader) (s : State) (hr : s.recipe = some h) :
    HeatingMade h s ((((s.enter .heating none).startWatches).handOn).noticeHeatingStart) := by
  let v : State := (s.enter .heating none).startWatches
  have hi : v.sq.st ≠ .idle := by simp [v, State.startWatches, State.enter]
  have hvr : v.recipe = some h := hr
  obtain ⟨k1, k2, k3, k4, k5, k6, k7, k8⟩ := handOn_kept v hi
  have hp := handOn_points h v hvr hi
  have hsq := handOn_sq v hi
  have hst : v.handOn.sq.st = .heating := by rw [hsq]; rfl
  rw [wet_of_sprays h _ _ hp (by rw [hst]; exact Or.inl rfl)] at hsq
  have hstk : v.handOn.stk = if v.handOn.pe.powerLimited then limitedStk s.stk else s.stk := by
    rw [handOn_eq v hi, updateCore_stk]; simp [v, State.startWatches, State.enter]
  have htrack : v.handOn.trackCtx = trackRecipe s.zt.activeBank := by unfold State.trackCtx; rw [k2]; rfl
  refine ⟨⟨k1, k2, k3, k4, k5, k6, k7, k8⟩, ?_, hp, ?_, ?_, ?_⟩
  · simp [State.noticeHeatingStart, State.startWatches, State.enter, SeqState.isHeat]
  · have := handOn_sent none s v rfl rfl rfl rfl
    exact this.target rfl rfl
  · show v.handOn.stk.heatingStart v.handOn.trackCtx v.handOn.cu.frontier = _
    rw [htrack, hstk, k1]
    unfold Stk.heatingStart
    rw [tryOpen_eq]; rfl
  · show v.handOn.sq = _
    rw [hsq]; rfl

/-- HEATING entered, with the checks of the entry (R83, R84, R131). -/
theorem enterHeating_begun (h : RecipeHeader) (s : State) (hr : s.recipe = some h) : HeatingBegun h s s.enterHeating := by
  have hm := heatingMade h s hr
  refine ⟨_, hm, ?_, ?_⟩
  all_goals
    generalize he : (((s.enter .heating none).startWatches).handOn).noticeHeatingStart = e at hm
    obtain ⟨⟨k1, k2, k3, k4, k5, k6, k7, k8⟩, _, _, _, _, hsq⟩ := hm
    have hst : e.sq.st = .heating := by rw [hsq]; rfl
    have her : e.recipe = some h := by unfold State.recipe; rw [k2]; exact hr
    have hgoal : s.enterHeating = e.reversalCheck.arrivalChecks := by rw [← he]; rfl
    have htol : ((e.hdr (·.reversalTol) : Nat) : Int) = (h.reversalTol : Int) := by simp [State.hdr, her]
    rw [hgoal]
    intro hx
    unfold State.reversalCheck
    rw [htol, k1, hst]
  · have hf := enterFault_entered .reversal .sq e
    have : e.reportFault .reversal .sq = e.enterFault .reversal .sq := by
      unfold State.reportFault; rw [hst]; rfl
    simp only [SeqState.isHeat, hx, decide_true, Bool.and_self, if_true, this]
    have hne : (e.enterFault .reversal .sq).sq.st ≠ .heating := by rw [hf.1]; simp [faultedSq]
    unfold State.arrivalChecks
    rw [if_neg hne]
    exact hf
  · simp only [SeqState.isHeat, Int.not_lt.2 hx, decide_false, Bool.and_false, Bool.false_eq_true, if_false]
    exact arrivalChecks_judged h e her hst

/-! ## The approach (R80 to R82) -/

theorem judgeStart_eq (b : Bool) (s : State) :
    s.judgeStart b = s.setSq { s.sq with startRecord := judgedStart b s } := by
  have h1 : s.lu.spindleReady s.pe.spindle = s.lu.rpm.any (fun r => decide (s.pe.spindle * 9 ≤ r * 10)) := by
    unfold Lu.spindleReady; cases s.lu.rpm <;> rfl
  have h2 : s.inverterReady = (s.lp.power.map (·.state) == some .ready) := by
    unfold State.inverterReady; cases s.lp.power <;> simp
  have h3 : (!s.lu.functionLow .coilWater) = s.lu.lines.toList.all (fun n => n.inputFn != some .coilWater || n.filtered) := by
    unfold Lu.functionLow
    rw [List.not_any_eq_all_not]
    simp [bne]
  unfold State.judgeStart judgedStart
  rw [h1, h2, h3]

theorem met_iff (r : StartRecord) : State.StartRecord.met r = true ↔ AllHold r := by
  unfold State.StartRecord.met AllHold
  cases r.spindle <;> cases r.inverter <;> cases r.coolant <;> simp

/-- A re-judgement in phase WAIT (R82). -/
theorem rejudge_rejudged (h : RecipeHeader) (s : State) (hr : s.recipe = some h) (hs : s.sq.st = .approach .wait) :
    Rejudged h s s.rejudge := by
  unfold State.rejudge State.heatIfMet
  rw [if_pos hs, judgeStart_eq]
  refine ⟨fun hn => ?_, fun ha => ?_⟩
  · rw [if_neg (fun e => hn ((met_iff _).1 e))]
  · rw [if_pos ((met_iff _).2 ha)]
    exact enterHeating_begun h _ hr

theorem rejudgeChanged_judged (h : RecipeHeader) (before : Nat) (s : State) (hr : s.recipe = some h)
    (hs : s.sq.st = .approach .wait) : RejudgedIfChanged h before s (s.rejudgeChanged before) := by
  unfold State.rejudgeChanged
  refine ⟨fun e => by rw [if_pos e], fun e => ?_⟩
  rw [if_neg e]
  exact rejudge_rejudged h s hr hs

/-- Phase WAIT entered (R81). -/
theorem startWait_begun (h : RecipeHeader) (s : State) (hr : s.recipe = some h) : WaitBegun h s s.startWait := by
  let v : State := s.setSq { s.sq with st := .approach .wait, approachWait := some (s.now + Config.approachWait) }
  have hp : SetPointsOf h s.pe.latch v.updateCore := updateCore_points h v hr
  have hst : v.updateCore.sq.st = .approach .wait := by rw [updateCore_sq]; rfl
  have hdry := ((hp.2.2).2.1) (by rw [hst]; simp [Sprays, SeqState.isHeat])
  have hzone := ((hp.2.2).2.2.2.2) (by rw [hst]; simp [Sprays, SeqState.isHeat]) (by rw [hst]; simp) (by rw [hst]; simp)
  refine ⟨v.updateCore, ⟨by simp [v], by simp [v], by simp [v], ?_, ?_, by simp [v], by simp [v], ?_⟩, by simp [v], ?_, hp,
    ?_, ?_, ?_⟩
  · unfold SameKept; simp [v]
  · simp [v]
  · rw [updateCore_pe]; unfold computePe; (repeat' split) <;> simp [Pe.noRecipe, v]
  · rw [updateCore_stk_of_ne _ (by simp [v])]; simp [v]
  · exact (updateCore_sent v).congr rfl rfl (fun _ => rfl) rfl rfl rfl rfl
  · rw [updateCore_sq, hdry, hzone.2.2.2]; rfl
  · exact rejudgeChanged_judged h s.pe.spindle v.updateCore (by simpa [State.recipe, v] using hr) hst

/-- The arrival at the run-in point (R81). -/
theorem arriveRunIn_arrived (h : RecipeHeader) (s : State) (hr : s.recipe = some h) (h1 : s.sq.st ≠ .idle)
    (h2 : s.sq.st.isFault = false) : ArrivedAtRunIn h s s.arriveRunIn := by
  unfold State.arriveRunIn State.heatOrWait
  refine ⟨fun hf => ?_, fun hf => ?_⟩
  · rw [if_pos hf]
    exact (reportFault_faultOrSecondary .drive .sq s rfl).2.2 h1 h2
  · rw [if_neg (Int.not_le.2 hf), judgeStart_eq]
    refine ⟨fun ha => ?_, fun hn => ?_⟩
    · rw [if_pos ((met_iff _).2 ha)]; exact enterHeating_begun h _ hr
    · rw [if_neg (fun e => hn ((met_iff _).1 e))]; exact startWait_begun h _ hr

/-- The run-in check of an entry to APPROACH (R80). -/
theorem runInCheck_judged (h : RecipeHeader) (s : State) (hr : s.recipe = some h) : RunInJudged h s s.runInCheck := by
  have hp : s.runInPoint = -(h.runIn : Int) := by simp [State.runInPoint, State.hdr, hr]
  unfold State.runInCheck
  rw [hp]
  refine ⟨fun hn => by rw [if_neg hn], fun hs => ⟨fun hx => ?_, fun hx => ?_, fun hx => ?_⟩⟩
  · rw [if_pos hs, if_pos hx]
    have : s.reportFault .overtravel .sq = s.enterFault .overtravel .sq := by
      unfold State.reportFault; rw [hs]; rfl
    rw [this]; exact enterFault_entered _ _ _
  · rw [if_pos hs, if_neg (by omega), if_pos hx]
    exact arriveRunIn_arrived h s hr (by rw [hs]; simp) (by rw [hs]; rfl)
  · rw [if_pos hs, if_neg (by omega), if_neg (by omega)]

/-! ## Holds (R121 to R125) -/

/-- The hold-break notice (R102). -/
theorem holdBreak_eq (c : TrackRecipe) (now : Nat) (k : Stk) : k.holdBreak c now = brokenStk c now k := by
  have hclose : k.closeOpen c now false = { k with
      track := k.track.map (closedNow c k.dwellAccount now)
      dwellAccount := accountLeft (fun r => r.closeTime.isNone) k } := closeOpen_eq c now k
  have hacc : (k.closeOpen c now true).dwellAccount = (k.closeOpen c now false).dwellAccount := rfl
  have htrack : (k.closeOpen c now true).track = (brokenStk c now k).track := by
    unfold Stk.closeOpen brokenStk
    apply List.map_congr_left
    intro r _
    cases hr : r.closeTime <;> simp [closedNow, SliceRecord.isOpen, sliceTarget_eq, hr]
  unfold Stk.holdBreak
  dsimp only
  rw [hacc, htrack, hclose] <;> rfl

/-- QUENCHOUT entered by a hold (R122, R123). -/
theorem enterQuenchout_entered (h : RecipeHeader) (brk : HeldFrom) (s : State) (hr : s.recipe = some h) :
    QuenchoutEntered h brk s (s.enterQuenchout brk) := by
  let x : State := s.setSq { s.sq with heldFrom := some brk, dwellZone := none }
  have hc : Changed h (.quenchout .travel) x (x.change (.quenchout .travel)) :=
    change_changed h (.quenchout .travel) x hr (by simp) (by simp) rfl
  let u : State := (x.change (.quenchout .travel)).noticeHoldBreak
  have hu : u = (x.change (.quenchout .travel)).setStk (brokenStk (trackRecipe s.zt.activeBank) s.cu.cellTime s.stk) := by
    simp [u, State.noticeHoldBreak, holdBreak_eq, State.trackCtx, State.now, hc.2.2.1, x]
  have hst : u.sq.st = .quenchout .travel := by rw [hu]; simp [hc.2.2.2.2.1, changedSq]
  have hn : u.sq.st ≠ .runout .travel := by rw [hst]; simp
  have htrack : u.stk.track = [] ↔ s.stk.track = [] := by rw [hu]; simp [brokenStk]
  refine ⟨x.change (.quenchout .travel), hc, fun hdr => ?_, fun hdr => ?_⟩
  · show PostQuenchBegun h _ _ u.judgePostQuench
    rw [← hu]
    unfold State.judgePostQuench
    rw [if_neg hn, if_pos hst, if_pos (htrack.2 hdr)]
    exact startPostQuench_begun h _ u (by rw [hu]; simpa [State.recipe, x] using hr) (by simp) (by simp [Sprays])
  · show u.judgePostQuench = _
    rw [← hu]
    unfold State.judgePostQuench
    rw [if_neg hn, if_pos hst, if_neg (fun e => hdr (htrack.1 e))]

/-- A hold request as it meets each state (R121, R122, R125). -/
theorem holdRequest_met (s : State) : HoldMet s s.holdRequest := by
  refine ⟨fun hs => ?_, fun h hr => ⟨fun hs => ?_, fun ph hs => ?_, fun hs => ?_, fun ph hs => ?_⟩⟩
  · unfold State.holdRequest
    cases he : s.sq.st <;> simp [he, SeqState.isFault] at hs ⊢
  · unfold State.holdRequest; rw [hs]
    exact change_changed h .held _ hr (by simp) (by simp) rfl
  · unfold State.holdRequest; rw [hs]
    exact change_changed h .held _ hr (by simp) (by simp) rfl
  · unfold State.holdRequest; rw [hs]
    exact enterQuenchout_entered h _ s hr
  · unfold State.holdRequest; rw [hs]
    exact enterQuenchout_entered h _ s hr

end Sys2Proof.Machine
end

