-- ==== Sys2Proof/Laws/Controls.lean ====
section
/-! SUPPORT. What the fields of a control word do, said once: holds, abort, keep-on, fault clear and RUN. -/

namespace Sys2Proof.Machine

/-! ## The fields every port may carry (R121, R137, R183, R184) -/

theorem takeHold_taken (port field : Port) (w : ControlWord) (s : State) :
    HoldFieldTaken port field w s (s.takeHold port field w) := by
  unfold State.takeHold State.writeHold State.requestIf
  refine ⟨fun hm => by rw [hm]; rfl, fun hm => ?_⟩
  rw [if_pos hm]
  have hr : (w.hold field && !s.lp.control.hold field) = true ↔ w.hold field = true ∧ s.lp.control.hold field = false := by
    simp
  refine ⟨fun h => ?_, fun h => ?_⟩
  · rw [if_pos (hr.2 h)]; exact holdRequest_met _
  · rw [if_neg (fun e => h (hr.1 e))]

theorem takeShared_taken (port : Port) (w : ControlWord) (s : State) : SharedTaken port w s (s.takeShared port w) := by
  refine ⟨_, _, _, _, _, takeHold_taken port .s w s, takeHold_taken port .p w _, takeHold_taken port .m w _,
    takeHold_taken port .q w _, ?_, ?_, rfl⟩
  · intro ha
    unfold State.takeAbort
    rw [if_pos ha]
    exact reportFault_faultOrSecondary .aborted (.port port) _ rfl
  · intro ha
    unfold State.takeAbort
    rw [ha]; rfl

/-! ## Fault clear (R143) -/

/-- A chain of conditions, each with its answer, is the first whose condition holds. -/
theorem firstOf_cons {α : Type} (b : Bool) (a : α) (l : List (Bool × α)) :
    firstOf ((b, a) :: l) = if b then some a else firstOf l := rfl

theorem clearBlock_eq (s : State) : s.clearBlock = firstOf (clearTable s) := by
  have h1 : (s.lp.power.map (fun r => r.state == .tripped)).getD false = (s.lp.power.map (·.state) == some .tripped) := by
    cases s.lp.power <;> simp
  unfold State.clearBlock
  rw [h1]
  rfl

theorem judgeClear_judged (s : State) : ClearJudged s s.judgeClear.1 s.judgeClear.2 := by
  unfold State.judgeClear
  refine ⟨fun hf => ?_, fun hf => ?_, fun r hs hr => ?_, fun hs hr => ?_⟩
  · have h1 : s.sq.st ≠ .fault .flood := by intro e; rw [e] at hf; exact absurd hf (by decide)
    have h2 : s.sq.st ≠ .fault .standing := by intro e; rw [e] at hf; exact absurd hf (by decide)
    rw [if_neg h1, if_neg h2]; exact ⟨rfl, rfl⟩
  · rw [if_pos hf]; exact ⟨rfl, rfl⟩
  · rw [if_neg (by rw [hs]; simp), if_pos hs, clearBlock_eq, hr]; exact ⟨rfl, rfl⟩
  · rw [if_neg (by rw [hs]; simp), if_pos hs, clearBlock_eq, hr]; exact ⟨change_idle _, rfl⟩

/-! ## RUN and resume (R75 to R77, R126 to R128) -/

theorem startBlock_eq (h : RecipeHeader) (s : State) (hr : s.recipe = some h) :
    s.startBlock = firstOf (startTable h s) := by
  have h1 : s.quenchantBlocks =
      (s.lp.quench.map (fun r => decide (r.temperature < h.windowLow ∨ h.windowHigh < r.temperature))).getD true := by
    unfold State.quenchantBlocks
    rw [hr]
    cases s.lp.quench <;> simp [quenchantOutside]
  unfold State.startBlock
  rw [h1]
  rfl

/-- What an accepted RUN sets before its entry (R77). -/
theorem openScan_eq (h : RecipeHeader) (s : State) (hr : s.recipe = some h) :
    s.fillScanRecord.openScan = scanOpened h s := by
  have hr' : s.fillScanRecord.recipe = some h := hr
  unfold State.openScan scanOpened
  rw [show s.fillScanRecord.hdr (·.identifier) = h.identifier by simp [State.hdr, hr']]
  unfold State.fillScanRecord
  rw [nextDwellFrom_eq]
  rfl

/-- An accepted RUN (R77, R79, R80). -/
theorem acceptRun_started (h : RecipeHeader) (s : State) (hr : s.recipe = some h) : RunStarted h s s.acceptRun := by
  have hp : s.probes = decide (h.datumModeCode = 1) := by
    simp [State.probes, hr, HeaderPart2.datumProbe]; rfl
  unfold State.acceptRun
  rw [hp, openScan_eq h s hr]
  refine ⟨fun hm => ?_, fun hm => ?_⟩
  · rw [if_pos (decide_eq_true hm)]
    exact ⟨_, change_changed h .seek _ hr (by simp) (by simp) rfl, travelCheck_judged _⟩
  · rw [if_neg (by simpa using hm)]
    have hc : Changed h (.approach .travel) (scanOpened h s) ((scanOpened h s).change (.approach .travel)) :=
      change_changed h (.approach .travel) (scanOpened h s) hr (by simp) (by simp) rfl
    refine ⟨_, _, hc, travelCheck_judged _, runInCheck_judged h _ ?_⟩
    simpa [State.recipe, scanOpened] using hr

/-- An accepted resume (R126 to R128). -/
theorem acceptResume_resumed (h : RecipeHeader) (brk : HeldFrom) (s : State) (hr : s.recipe = some h) :
    Resumed h brk s (s.acceptResume brk) := by
  let x : State := s.setSq { s.sq with heldFrom := none }
  have hx : x.recipe = some h := hr
  refine ⟨fun hb => ?_, fun hb => ?_, fun hb => ?_⟩
  · subst hb
    exact ⟨_, change_changed h .seek x hx (by simp) (by simp) rfl, travelCheck_judged _⟩
  · subst hb
    have hc : Changed h (.approach .travel) x (x.change (.approach .travel)) :=
      change_changed h (.approach .travel) x hx (by simp) (by simp) rfl
    let e : State := (x.change (.approach .travel)).travelCheck false
    have her : e.recipe = some h := by simpa [e, State.recipe] using hx
    have hef : e.cu.frontier = s.cu.frontier := by simp [e, x]
    have hp : e.runInPoint = -(h.runIn : Int) := by simp [State.runInPoint, State.hdr, her]
    refine ⟨_, e, hc, travelCheck_judged _, fun hs hf => ?_, fun hn => ?_⟩
    · show ArrivedAtRunIn h e e.arriveIfReached
      unfold State.arriveIfReached
      rw [if_pos ⟨hs, by rw [hp, hef]; exact hf⟩]
      exact arriveRunIn_arrived h e her (by rw [hs]; simp) (by rw [hs]; rfl)
    · show e.arriveIfReached = e
      unfold State.arriveIfReached
      rw [if_neg]
      rw [hp, hef]
      rintro ⟨h1, h2⟩
      rcases hn with hn | hn
      · exact hn h1
      · omega
  · have hk : s.acceptResume brk = x.enterHeating.travelCheck false := by
      cases brk <;> first | rfl | exact absurd rfl hb
    rw [hk]
    exact ⟨_, enterHeating_begun h x hx, travelCheck_judged _⟩

/-- RUN judged in its state (R75, R76, R126). -/
theorem takeRun_judged (s : State) : RunJudged s s.takeRun.1 s.takeRun.2 := by
  have hpend : s.stk.resultPending = true ↔ ∃ u, s.stk.summary = some u ∧ u.status ≠ .opened ∧ u.read = false := by
    unfold Stk.resultPending
    cases s.stk.summary <;> simp
  have hst : s.sq.st = .armed ∨ s.sq.st = .done → s.takeRun = s.judgeRun := by
    rintro (e | e) <;> unfold State.takeRun <;> rw [e]
  have hheld : s.sq.st = .held → s.takeRun = s.judgeResume := by
    intro e; unfold State.takeRun; rw [e]
  have hready : s.lu.spindleReady s.pe.spindle = true ↔ SpindleReady s.lu s.pe.spindle := by
    unfold Lu.spindleReady SpindleReady
    cases s.lu.rpm <;> simp
  have hinv : s.inverterReady = true ↔ s.lp.power.map (·.state) = some .ready := by
    unfold State.inverterReady
    cases s.lp.power <;> simp
  refine ⟨fun hs => ?_, fun hs => ?_, fun hs hu => ?_, fun hs hh => ?_, fun h hr => ⟨fun r hs hh ht => ?_,
    fun hs hh ht => ?_, fun brk hs hh ht hb => ⟨fun hk hsp => ?_, fun hk hsp hi => ?_, fun hk => ?_⟩⟩⟩
  · unfold State.takeRun
    cases e : s.sq.st <;> simp [e, SeqState.isFault] at hs ⊢
  · unfold State.takeRun
    cases e : s.sq.st <;> simp [e, SeqState.isMotion] at hs ⊢
  · rw [hst hs]; unfold State.judgeRun; rw [if_pos (hpend.2 hu)]; exact ⟨rfl, rfl⟩
  · have hh' : s.lp.control.anyHold = true := by simpa using hh
    rcases hs with ⟨hs, hu⟩ | hs
    · rw [hst hs]; unfold State.judgeRun
      rw [if_neg (fun e => hu (hpend.1 e)), if_pos hh']; exact ⟨rfl, rfl⟩
    · rw [hheld hs]; unfold State.judgeResume
      rw [if_pos hh']; exact ⟨rfl, rfl⟩
  · have hh' : ¬ s.lp.control.anyHold = true := by simpa using hh
    rcases hs with ⟨hs, hu⟩ | hs
    · rw [hst hs]; unfold State.judgeRun
      rw [if_neg (fun e => hu (hpend.1 e)), if_neg hh', startBlock_eq h s hr, ht]; exact ⟨rfl, rfl⟩
    · rw [hheld hs]; unfold State.judgeResume
      rw [if_neg hh', startBlock_eq h s hr, ht]; exact ⟨rfl, rfl⟩
  · have hh' : ¬ s.lp.control.anyHold = true := by simpa using hh
    rw [hst hs.1]; unfold State.judgeRun
    rw [if_neg (fun e => hs.2 (hpend.1 e)), if_neg hh', startBlock_eq h s hr, ht]
    exact ⟨acceptRun_started h s hr, rfl⟩
  all_goals
    have hh' : ¬ s.lp.control.anyHold = true := by simpa using hh
    rw [hheld hs]; unfold State.judgeResume
    rw [if_neg hh', startBlock_eq h s hr, ht, hb]
  · have hb' : brk.brk.isSome = true := Option.isSome_iff_ne_none.2 hk
    have : s.resumeBlock = some .spindle := by
      unfold State.resumeBlock; rw [if_pos]; simpa using fun e => hsp (hready.1 e)
    dsimp only
    rw [if_pos hb', this]; exact ⟨rfl, rfl⟩
  · have hb' : brk.brk.isSome = true := Option.isSome_iff_ne_none.2 hk
    have : s.resumeBlock = some .inverter := by
      unfold State.resumeBlock
      rw [if_neg (by simpa using hready.2 hsp), if_pos]
      simpa using fun e => hi (hinv.1 e)
    dsimp only
    rw [if_pos hb', this]; exact ⟨rfl, rfl⟩
  · have : (if brk.brk.isSome then s.resumeBlock else none) = none := by
      rcases hk with hk | hk
      · rw [hk]; rfl
      · have hr1 := hready.2 hk.1
        have hr2 := hinv.2 hk.2
        unfold State.resumeBlock
        simp [hr1, hr2]
    dsimp only
    rw [this]; exact ⟨acceptResume_resumed h brk s hr, rfl⟩

/-! ## The whole word (R184) -/

/-- The fields that a frame of the S-port or of an actuator carries, one after another (R184). -/
theorem word_taken (port : Port) (w : ControlWord) (s : State) :
    let u := s.takeShared port w
    let clear := if port = .s then u.takeClearField w else (u, .none)
    let run := if port = .s then clear.1.takeRunField w else (clear.1, .none)
    WordTaken port w s run.1 clear.2 run.2 := by
  dsimp only
  by_cases hp : port = .s
  · rw [if_pos hp, if_pos hp]
    refine ⟨_, ((s.takeShared port w).takeClearField w).1, takeShared_taken port w s, fun _ hw => ?_, fun _ hw => ?_,
      fun hw => ?_, fun hw => ?_⟩
    · unfold State.takeClearField; rw [if_pos hw]; exact judgeClear_judged _
    · unfold State.takeRunField; rw [if_pos hw]; exact takeRun_judged _
    · have hw' := hw.resolve_left (fun h => h hp)
      unfold State.takeClearField; rw [hw']; exact ⟨rfl, rfl⟩
    · have hw' := hw.resolve_left (fun h => h hp)
      unfold State.takeRunField; rw [hw']; exact ⟨rfl, rfl⟩
  · rw [if_neg hp, if_neg hp]
    exact ⟨_, _, takeShared_taken port w s, fun h => absurd h hp, fun h => absurd h hp, fun _ => ⟨rfl, rfl⟩,
      fun _ => ⟨rfl, rfl⟩⟩

end Sys2Proof.Machine
end

