-- ==== Sys2Proof/Laws/Requests.lean ====
section
/-! SUPPORT. What a request meets before its own rule, and what a control word leaves when it carries nothing new. -/

namespace Sys2Proof.Machine

/-! ## Requests -/

/-- A taken request: its own rule on the state after its arrival, and the answer. -/
theorem takeRequest_taken {α : Type} (tag : Byte) (f : α) (body : α → State → State × Answer) (s : State)
    (h : Taken s) :
    takeRequest tag (.fields f) body s = (body f (s.arrive .s)).1.answer tag (body f (s.arrive .s)).2 := by
  obtain ⟨h1, h2⟩ := h
  simp [takeRequest, judgeRequest, Config.ackDepth, Nat.not_le.2 h1, h2]

theorem takeRequest_full {α : Type} (tag : Byte) (p : Payload α) (body : α → State → State × Answer) (s : State)
    (h : 8 ≤ s.lp.acks.length) : takeRequest tag p body s = s.arrive .s := by
  simp [takeRequest, judgeRequest, Config.ackDepth, h]

theorem takeRequest_pending {α : Type} (tag : Byte) (p : Payload α) (body : α → State → State × Answer) (s : State)
    (h : s.lp.acks.length < 8) (h2 : s.lp.pendingReset = true) :
    takeRequest tag p body s = repliedTo tag (Answer.refuse .busy) s := by
  simp [takeRequest, judgeRequest, Config.ackDepth, Nat.not_le.2 h, h2, repliedTo]

theorem takeRequest_wrong {α : Type} (tag : Byte) (body : α → State → State × Answer) (s : State) (h : Taken s) :
    takeRequest tag .wrongLength body s = repliedTo tag (Answer.invalid 0 none) s := by
  obtain ⟨h1, h2⟩ := h
  simp [takeRequest, judgeRequest, Config.ackDepth, Nat.not_le.2 h1, h2, repliedTo]

/-! ## The recipe store -/

theorem loading_iff (s : State) : s.rs.loading = true ↔ LoadInFlight s := by
  unfold Rs.loading LoadInFlight
  rcases s.rs.inFlight with _ | ⟨op, c⟩
  · simp
  · cases op <;> simp

theorem shadowLocked_iff (s : State) : s.shadowLocked = true ↔ ShadowLocked s := by
  unfold State.shadowLocked ShadowLocked
  rw [Bool.or_eq_true, loading_iff]
  unfold Rs.storing
  rcases s.rs.inFlight with _ | ⟨op, c⟩
  · simp
  · cases op <;> simp

@[simp] theorem arrive_shadowLocked (s : State) (w : Port) : (s.arrive w).shadowLocked = s.shadowLocked := by
  unfold State.shadowLocked; simp

theorem carriedEntry_eq (w : ZoneWrite) :
    State.carriedEntry w = (match carriedZone w with | none => .error () | some e => .ok e) := by
  unfold State.carriedEntry carriedZone ZoneKind.ofCode
  rcases w with ⟨pos, k, _⟩
  rcases k with _ | _ | _ | _ | _ | _ | k <;>
    simp [entryOf, ZoneKind.hasEnergy, ZoneKind.hasSpeed, ZoneKind.isDwell, ZoneKind.hasWindow, ZoneKind.hasHelix]

/-! ## Control words -/

theorem setHold_same (c : Control) (w : Port) : c.setHold (c.hold w) w = c := by cases w <;> rfl

/-- A hold field written with the value it has changes nothing. -/
theorem writeHold_same (s : State) (w : Port) (v : Bool) (h : v = s.lp.control.hold w) : s.writeHold w v = s := by
  subst h
  unfold State.writeHold
  rw [setHold_same]
  cases s.lp.control.hold w <;> rfl

theorem takeHold_same (s : State) (port w : Port) (c : ControlWord)
    (h : port.mayHold w = true → c.hold w = s.lp.control.hold w) : s.takeHold port w c = s := by
  unfold State.takeHold
  split
  · next e => exact writeHold_same _ _ _ (h e)
  · rfl

theorem takeKeepOn_same (s : State) (port : Port) (c : ControlWord)
    (h : port.mayKeepOn = true → c.keepOn = s.lp.control.keepOn) : s.takeKeepOn port c = s := by
  unfold State.takeKeepOn
  split
  · next e => rw [h e]; rfl
  · rfl

/-- A word that keeps every hold field changes none. -/
theorem takeHolds_same (s : State) (port : Port) (c : ControlWord)
    (h : ∀ w, port.mayHold w = true → c.hold w = s.lp.control.hold w) :
    (((s.takeHold port .s c).takeHold port .p c).takeHold port .m c).takeHold port .q c = s := by
  rw [takeHold_same s port .s c (h .s), takeHold_same s port .p c (h .p), takeHold_same s port .m c (h .m),
    takeHold_same s port .q c (h .q)]

/-- A CONTROL frame that is taken and carries no event of the S-port's own: the shared fields, and the answer. -/
theorem takeControl_shared (port : Port) (tag : Byte) (w : ControlWord) (s : State) (ht : ControlTaken port s)
    (hk : port = .s → w.faultClear = false ∧ w.run = false) :
    s.takeControl port tag w = controlDone port tag .none .none ((s.arrive port).takeShared port w) := by
  unfold State.takeControl controlDone
  split
  · next e =>
    subst e
    obtain ⟨a, b⟩ := ht rfl
    obtain ⟨c, d⟩ := hk rfl
    simp [State.judgeControl, Config.ackDepth, Nat.not_le.2 a, b, State.superviseWord, State.takeClearField,
      State.takeRunField, c, d, State.answerControl, controlAnswer_eq]
  · rfl

end Sys2Proof.Machine
end

