-- ==== Sys2Proof/Laws/Store.lean ====
section
/-! SUPPORT. The recipe slots through a store, a reset and an interruption, and the start-up load. -/

namespace Sys2Proof.Machine

/-- The condition of a slot, found from its check (R39). -/
theorem judge_eq (v : RecipeSlot) : v.judge = judgedSlot v := by
  unfold RecipeSlot.judge judgedSlot Bank.condition
  split <;> simp_all

/-- A slot as a store or an erase leaves it keeps its condition through a reset (R39, R42, R43). -/
@[simp] theorem judge_written (b : Bank) : (RecipeSlot.written b).judge = RecipeSlot.written b := by
  simp [RecipeSlot.judge, RecipeSlot.written]

/-- A slot partly written is CORRUPT, its check not the image's (R45). -/
theorem torn_disagrees (draw : Nat) : (RecipeSlot.torn draw).condition = .corrupt ∧
    (RecipeSlot.torn draw).check ≠ Config.freeImageCheck (RecipeSlot.torn draw).image := by
  refine ⟨rfl, ?_⟩
  unfold RecipeSlot.torn
  dsimp only
  split
  · next h => rw [h]; intro e; have := congrArg BitVec.toNat e; simp [BitVec.toNat_add] at this; omega
  · next h => exact h

/-- It stays CORRUPT through every later reset. -/
@[simp] theorem judge_torn (draw : Nat) : (RecipeSlot.torn draw).judge = RecipeSlot.torn draw := by
  have h := torn_disagrees draw
  unfold RecipeSlot.judge
  rw [if_neg h.2, ← h.1]

/-- What a reset makes of each slot (R39). -/
theorem storeReset_slot (r : Rs) (k : SlotNo) : (State.storeReset r).slots[k] = judgedSlot r.slots[k] := by
  simp [State.storeReset, judge_eq]

/-- A reset finds the store as delivered in its own values (assumption 10). -/
theorem storeReset_delivered : State.storeReset Rs.delivered = Rs.delivered := by
  have h : Rs.delivered.slots.map RecipeSlot.judge = Rs.delivered.slots := by simp [Rs.delivered]
  unfold State.storeReset
  rw [h]; rfl

/-! ## The start-up load (R47) -/

theorem startUpLoad_none (s : State) (h : s.rs.inForce.startUp = none) : s.startUpLoad = s.setStartUp .none := by
  unfold State.startUpLoad; rw [h]

theorem startUpLoad_valid (s : State) (k : SlotNo) (h : s.rs.inForce.startUp = some k)
    (hv : (s.rs.slots[k]).condition = .valid) :
    s.startUpLoad = (s.setStartUp .loading).startOp (.load k) Config.loadTime := by
  unfold State.startUpLoad; rw [h]; dsimp only; rw [if_pos hv]

theorem startUpLoad_failed (s : State) (k : SlotNo) (h : s.rs.inForce.startUp = some k)
    (hv : (s.rs.slots[k]).condition ≠ .valid) : s.startUpLoad = s.setStartUp .autoloadFailed := by
  unfold State.startUpLoad; rw [h]; dsimp only; rw [if_neg hv]

end Sys2Proof.Machine
end

