-- ==== Sys2Proof/Laws/Time.lean ====
section
/-! SUPPORT. Timers, the order of due expiries, and the recipe store through a reset. -/

namespace Sys2Proof.Machine

@[simp] theorem reached_none (n : Nat) : reached none n = false := rfl

@[simp] theorem reached_some (t n : Nat) : reached (some t) n = decide (t ≤ n) := rfl

/-- A timer that is stopped, or whose instant lies ahead, has not been reached. -/
theorem reached_of_ahead {t : Option Nat} {n : Nat} (h : ∀ x, t = some x → n < x) : reached t n = false := by
  cases t with
  | none => rfl
  | some x => have := h x rfl; simp; omega

theorem perm_getElem_cons_eraseIdx {α : Type} (l : List α) (k : Nat) (h : k < l.length) :
    (l[k] :: l.eraseIdx k).Perm l := by
  induction l generalizing k with
  | nil => simp at h
  | cons a rest ih =>
    cases k with
    | zero => exact List.Perm.refl _
    | succ k =>
      simp only [List.getElem_cons_succ, List.eraseIdx_cons_succ]
      exact (List.Perm.swap a _ _).trans (List.Perm.cons a (ih k (by simpa using h)))

/-- The free order of the due expiries is an order of exactly those. -/
theorem freelyOrdered_perm (n k : Nat) (l : List Instr) (h : l.length ≤ n) : (freelyOrdered n k l).Perm l := by
  induction n generalizing k l with
  | zero => simp [freelyOrdered]
  | succ n ih =>
    match l with
    | [] => simp [freelyOrdered]
    | [i] => simp [freelyOrdered]
    | i :: j :: rest =>
      simp only [freelyOrdered]
      have hlt : Config.freeOrder k % (i :: j :: rest).length < (i :: j :: rest).length := Nat.mod_lt _ (by simp)
      generalize Config.freeOrder k % (i :: j :: rest).length = m at hlt ⊢
      generalize (i :: j :: rest) = l at *
      have hlen : (l.eraseIdx m).length ≤ n := by rw [List.length_eraseIdx]; simp [hlt]; omega
      have hget : l.getD m i = l[m] := by simp [List.getD, hlt]
      rw [hget]
      exact (List.Perm.cons _ (ih (k + 1) (l.eraseIdx m) hlen)).trans (perm_getElem_cons_eraseIdx l m hlt)

/-- The start-up load touches neither the slots, nor the option copies, nor the block in force. -/
theorem startUpLoad_store (s : State) :
    s.startUpLoad.rs.slots = s.rs.slots ∧ s.startUpLoad.rs.copy1 = s.rs.copy1 ∧
    s.startUpLoad.rs.copy2 = s.rs.copy2 ∧ s.startUpLoad.rs.inForce = s.rs.inForce := by
  unfold State.startUpLoad
  (repeat' split) <;> exact ⟨rfl, rfl, rfl, rfl⟩

/-- When a pending warm reset is due (R188). -/
theorem resetDue_iff (s : State) : s.resetDue = true ↔
    s.lp.pendingReset = true ∧ s.lp.acks = [] ∧ ∀ j a, s.lp.portS.tx = some j → j.frame ≠ .ack a := by
  simp only [State.resetDue, State.sendingAck, Bool.and_eq_true, List.isEmpty_iff, and_assoc, Bool.not_eq_true']
  refine and_congr_right fun _ => and_congr_right fun _ => ?_
  split
  · next a e h => simp [h]
  · next h =>
    refine ⟨fun _ j a hj hja => h a j.endsAt2 ?_, fun _ => rfl⟩
    rw [hj, ← hja]

end Sys2Proof.Machine
end

