-- ==== Sys2Proof/Tests/Slice0.lean ====
section
/-! SUPPORT. Tests: what the well-formedness check refuses, values the spec gives, and for each statement of
Certificates/Slice0 states and operands that meet its hypotheses. -/

namespace Sys2Proof.Tests

set_option Elab.async false

open Sys2Proof.Machine

/-! ## Helpers -/

/-- The state a command leaves. -/
def after (c : Instr) (s : State) : State :=
  match exec c s with
  | .next t => t
  | .fault _ => s
  | .refused _ => s

/-- The same state, but for the slots, whose checks are free values. -/
def alike (s t : State) : Bool :=
  s.pending == t.pending && s.cu == t.cu && s.zt == t.zt && s.pe == t.pe && s.sq == t.sq && s.stk == t.stk &&
  s.lu == t.lu && s.lp == t.lp && s.freeCount == t.freeCount && s.rs.copy1 == t.rs.copy1 && s.rs.copy2 == t.rs.copy2 &&
  s.rs.inForce == t.rs.inForce && s.rs.inFlight == t.rs.inFlight && s.rs.startUp == t.rs.startUp

/-- A recipe of R26: the header of recipe 4,117 with a short run-in and offset. -/
def part1 : HeaderPart1 where
  identifier := 4117
  directionCode := 1
  pitch := 1000
  offsetD := 5000
  pMax := 240000
  qMax := 900
  vMin := 8000
  vMax := 20000
  seekSpeed := 5000
  approachSpeed := 8000
  runoutSpeed := 20000
  runIn := 1000
  latencyP := 2000
  latencyQ := 60000
  prewet := 3000
  postQuenchTime := 20
  floodTime := 1000
  floodFlow := 900
  reversalTol := 500
  energyTol := 30

def part2 : HeaderPart2 where
  datumModeCode := 1
  datumCoord := 3000
  originCoord := 4500
  seekLimit := 8000
  datumTol := 20
  nMax := 400
  nBase := 150
  pressureMin := 250
  windowLow := 150
  windowHigh := 350
  endProbeCode := 1

def header : RecipeHeader := { toHeaderPart1 := part1, toHeaderPart2 := part2 }

/-- A WRITE_ZONE of kind code k at a start. -/
def zoneWrite (pos k start : Nat) : ZoneWrite where
  position := pos
  kindCode := k
  startX := start
  energy := some 22000
  zoneSpeed := some 10000
  dwellPower := some 180000
  dwellTime := some 35
  mask := 0xFF
  flow := 100
  windowMin := some 600
  windowMax := some 2500
  helix := some 2500

/-- The entry that such a write makes. -/
def entry (k start : Nat) : Option ZoneEntry := (carriedZone (zoneWrite 0 k start)).getD none

/-- HEAT 0, RAMP 2,000, HEAT 4,000, DWELL 5,000, GAP 7,000, HEAT 9,000, END 12,000. -/
def zonesOf : Vector (Option ZoneEntry) 64 :=
  ((((((Bank.empty.zones.set 0 (entry 1 0)).set 1 (entry 2 2000)).set 2 (entry 1 4000)).set 3 (entry 3 5000)).set 4
    (entry 4 7000)).set 5 (entry 1 9000)).set 6 (entry 5 12000)

def bank : Bank := { header := some header, zones := zonesOf }

/-- A port with its link ONLINE. -/
def onlinePort : PortState := { PortState.resetValue with link := .online }

/-- The state after reset with every link ONLINE, the recipe active and the sequencer in a state. -/
def inState (st : SeqState) : State :=
  { State.reset with
    zt := { bankA := bank, bankB := Bank.empty, active := .a }
    sq := { State.reset.sq with st := st }
    lp := { Lp.resetValue with
      portS := onlinePort, portP := onlinePort, portM := onlinePort, portQ := onlinePort
      quench := some { pressure := 320, flow := 0, temperature := 244 } } }

/-- A control word with every field clear. -/
def clearWord : ControlWord where
  holdS := false
  holdP := false
  holdM := false
  holdQ := false
  abort := false
  run := false
  faultClear := false
  keepOn := false

theorem test_bank_validates : validate 65536 bank = none := by decide +kernel

theorem test_empty_bank_fails : validate 65536 Bank.empty ≠ none := by decide +kernel

/-! ## Well-formedness: each check refuses an ill-formed command -/

theorem test_wf_hold_of_another_port : (Instr.holdRequest .p 0 .m clearWord).wf = false := by decide +kernel
theorem test_wf_clear_of_another_port : (Instr.holdFieldCleared .q 0 .s clearWord).wf = false := by decide +kernel
theorem test_wf_keep_on_from_the_inverter : (Instr.quenchKeepOn .p 0 true clearWord).wf = false := by decide +kernel
theorem test_wf_one_byte_operands :
    (Instr.readStatus 0 (.fields 256)).wf = false ∧ (Instr.loadRecipe 0 (.fields 256)).wf = false ∧
    (Instr.storeRecipe 0 (.fields 256)).wf = false ∧ (Instr.eraseRecipe 0 (.fields 256)).wf = false ∧
    (Instr.readSummary 0 (.fields 256)).wf = false ∧ (Instr.driveStatus (.fields 256)).wf = false := by decide +kernel
theorem test_wf_header_part1 :
    (Instr.writeHeader 0 (.fields (.part1 { part1 with pitch := 65536 }))).wf = false ∧
    (Instr.writeHeader 0 (.fields (.part1 { part1 with latencyQ := 2 ^ 32 }))).wf = false := by decide +kernel
theorem test_wf_header_part2 :
    (Instr.writeHeader 0 (.fields (.part2 { part2 with windowLow := -32769 }))).wf = false ∧
    (Instr.writeHeader 0 (.fields (.part2 { part2 with datumCoord := 2 ^ 31 }))).wf = false := by decide +kernel
theorem test_wf_header_other_part : (Instr.writeHeader 0 (.fields (.otherPart 2))).wf = false := by decide +kernel
theorem test_wf_zone_write :
    (Instr.writeZone 0 (.fields { zoneWrite 0 1 0 with energy := some 65536 })).wf = false ∧
    (Instr.writeZone 0 (.fields { zoneWrite 256 1 0 with energy := none })).wf = false := by decide +kernel
theorem test_wf_zone_read :
    (Instr.readZone 0 (.fields { bankCode := 256, position := none, part := 1 })).wf = false ∧
    (Instr.readZone 0 (.fields { bankCode := 1, position := some 256, part := 1 })).wf = false := by decide +kernel

/-- A WRITE_POSITION_CONFIG that carries nothing. -/
def noPosition : PositionWrite where
  scaleK := none
  trim := none
  edgeModeCode := none
  invertCode := none
  lower := none
  upper := none

theorem test_wf_position_write :
    (Instr.writePositionConfig 0 (.fields { noPosition with scaleK := some (2 ^ 32) })).wf = false ∧
    (Instr.writePositionConfig 0 (.fields { noPosition with lower := some (-2 ^ 31 - 1) })).wf = false ∧
    (Instr.writePositionConfig 0 (.fields { noPosition with trim := some (0, 256) })).wf = false := by decide +kernel

/-- A WRITE_LINE_CONFIG of an IN line. -/
def lineWrite : LineWrite where
  line := 0
  directionCode := 1
  pullUpCode := 0
  edgeCode := some 1
  filter := some 20
  latency := some 400
  inputCode := some 1
  captureCode := some 1
  outputCode := none

/-- A WRITE_MARK. -/
def markWrite : MarkWrite where
  mark := 0
  enableCode := 1
  target := 500
  modeCode := 2
  addValue := some 100
  width := 1
  stampCode := 1

theorem test_wf_line_write :
    (Instr.writeLineConfig 0 (.fields { lineWrite with filter := some 65536 })).wf = false := by decide +kernel
theorem test_wf_line_levels : (Instr.writeLine 0 (.fields [(256, true)])).wf = false := by decide +kernel
theorem test_wf_mark_write :
    (Instr.writeMark 0 (.fields { markWrite with target := 2 ^ 31 })).wf = false := by decide +kernel
theorem test_wf_options :
    (Instr.writeOptions 0 (.fields { protectedCount := 65536, lossCode := 0, startUp := none })).wf = false := by decide +kernel
theorem test_wf_power_report :
    (Instr.powerReport (.fields { power := 2 ^ 32, interval := 0, stateCode := 1 })).wf = false := by decide +kernel
theorem test_wf_quench_report :
    (Instr.quenchReport (.fields { pressure := 0, flow := 0, temperature := 32768 })).wf = false := by decide +kernel
theorem test_wf_rail :
    (Instr.supply 4500).wf = false ∧ (Instr.supply 3999).wf = false ∧ (Instr.supplyRestored 4599).wf = false ∧
    (Instr.powerOnReset { railMv := 4200, encA := false, encB := false, pins := Vector.replicate 8 .low }).wf = false := by
  decide +kernel
theorem test_wf_accepts :
    (Instr.holdRequest .s 0 .q clearWord).wf = true ∧ (Instr.writeHeader 0 (.fields (.part1 part1))).wf = true ∧
    (Instr.writeHeader 0 (.fields (.part2 part2))).wf = true ∧
    (Instr.writeZone 0 (.fields (zoneWrite 63 1 0))).wf = true ∧ (Instr.supply 4499).wf = true := by decide +kernel

/-! ## The step, time and resets -/

theorem witness_StepRunsTheFrontCommand :
    (State.reset.setPending [.indexRisingEdge]).pending = .indexRisingEdge :: [] ∧
    (after .indexRisingEdge (State.reset.setPending [])).cu.indexRecord = some { count := 0, time := 0 } := by decide +kernel

/-- The state after reset at another instant. -/
def atTime (t : Nat) (s : State) : State := s.setCu { s.cu with cellTime := t }

theorem witness_AnEmptyQueueLetsTimePass :
    State.reset.pending = [] ∧ State.reset.allDue = [] ∧ State.reset.idle.cu.cellTime = 1 ∧ State.reset.allDue.Nodup ∧
    (atTime 249 State.reset).allDue = [] ∧ (atTime 250 State.reset).allDue = [.updateExpiry] ∧
    (atTime 250 State.reset).idle.pending = [.updateExpiry] ∧
    (atTime (2 ^ 64 - 1) { State.reset with pe := Pe.resetValue (2 ^ 64) }).idle.cu.cellTime = 0 := by decide +kernel

/-- Every timer due one microsecond on. -/
def almostDue : State :=
  let w := { onlinePort with gap := some 300001 }
  { inState .heating with
    cu := { State.reset.cu with cellTime := 300000 }
    pe := { State.reset.pe with nextUpdate := 300001 }
    rs := { Rs.delivered with inFlight := some { op := .load 0, completes := 300001 } }
    sq := { State.reset.sq with
      st := .heating, approachWait := some 300001, dwellTimer := some 300001, postQuench := some 300001
      floodTimer := some 300001, indexWatch := some 300001, pressureWatch := some 300001 }
    lu := { State.reset.lu with
      lines := State.reset.lu.lines.set 3 { Line.resetValue .high with filterTimer := some 300001 }
      marks := State.reset.lu.marks.set 2 { Mark.resetValue with pulse := some 300001 }
      withdrawal := some 300001 }
    lp := { Lp.resetValue with
      portS := w, portP := { w with lastArrival := 299999 }, portM := { w with lastArrival := 299999 }
      portQ := { w with lastArrival := 299999 }, powerSend := some 300001, quenchSend := some 300001 } }

theorem witness_AnExpiryBeforeItsInstantChangesNothing :
    ([.updateExpiry, .approachWaitExpiry, .dwellTimerExpiry, .postQuenchExpiry, .floodExpiry, .indexWatchExpiry,
      .pressureWatchExpiry, .filterExpiry 3, .filterExpiry 0, .markPulseExpiry 2, .withdrawalExpiry, .loadComplete,
      .storeComplete, .eraseComplete, .optionWriteComplete, .livenessExpiry .s, .livenessExpiry .p,
      .interCharacterTimeout .m, .powerSendExpiry, .quenchSendExpiry] : List Instr).all
        (fun c => alike (after c almostDue) almostDue) = true ∧
    (almostDue.lp.port .p).lastArrival + livenessTime almostDue.sq.st .p = almostDue.cu.cellTime + 1999 ∧
    (State.reset.lp.port .q).link ≠ .online ∧ alike (after (.livenessExpiry .q) State.reset) State.reset = true := by decide +kernel

theorem witness_everything_due :
    (atTime 300001 almostDue).allDue.length = 17 ∧ (atTime 300001 almostDue).allDue.Nodup ∧ almostDue.allDue = [] ∧
    (atTime 500000 almostDue).allDue.length = 21 ∧ (atTime 500000 almostDue).allDue.Nodup := by decide +kernel

theorem witness_IsDue :
    IsDue (atTime 250 State.reset) .updateExpiry ∧ ¬ IsDue (atTime 249 State.reset) .updateExpiry ∧
    IsDue (atTime 300001 almostDue) (.filterExpiry 3) ∧ IsDue (atTime 300001 almostDue) .loadComplete ∧
    ¬ IsDue State.reset (.livenessExpiry .s) ∧ ¬ IsDue State.reset .indexRisingEdge :=
  ⟨by unfold IsDue; decide +kernel, by unfold IsDue; decide +kernel, ⟨300001, by decide +kernel, by decide +kernel⟩,
    ⟨{ op := .load 0, completes := 300001 }, by decide +kernel, ⟨0, rfl⟩, by decide +kernel⟩,
    fun h => absurd h.1 (by decide +kernel), fun h => h⟩

/-- A reset that ends with this rail. -/
def resetEnd (mv : Nat) : ResetEnd where
  railMv := mv
  encA := false
  encB := false
  pins := Vector.replicate 8 .undriven

theorem witness_PowerOnResetValues :
    alike (after (.powerOnReset (resetEnd 5000)) State.reset) State.reset = true ∧
    (after (.powerOnReset (resetEnd 4499)) almostDue).sq.supplyLow = true ∧
    (after (.powerOnReset (resetEnd 4600)) almostDue).sq.supplyLow = false ∧
    (after (.powerOnReset { resetEnd 5000 with encA := true, encB := true }) almostDue).cu.phase = .p2 := by decide +kernel

/-- An operation of the recipe store in flight, due at 1,000 us. -/
def flying (op : RsOp) (s : State) : State :=
  { s with rs := { s.rs with inFlight := some { op := op, completes := 1000 } } }

/-- The options that the store's tests write. -/
def options : OptionBlock := { protectedCount := 2, loss := .none, startUp := some 3 }

/-- The start-up load set to slot 3, with or without an image in it. -/
def starting (image : Bank) : State :=
  { State.reset with rs := { Rs.delivered with
      slots := Rs.delivered.slots.set 3 (RecipeSlot.written image)
      copy1 := { options := options, writeNumber := 2, checkAgrees := true } } }

theorem witness_PowerOnResetOfTheStore :
    writesFirst Rs.delivered.copy1 Rs.delivered.copy2 = true ∧
    (after (.powerOnReset (resetEnd 5000)) (flying (.options options) State.reset)).rs.copy1.checkAgrees = false ∧
    writesFirst (starting bank).rs.copy1 (starting bank).rs.copy2 = false ∧
    ((starting bank).rs.slots[3]).condition = .valid ∧ ((starting Bank.empty).rs.slots[3]).condition = .empty ∧
    secondIsGreater Rs.delivered.copy1 Rs.delivered.copy2 = true ∧
    secondIsGreater Rs.delivered.copy2 Rs.delivered.copy1 = false := by decide +kernel

/-- A slot cut short is CORRUPT after the reset. -/
theorem witness_a_torn_slot :
    ((after (.powerOnReset (resetEnd 5000)) (flying (.store 15 .b) State.reset)).rs.slots[15]).condition = .corrupt ∧
    ((after (.powerOnReset (resetEnd 5000)) (flying (.erase 0) State.reset)).rs.slots[0]).condition = .corrupt := by
  constructor
  · show ((Rs.delivered.slots.set 15 (RecipeSlot.torn 0)).map RecipeSlot.judge)[15].condition = _
    simp [(torn_disagrees 0).1]
  · show ((Rs.delivered.slots.set 0 (RecipeSlot.torn 0)).map RecipeSlot.judge)[0].condition = _
    simp [(torn_disagrees 0).1]

/-- The start-up load of a VALID slot begins, that of an EMPTY one fails. -/
theorem witness_start_up_load :
    (after (.powerOnReset (resetEnd 5000)) (starting bank)).rs.inFlight = some { op := .load 3, completes := 1000 } ∧
    (after (.powerOnReset (resetEnd 5000)) (starting Bank.empty)).rs.startUp = .autoloadFailed := by
  have hslot (b : Bank) : (((starting b).interruptOp.powerOnBlocks (resetEnd 5000)).rs.slots[(3 : SlotNo)]).condition =
      b.condition := by
    show (((Rs.delivered.slots.set 3 (RecipeSlot.written b)).map RecipeSlot.judge)[3]).condition = _
    simp [judge_written]
    rfl
  constructor
  · show ((starting bank).interruptOp.powerOnBlocks (resetEnd 5000)).startUpLoad.rs.inFlight = _
    rw [startUpLoad_valid _ 3 rfl (hslot bank)]; rfl
  · show ((starting Bank.empty).interruptOp.powerOnBlocks (resetEnd 5000)).startUpLoad.rs.startUp = _
    rw [startUpLoad_failed _ 3 rfl (by rw [hslot]; decide)]; rfl

/-- A warm reset pending, in FAULT. -/
def resetting : State :=
  let s := inState (.fault .standing)
  { s with
    cu := { s.cu with cellTime := 77, coord := 5 }
    sq := { s.sq with scanNumber := 9 }
    lp := { s.lp with pendingReset := true } }

theorem witness_WarmResetKeeps :
    resetting.lp.pendingReset = true ∧ resetting.lp.acks = [] ∧ resetting.lp.portS.tx = none ∧
    (after .warmReset resetting).sq.st = .idle ∧ (after .warmReset resetting).sq.scanNumber = 9 ∧
    (after .warmReset resetting).cu.cellTime = 77 ∧ (after .warmReset resetting).cu.coord = 0 ∧
    alike (after .warmReset State.reset) State.reset = true := by decide +kernel

/-! ## The scan coordinate -/

/-- Ready for R8's example: K 327,680, C a quarter of 2^32, FASTER, at 100,000 um. -/
def trimmed : State :=
  { State.reset with cu := { State.reset.cu with scaleK := 327680, trimC := 1073741824, coord := 100000 * 65536 } }

/-- Four edges forward. -/
def fourEdges (s : State) : State :=
  after (.encoderTransition false false) (after (.encoderTransition false true) (after (.encoderTransition true true)
    (after (.encoderTransition true false) s)))

theorem test_trim_example :
    (after (.encoderTransition true false) trimmed).cu.coord = 100005 * 65536 ∧
    (fourEdges trimmed).cu.coord = 100020 * 65536 + 320 ∧ (fourEdges trimmed).cu.trimAcc = 0 ∧
    (fourEdges (fourEdges trimmed)).cu.coord = 100040 * 65536 + 640 := by decide +kernel

theorem witness_LegalTransitionTakesTheEdge :
    EncPhase.ofLevels false false = State.reset.cu.phase ∧ alike (after (.encoderTransition false false) trimmed) trimmed = true ∧
    EncPhase.ofLevels true false = State.reset.cu.phase.next ∧
    State.reset.cu.phase = (EncPhase.ofLevels false true).next ∧
    CountedBoundary State.reset.cu.edgeMode .p0 .p1 ∧ ¬ CountedBoundary .x1 .p0 .p3 ∧ ¬ CountedBoundary .x2 .p1 .p2 ∧
    CountedBoundary .x2 .p2 .p3 ∧ (after (.encoderTransition false true) State.reset).cu.coord = -65536 ∧
    State.reset.stk.track = [] ∧ State.reset.stk.heating = false ∧ State.reset.sq.st = .idle := by
  unfold CountedBoundary; decide +kernel

theorem witness_IllegalTransitionAndIndexEdge :
    EncPhase.ofLevels true true ≠ State.reset.cu.phase ∧ EncPhase.ofLevels true true ≠ State.reset.cu.phase.next ∧
    State.reset.cu.phase ≠ (EncPhase.ofLevels true true).next ∧ State.reset.sq.st.isMotion = false ∧
    (inState .seek).sq.st.isMotion = true ∧
    (after (.encoderTransition true true) (inState .seek)).sq.st = .fault .flood ∧
    (after (.encoderTransition true true) (inState .armed)).sq.st = .armed := by decide +kernel

/-- Nine stamps 500 us apart, 5 um each: the example of R11 and R12, read ts after the newest. -/
def steadyRing (ts : Nat) : Cu :=
  { State.reset.cu with
    cellTime := 4000 + ts, scaleK := 327680
    ring := (List.range 9).map (fun k => { time := 4000 - 500 * k, coord := (((8 - k) * 327680 : Nat) : Int) }) }

theorem test_speed_example :
    (steadyRing 400).speed = 10000 ∧ (steadyRing 600).speed = 8333 ∧ (steadyRing 2000).speed = 2500 ∧
    (steadyRing 50000).speed = 100 ∧ (steadyRing 99999).speed = 50 ∧ (steadyRing 100000).speed = 0 ∧
    { steadyRing 400 with direction := .minus }.speed = -10000 ∧
    { steadyRing 600 with direction := .minus }.speed = -8333 := by decide +kernel

theorem witness_SpeedEstimateFromTheRing :
    State.reset.cu.ring.length < 2 ∧
    (∃ a b rest, (steadyRing 500).ring = a :: b :: rest ∧ (steadyRing 500).cellTime - a.time ≤ a.time - b.time) ∧
    (∃ a b rest, (steadyRing 501).ring = a :: b :: rest ∧ a.time - b.time < (steadyRing 501).cellTime - a.time) ∧
    (steadyRing 501).speed = 9980 := by
  refine ⟨by decide +kernel, ⟨_, _, _, rfl, by decide +kernel⟩, ⟨_, _, _, rfl, by decide +kernel⟩, by decide +kernel⟩

/-- An IN line whose pin has gone high and whose filter has run, with a function and capture ON or OFF. -/
def risen (fn : InputFn) (capture : Bool) : Line where
  pullUp := false
  role := .input .rise 20 10000 fn capture
  latch := false
  drive := .high
  filtered := false
  filterTimer := some 4400

/-- A state with a line. -/
def withLine (k : LineNo) (n : Line) (s : State) : State :=
  { s with lu := { s.lu with lines := s.lu.lines.set k n } }

/-- A carriage at 10,000 um/s in a state. -/
def moving (st : SeqState) : State := { inState st with cu := { steadyRing 400 with coord := 40 * 65536 } }

/-- A mark with its target at the frontier. -/
def marked : State :=
  let m := { Mark.resetValue with enable := true, target := 500, stamp := true }
  { inState .heating with
    cu := { State.reset.cu with frontier := 500 }
    lu := { State.reset.lu with marks := State.reset.lu.marks.set 0 m } }

theorem witness_EdgesAreCompensatedForLatency :
    ((withLine 7 (risen .general true) (moving .armed)).lu.lines[(7 : LineNo)]).role =
      .input .rise 20 10000 .general true ∧
    (after (.filterExpiry 7) (withLine 7 (risen .general true) (moving .armed))).cu.captures =
      [{ source := .line 7, edge := some .rise, time := 4400, coord := 40 - 100 }] ∧
    { steadyRing 400 with coord := 0, direction := .minus }.compensated 10000 = 0 ∧
    (marked.markAdvance 499 0).cu.captures =
      [{ source := .mark 0, edge := none, time := 0, coord := 0 }] := by decide +kernel

/-! ## Set-points -/

theorem witness_ZoneOfAScanDistance :
    validate 65536 bank = none ∧ findZone bank.zoneList (-1) = none ∧ findZone bank.zoneList 0 = some 0 ∧
    findZone bank.zoneList 1999 = some 0 ∧ findZone bank.zoneList 2000 = some 1 ∧
    findZone bank.zoneList 11999 = some 5 ∧ findZone bank.zoneList 12000 = some 6 ∧ zonesEnd bank.zoneList = 12000 := by
  decide +kernel

/-- A WRITE_ZONE of recipe 4,117: position, kind, start, E, zone speed, mask and flow, helix pitch. -/
def recipeZone (pos k start e v : Nat) (mask : SectorMask) (flow helix : Nat) : ZoneWrite :=
  { zoneWrite pos k start with
    energy := some e, zoneSpeed := some v, mask := mask, flow := flow, helix := some helix }

/-- The zones of recipe 4,117 up to position 4, the GAP, and an END. -/
def recipeZones : Vector (Option ZoneEntry) 64 :=
  let e (k start energy v : Nat) (mask : SectorMask) (flow helix : Nat) : Option ZoneEntry :=
    (carriedZone (recipeZone 0 k start energy v mask flow helix)).getD none
  ((((((Bank.empty.zones.set 0 (e 3 0 22000 0 0xFF 100 2500)).set 1 (e 1 8000 22000 10000 0xFF 100 2500)).set 2
    (e 1 60000 18000 12000 0x3F 95 3000)).set 3 (e 2 120000 18000 12000 0x3F 95 3000)).set 4
    (e 1 140000 26000 9500 0xFF 100 3000)).set 5 (e 4 420000 0 20000 0 0 5000)).set 6 (e 5 470000 16000 0 0xFF 100 0)

/-- Recipe 4,117 with those zones. -/
def recipe : Bank :=
  { header := some { header with offsetD := 12000, runIn := 10000 }, zones := recipeZones }

/-- Two stamps, a distance in um and a time in us apart, and the instant of the newest. -/
def twoStamps (um time : Nat) : Cu :=
  { State.reset.cu with
    cellTime := time
    ring := [{ time := time, coord := ((um * 65536 : Nat) : Int) }, { time := 0, coord := 0 }] }

/-- HEATING on recipe 4,117 at a frontier, at a speed of um in time, with an update due. -/
def onRecipe (frontier : Int) (um time : Nat) : State :=
  let s := inState .heating
  { s with
    cu := { twoStamps um time with frontier := frontier }
    zt := { bankA := recipe, bankB := Bank.empty, active := .a }
    pe := { s.pe with nextUpdate := time, latch := true } }

theorem test_rising_ramp :
    let p := (after .updateExpiry (onRecipe 125210 47 5000)).pe
    validate 65536 recipe = none ∧ (onRecipe 125210 47 5000).cu.speed = 9400 ∧ p.power = 188855 ∧ p.enable = true ∧
    p.powerLimited = false ∧ p.speed = 11945 ∧ p.spindle = 239 ∧ p.heatingZone = some 3 ∧ p.quenchZone = some 2 ∧
    p.flow = 570 := by decide +kernel

theorem test_overshoot :
    let p := (after .updateExpiry (onRecipe 140000 931 100000)).pe
    p.power = 240000 ∧ p.powerLimited = true ∧ p.speed = 9230 ∧ p.heatingZone = some 4 := by decide +kernel

theorem test_falling_ramp :
    let zones : List ZoneEntry := ((carriedZone (recipeZone 7 2 900000 24000 9500 0xFF 100 3000)).getD none).toList ++
      ((carriedZone (recipeZone 8 5 960000 16000 0 0xFF 100 0)).getD none).toList
    energyAt zones 0 917350 = 21687 := by decide +kernel

theorem witness_EnergyByZoneKind :
    (recipe.zoneList[4]?.map (·.kind)) = some .heat ∧ energyAt recipe.zoneList 4 140000 = 26000 ∧
    (recipe.zoneList[0]?.map (·.kind)) = some .dwell ∧ energyAt recipe.zoneList 0 0 = 22000 ∧
    (recipe.zoneList[5]?.map (·.kind)) = some .gap ∧ energyAt recipe.zoneList 5 420000 = 0 ∧
    (recipe.zoneList[6]?.map (·.kind)) = some .finish ∧ energyAt recipe.zoneList 6 470000 = 0 ∧
    (recipe.zoneList[3]?.map (·.kind)) = some .ramp ∧ energyAt recipe.zoneList 3 120000 = 18000 ∧
    energyAt recipe.zoneList 3 139999 = 25999 := by decide +kernel

theorem witness_UpdateInHeating :
    (inState .heating).sq.st = .heating ∧ (inState .heating).zt.activeBank.header = some header ∧
    (atTime 250 (inState .heating)).pe.nextUpdate = 250 ∧
    (after .updateExpiry (atTime 250 (inState .heating))).pe.nextUpdate = 500 ∧
    (onRecipe 140000 931 100000).stk = Stk.resetValue ∧
    (after .updateExpiry (atTime 250 (inState .heating))).pe.power = 0 := by decide +kernel

/-- A state at an instant at which its update is due. -/
def updating (st : SeqState) : State := atTime 250 (inState st)

theorem witness_UpdateOutsideHeating :
    let s := { updating (.dwell .timing) with sq := { (updating (.dwell .timing)).sq with dwellZone := some 3 } }
    s.sq.st.isHeat = true ∧ (bank.zoneList[3]?.map (·.kind)) = some .dwell ∧ (after .updateExpiry s).pe.power = 180000 ∧
    (updating (.approach .wait)).lp.power.map (·.state) ≠ some .ready ∧
    (after .updateExpiry (updating (.approach .wait))).pe.spindle = 150 ∧
    (after .updateExpiry (updating (.approach .travel))).pe.speed = 8000 ∧
    (after .updateExpiry (updating .idle)).pe.heatingZone = none ∧
    (after .updateExpiry (updating .held)).pe.spindle = 150 ∧
    (after .updateExpiry (updating (.runout .travel))).pe.speed = 20000 := by decide +kernel

theorem witness_update_without_a_recipe :
    let s := { updating .idle with zt := { bankA := Bank.empty, bankB := bank, active := .a } }
    s.zt.activeBank.header = none ∧ s.pe.nextUpdate = s.cu.cellTime ∧
    (after .updateExpiry s).pe.nextUpdate = 500 ∧ (after .updateExpiry s).pe.stop = true ∧
    (after .updateExpiry { s with pe := { s.pe with latch := true } }).pe.latch = false ∧
    (after .updateExpiry s).lp.portM.tx.isSome = true := by decide +kernel

/-- A spraying state with the quench look-ahead point x_q at a scan distance, the carriage at rest. -/
def spraying (xq : Int) (latch : Bool) : State :=
  let s := updating (.runout .travel)
  { s with cu := { s.cu with frontier := xq + 5000 }, pe := { s.pe with latch := latch } }

theorem witness_QuenchSetPoints :
    (after .updateExpiry (spraying (-3001) false)).pe.latch = false ∧
    (after .updateExpiry (spraying (-3000) false)).pe.quenchZone = some 0 ∧
    (after .updateExpiry (spraying (-3001) true)).pe.quenchZone = some 6 ∧
    (after .updateExpiry (spraying (-1) true)).pe.quenchZone = some 0 ∧
    (after .updateExpiry (spraying 0 true)).pe.quenchZone = some 0 ∧
    (after .updateExpiry (spraying 12000 true)).pe.flow = 800 ∧
    (after .updateExpiry (updating (.fault .flood))).pe.flow = 900 ∧
    (after .updateExpiry (updating .done)).pe.mask = 0 ∧
    (after .updateExpiry { updating .done with
      lp := { (updating .done).lp with control := { Control.clear with keepOn := true } } }).pe.mask = 0xFF := by
  decide +kernel

theorem witness_SetPointsStayWithinTheRecipe :
    validate 65536 bank = none ∧ (updating .heating).zt.activeBank = bank ∧ bank.header = some header ∧
    (updating .heating).sq.dwellZone = none ∧ (bank.zoneList[3]?.map (·.kind)) = some .dwell ∧
    (after .updateExpiry (updating .heating)).pe.speed = 10000 := by decide +kernel

/-! ## Control words, RUN and resume -/

/-- A slice on the track. -/
def slice (index : Nat) (closed : Option Nat) : SliceRecord where
  index := index
  kind := .heated
  zone := 0
  energy := 21000000
  target := closed.map (fun _ => 22000000)
  closeTime := closed
  flags := SliceFlags.empty

/-- A scan in progress in a state, with this track. -/
def scanning (st : SeqState) (track : List SliceRecord) : State :=
  let s := inState st
  { s with
    cu := { s.cu with frontier := 1500 }
    stk := { s.stk with
      track := track, heating := st.isHeat, highWater := track.getLast?.map (·.index)
      summary := some (Summary.opening 1 4117) } }

theorem witness_HoldRequestByState :
    let hold (s : State) : State := after (.holdRequest .s 0 .s { clearWord with holdS := true }) s
    let w := { clearWord with holdS := true }
    let s := scanning .heating [slice 0 (some 5), slice 1 none]
    Port.s.mayHold .s = true ∧ Taken s ∧ KeepsOtherFields .s .s w s.lp.control ∧ NoEvent .s w ∧
    s.lp.control.hold .s = false ∧ Port.p.mayHold .p = true ∧ KeepsOtherFields .p .p w s.lp.control ∧
    (hold s).sq.st = .quenchout .travel ∧ (hold s).stk.seam = some 1 ∧ (hold s).pe.power = 0 ∧
    ((hold s).stk.track.map (·.flags.holdBreak)) = [false, true] ∧
    (hold (scanning (.dwell .settling) [])).sq.st = .quenchout .postQuench ∧
    (hold (scanning .seek [])).sq.heldFrom = some .seek ∧
    (hold (scanning (.approach .wait) [])).sq.heldFrom = some .approach ∧
    (hold (scanning .held [])).sq.st = .held ∧ (hold (inState .idle)).sq.st = .idle := by
  unfold KeepsOtherFields KeepsFields NoEvent Taken; decide +kernel

theorem witness_change_is_sent :
    let t := after (.holdRequest .p 0 .p clearWord) (scanning .seek [])
    let s := scanning .seek []
    let u := after (.holdRequest .p 0 .p clearWord)
      { s with lp := { s.lp with portP := { onlinePort with notices := List.replicate 4 (noticeOf s) } } }
    t.sq.st = .held ∧ [t.lp.portS, t.lp.portP, t.lp.portM, t.lp.portQ].map (·.tx.isSome) = [true, true, true, true] ∧
    t.lp.portM.setDue = true ∧ t.lp.portS.setDue = false ∧ u.lp.portP.notices.length = 3 ∧
    (placedIn (List.replicate 4 (noticeOf s)) (noticeOf t)).length = 4 := by decide +kernel

theorem witness_ControlFieldsAreKept :
    Taken (inState .armed) ∧ NoEvent .s clearWord ∧
    KeepsOtherFields .s .q clearWord (inState .armed).lp.control ∧
    KeepsFields .s { { clearWord with keepOn := true } with keepOn := false } (inState .armed).lp.control ∧
    Port.s.mayKeepOn = true ∧ Port.q.mayKeepOn = true ∧ Port.p.mayKeepOn = false ∧
    (after (.quenchKeepOn .q 0 true clearWord) (inState .done)).lp.control.keepOn = true ∧
    (after (.holdFieldCleared .m 0 .m clearWord) { inState .held with
      lp := { Lp.resetValue with control := { Control.clear with holdM := true } } }).lp.control = Control.clear := by
  unfold KeepsOtherFields KeepsFields NoEvent Taken; decide +kernel

theorem witness_AbortBringsTheFault :
    let abort (s : State) : State := after (.abort .m 0 { clearWord with abort := true }) s
    KeepsFields .m clearWord Control.clear ∧ KeepsFields .s clearWord Control.clear ∧ Taken (inState .seek) ∧
    alike (abort (inState .idle)) ((inState .idle).arrive .m) = true ∧ (abort (inState .armed)).sq.st = .fault .standing ∧
    (abort (scanning .heating [slice 0 none])).sq.st = .fault .flood ∧
    (abort (inState (.fault .standing))).sq.secondaryCount = 1 := by
  unfold KeepsFields Taken; decide +kernel

/-- FAULT, standing, with its record. -/
def faulted : State :=
  let s := inState (.fault .standing)
  { s with sq := { s.sq with
      faultRecord := some { code := .aborted, source := .port .s, coord := 0, time := 0, state := .armed }
      secondaryCount := 255 } }

theorem witness_FaultClearJudged :
    let clear (s : State) : State := after (.faultClear 0 clearWord) s
    let lost := { faulted with lp := { faulted.lp with portQ := { onlinePort with link := .lost } } }
    Taken faulted ∧ KeepsFields .s clearWord faulted.lp.control ∧ firstOf (clearTable faulted) = none ∧
    firstOf (clearTable lost) = some .linkQ ∧ (clear faulted).sq.st = .idle ∧ (clear faulted).sq.secondaryCount = 0 ∧
    (clear lost).sq.st = .fault .standing ∧ (clear (inState .armed)).sq.st = .armed ∧
    (clear (inState (.fault .flood))).sq.st = .fault .flood := by
  unfold KeepsFields Taken; decide +kernel

/-- The status of the answer that the S-port begins. -/
def answered (s : State) : Option Status :=
  match s.lp.portS.tx with
  | some ⟨.ack a, _⟩ => some a.answer.status
  | _ => none

/-- The answer data that the S-port begins to send. -/
def answerData (s : State) : List Byte :=
  match s.lp.portS.tx with
  | some ⟨.ack a, _⟩ => a.answer.data
  | _ => []

/-- Closed, and not read. -/
def unread : Summary := { Summary.opening 1 4117 with status := .complete }

/-- ARMED with a summary that was left closed and unread. -/
def withUnread : State := { inState .armed with stk := { Stk.resetValue with summary := some unread } }

/-- HELD after a hold in HEATING. -/
def heldInHeating (power : Option KeptPower) (rpm : Option Nat) : State :=
  let s := scanning .held []
  { s with
    cu := { s.cu with frontier := 1500, coord := 6000 * 65536, origin := 4500 }
    pe := { s.pe with spindle := 150 }
    sq := { s.sq with heldFrom := some (.heating 1400), nextDwell := some 3 }
    stk := { s.stk with heating := false, highWater := some 1, seam := some 1 }
    lu := { s.lu with rpm := rpm }
    lp := { s.lp with power := power } }

/-- A kept report of a ready inverter. -/
def readyPower : KeptPower := { power := 0, interval := 1000, state := .ready, time := 0 }

theorem witness_RunIsRefused :
    let run (s : State) : List Byte := answerData (after (.run 0 clearWord) s)
    let low := { inState .armed with sq := { (inState .armed).sq with supplyLow := true } }
    let onHold := { inState .armed with lp := { (inState .armed).lp with control := { Control.clear with holdQ := true } } }
    Taken (inState .armed) ∧ KeepsFields .s clearWord (inState .armed).lp.control ∧
    firstOf (startTable header (inState .armed)) = none ∧ firstOf (startTable header low) = some .supply ∧
    run (inState .idle) ≠ run (inState .armed) ∧ run (inState .seek) ≠ run (inState .idle) ∧
    run withUnread ≠ run (inState .seek) ∧ run onHold ≠ run withUnread ∧ run low ≠ run onHold ∧
    onHold.lp.control.anyHold = true ∧
    (heldInHeating none (some 135)).sq.heldFrom = some (.heating 1400) ∧
    firstOf (startTable header (heldInHeating none (some 135))) = none ∧
    run (heldInHeating none (some 134)) ≠ run (heldInHeating none (some 135)) ∧
    run (heldInHeating none (some 135)) ≠ run (heldInHeating (some readyPower) (some 135)) := by
  unfold KeepsFields Taken; decide +kernel

theorem witness_whole_control_word :
    let both := { clearWord with holdS := true, holdM := true, abort := true }
    let clearAndRun := { clearWord with faultClear := true, run := true }
    let t := after (.abort .s 0 both) (scanning .heating [slice 0 none])
    let u := after (.holdRequest .m 0 .m { both with keepOn := true }) (inState .armed)
    carriedWord (.run 7 clearWord) = some (.s, 7, { clearWord with run := true }) ∧ t.sq.st = .fault .flood ∧
    t.lp.control.holdS = true ∧ t.lp.control.holdM = true ∧ t.sq.heldFrom = none ∧ u.sq.st = .fault .standing ∧
    u.lp.control = { Control.clear with holdM := true } ∧
    (after (.run 0 clearAndRun) faulted).sq.st = .idle ∧
    ((after (.run 0 clearAndRun) faulted).lp.acks.map (·.answer.data)) = [[0, 0, 0xFF, 0xFF, 10, 0xFF, 0xFF]] ∧
    answerData (after (.faultClear 0 clearAndRun) (inState .idle)) = [0, 0xFF, 0xFF, 0xFF, 10, 0xFF, 0xFF] := by
  decide +kernel

/-- ARMED at a scan distance x, with datum mode PROBE or NONE. -/
def armedAt (x : Int) (mode : Nat) : State :=
  let s := inState .armed
  { s with
    cu := { s.cu with coord := (x + 4500) * 65536, origin := 4500 }
    zt := { s.zt with bankA := { bank with header := some { header with datumModeCode := mode } } } }

theorem witness_RunStartsAScan :
    let run (s : State) : State := after (.run 0 clearWord) s
    Taken (armedAt (-4000) 1) ∧ KeepsFields .s clearWord (armedAt (-4000) 1).lp.control ∧ WithinLimits (armedAt 0 1).cu ∧
    (run (armedAt (-4000) 1)).sq.st = .seek ∧ (run (armedAt (-4000) 1)).sq.seekStart = some (-4000) ∧
    (run (armedAt (-4000) 1)).sq.scanNumber = 1 ∧ (run (armedAt (-1001) 0)).sq.st = .approach .travel ∧
    (run (armedAt (-1000) 0)).sq.st = .approach .wait ∧ (run (armedAt (-999) 0)).sq.st = .fault .flood ∧
    ((run (armedAt (-999) 0)).sq.faultRecord.map (·.code)) = some .overtravel := by
  unfold KeepsFields Taken WithinLimits; decide +kernel

/-- HELD after a hold in SEEK or APPROACH. -/
def heldBefore (r : HeldFrom) : State :=
  let s := scanning .held []
  { s with cu := { s.cu with frontier := -1001 }, sq := { s.sq with heldFrom := some r } }

theorem witness_ResumeEntersTheStateHeldFrom :
    let run (s : State) : State := after (.run 0 clearWord) s
    let s := heldInHeating (some readyPower) (some 135)
    Taken s ∧ s.sq.st = .held ∧ firstOf (startTable header s) = none ∧ WithinLimits s.cu ∧
    (HeldFrom.heating 1400).brk ≠ none ∧ SpindleReady s.lu s.pe.spindle ∧ s.lp.power.map (·.state) = some .ready ∧
    s.cu.frontier - s.cu.x = 0 ∧ s.cu.frontier < zonesEnd s.zt.activeBank.zoneList ∧
    s.cu.frontier < s.zoneStart 3 ∧ (run s).sq.st = .heating ∧ (run s).sq.heldFrom = none ∧
    (run (heldBefore .seek)).sq.st = .seek ∧ (run (heldBefore .approach)).sq.st = .approach .travel := by
  refine ⟨?_, ?_, ?_, ?_, ?_, ⟨135, ?_⟩, ?_⟩ <;> (try unfold Taken) <;> (try unfold WithinLimits) <;> decide +kernel

/-! ## The slice track and the shaft's results -/

/-- Recipe 4,117 in HEATING one micrometre short of 126,000, with slices 113 to 125 on the track: the spec's example of
a slice boundary on the ramp. -/
def atBoundary : State :=
  let s := onRecipe 125999 47 5000
  let closed (k : Nat) : SliceRecord := { slice k (some 1000) with target := some 21000000 }
  { s with
    cu := { s.cu with coord := 125999 * 65536 }
    stk := { s.stk with
      track := (List.range 12).map (fun k => closed (113 + k)) ++ [{ slice 125 none with energy := 2134560, zone := 3 }]
      heating := true
      highWater := some 125
      summary := some (Summary.opening 1 4117) } }

theorem witness_HeatingAdvanceMovesTheTrack :
    let c := edgeTaken true .p1 atBoundary.cu
    let k := trackRecipe recipe
    let q : QuenchCondition := { pressureLow := false, quenchantOut := false }
    let passed := passedStk k q c.frontier 5000 atBoundary.stk
    let t := after (.encoderTransition true false) atBoundary
    atBoundary.cu.frontier < c.frontier ∧ c.frontier = 126000 ∧ WithinLimits c ∧ atBoundary.sq.nextDwell = none ∧
    c.coord = atBoundary.cu.coord + stepMagnitude atBoundary.cu ∧ c.frontier < zonesEnd recipe.zoneList ∧
    (∀ r ∈ atBoundary.stk.track.dropLast, r.closeTime ≠ none) ∧ opensAt k c.frontier passed = true ∧
    opensAt k 125999 atBoundary.stk = false ∧ t.stk = openedStk k c.frontier passed ∧
    (passed.track.map (·.index)) = [114, 115, 116, 117, 118, 119, 120, 121, 122, 123, 124, 125] ∧
    (t.stk.track.map (·.index)) = [114, 115, 116, 117, 118, 119, 120, 121, 122, 123, 124, 125, 126] ∧
    (t.stk.track[11]?.bind (·.target)) = some 20200000 ∧ t.stk.highWater = some 126 ∧
    (t.stk.summary.map (·.total)) = some 1 := by
  unfold WithinLimits; decide +kernel

/-- The example's slice 125 as it departs: target 20,200,000 mJ, energy 20,187,310 mJ, closed at 106,380 us. -/
def slice125 : SliceRecord := { slice 125 (some 106380) with zone := 3, energy := 20187310, target := some 20200000 }

theorem test_verdict_example :
    let k := trackRecipe recipe
    judgedInterval slice125 1382980 false = some 1276 ∧ energyRatio slice125 = some 999 ∧
    (reasonsOf k slice125 (some 1276) false).any = false ∧
    (reasonsOf k { slice125 with energy := 20200000 - 606000 } none false).any = false ∧
    (reasonsOf k { slice125 with energy := 20200000 - 606001 } none false).underEnergy = true ∧
    (reasonsOf k { slice125 with energy := 20200000 + 606001 } none false).overEnergy = true := by decide +kernel

theorem witness_SliceVerdicts :
    let k := trackRecipe recipe
    slice125.kind = .heated ∧ (k.zones[3]?.bind (·.windowMin)) = some 600 ∧ (k.zones[3]?.bind (·.windowMax)) = some 2500 ∧
    (reasonsOf k slice125 (some 600) false).earlyQuench = false ∧
    (reasonsOf k slice125 (some 599) false).earlyQuench = true ∧
    (reasonsOf k slice125 (some 2500) false).lateQuench = false ∧
    (reasonsOf k slice125 (some 2501) false).lateQuench = true ∧
    (reasonsOf k { slice125 with target := some 0, energy := 0 } none false).any = false ∧
    (reasonsOf k { slice125 with target := some 0, energy := 1 } none false).overEnergy = true ∧
    (reasonsOf k { slice125 with kind := .gap, target := none } none false).any = false ∧
    judgedInterval slice125 1382980 true = none := by decide +kernel

/-- A tracker with n exceptions held and an open summary. -/
def withExceptions (n : Nat) : Stk :=
  let e : ExceptionRecord :=
    { index := 0, zone := 0, reasons := reasonsOf (trackRecipe recipe) slice125 none true, energy := 0, target := none,
      interval := none, closeTime := 0 }
  { Stk.resetValue with
    exceptions := List.replicate n e, summary := some { Summary.opening 1 4117 with total := 2 ^ 32 - 1 } }

theorem witness_DepartureIsCounted :
    let dry : QuenchCondition := { pressureLow := false, quenchantOut := false }
    let low : QuenchCondition := { pressureLow := true, quenchantOut := false }
    let u (n : Nat) (q : QuenchCondition) : Stk := (withExceptions n).depart (trackRecipe recipe) q 1382980 false slice125
    ((withExceptions 0).summary.map (·.status)) = some .opened ∧
    ((u 0 dry).summary.map (fun v => (v.total, v.conforming, v.ratio, v.interval))) =
      some (2 ^ 32 - 1, 1, some (999, 999), some (1276, 1276)) ∧
    (u 31 low).exceptions.length = 32 ∧ ((u 31 low).summary.map (·.detailIncomplete)) = some false ∧
    (u 32 low).exceptions.length = 32 ∧ ((u 32 low).summary.map (·.detailIncomplete)) = some true ∧
    ((u 32 low).summary.map (·.counts.quenchLow)) = some 1 ∧
    ((u 32 low).summary.bind (·.firstNonconforming)) = some 125 := by decide +kernel

/-! ## Edges: limits, marks and arrivals -/

/-- A forward edge of one micrometre. -/
def edge (s : State) : State := after (.encoderTransition true false) s

/-- A backward edge of one micrometre. -/
def backEdge (s : State) : State := after (.encoderTransition false true) s

/-- A state of a scan with the carriage at its frontier, inverter and spindle ready. -/
def near (st : SeqState) (f : Int) (track : List SliceRecord) : State :=
  let s := scanning st track
  { s with
    cu := { s.cu with coord := f * 65536, frontier := f }
    pe := { s.pe with spindle := 150 }
    sq := { s.sq with seekStart := some 0, nextDwell := some 3 }
    stk := { s.stk with heating := st.isHeat }
    lu := { s.lu with rpm := some 400 }
    lp := { s.lp with power := some readyPower } }

/-- The code of the fault record. -/
def faultOf (s : State) : Option FaultCode := s.sq.faultRecord.map (·.code)

theorem witness_limits_at_an_edge :
    let tight (st : SeqState) : State := let s := near st 40 []; { s with cu := { s.cu with upper := 40 } }
    let backed (x : Int) : State := let s := near .heating 1000 []; { s with cu := { s.cu with coord := x * 65536 } }
    faultOf (edge (tight .seek)) = some .overtravel ∧ (edge (tight .armed)).sq.st = .armed ∧
    faultOf (edge (near .seek 2000000 [])) = some .overtravel ∧
    faultOf (backEdge (backed 500)) = some .reversal ∧ (backEdge (backed 501)).sq.st = .heating ∧
    (backEdge (backed 501)).cu.frontier = 1000 ∧ (edge (near .held 4999 [])).sq.nextDwell = none ∧
    (edge (near .held 4998 [])).sq.nextDwell = some 3 := by decide +kernel

theorem witness_arrivals_of_the_approach :
    let cold (s : State) : State := { s with lp := { s.lp with power := none } }
    faultOf (edge (near .seek 8000 [])) = some .datum ∧ (edge (near .seek 7999 [])).sq.st = .seek ∧
    (edge (near (.approach .travel) (-1002) [])).sq.st = .approach .travel ∧
    (edge (near (.approach .travel) (-1001) [])).sq.st = .heating ∧
    (edge (cold (near (.approach .travel) (-1001) []))).sq.st = .approach .wait ∧
    (edge (cold (near (.approach .travel) (-1001) []))).sq.approachWait = some 2000000 ∧
    faultOf (edge (near (.approach .travel) (-1) [])) = some .drive ∧
    faultOf (edge (near (.approach .wait) (-1) [])) = some .drive ∧
    (edge (near (.approach .wait) (-2) [])).sq.st = .approach .wait ∧
    (edge (near (.runout .postQuench) 20000 [])).sq.st = .runout .postQuench ∧
    (edge (near (.quenchout .postQuench) 4999 [])).sq.nextDwell = none := by decide +kernel

/-- A mark that an edge to 1,000 reaches, in a state. -/
def marking (st : SeqState) (m : Mark) : State :=
  let s := near st 999 []
  { s with lu := { s.lu with marks := s.lu.marks.set 2 m } }

theorem witness_marks_fire :
    let m : Mark := { Mark.resetValue with enable := true, target := 1000, stamp := true, width := 3 }
    let fired (st : SeqState) (v : Mark) : Mark := (edge (marking st v)).lu.marks[2]
    let far : State := let s := marking .seek { m with target := 3999950, mode := .repeating 100 }
      { s with cu := { s.cu with frontier := 3999949, origin := -3999000 } }
    Fires 999 1000 m = true ∧ Fires 1000 1001 m = false ∧
    fired .seek m = { m with enable := false, pulse := some 3000 } ∧ fired .armed m = m ∧
    fired .seek { m with mode := .repeating 100 } =
      { m with mode := .repeating 100, target := 1100, pulse := some 3000 } ∧
    ((edge (marking .seek m)).cu.captures.map (·.source)) = [.mark 2] ∧ far.cu.x = 3999999 ∧
    ((edge far).lu.marks[2]).enable = false ∧ ((edge far).lu.marks[2]).target = 3999950 := by decide +kernel

theorem witness_advances_of_a_scan :
    let open1 := slice 4 none
    faultOf (edge (near .heating 4999 [open1])) = none ∧ (edge (near .heating 4999 [open1])).sq.st = .dwell .timing ∧
    (edge (near .heating 4999 [open1])).sq.dwellZone = some 3 ∧
    (edge (near .heating 4999 [open1])).stk.dwellAccount = some (5, 180000 * 35) ∧
    (edge (near .heating 4998 [open1])).sq.st = .heating ∧
    (let s := near .heating 11999 []; edge { s with sq := { s.sq with nextDwell := none } }).sq.st = .runout .travel ∧
    (let s := near (.dwell .timing) 6999 []; faultOf (edge { s with sq := { s.sq with dwellZone := some 3 } })) =
      some .drive ∧
    (edge (near (.runout .travel) 16999 [])).sq.st = .runout .postQuench ∧
    (edge (near (.runout .travel) 16998 [])).sq.st = .runout .travel ∧
    (edge (near (.runout .travel) 16999 [slice 11 (some 0)])).sq.st = .runout .postQuench ∧
    faultOf (edge (near (.runout .travel) 66999 [slice 90 (some 0)])) = some .overtravel ∧
    (edge (near (.runout .travel) 66998 [slice 90 (some 0)])).sq.st = .runout .travel ∧
    (edge (near (.quenchout .travel) 5999 [slice 0 (some 0)])).sq.st = .quenchout .postQuench ∧
    (edge (near (.quenchout .travel) 5998 [slice 0 (some 0)])).sq.st = .quenchout .travel ∧
    faultOf (edge (near (.quenchout .travel) 54999 [slice 90 (some 0)])) = some .overtravel := by decide +kernel

theorem witness_entries_at_run :
    let run (s : State) : State := after (.run 0 clearWord) s
    let tight (x : Int) (mode : Nat) (upper : Int) : State :=
      let s := armedAt x mode
      { s with cu := { s.cu with upper := upper } }
    let ready (s : State) : State :=
      { s with lu := { s.lu with rpm := some 400 }, lp := { s.lp with power := some readyPower } }
    ¬ WithinLimits (tight (-4000) 1 499).cu ∧ faultOf (run (tight (-4000) 1 499)) = some .overtravel ∧
    (run (tight (-4000) 1 500)).sq.st = .seek ∧ faultOf (run (tight (-4000) 0 499)) = some .overtravel ∧
    (run (tight (-4000) 0 500)).sq.st = .approach .travel ∧ (run (ready (armedAt (-1000) 0))).sq.st = .heating ∧
    (run (ready (armedAt (-1001) 0))).sq.st = .approach .travel ∧
    (run (ready (armedAt (-1000) 0))).lp.portQ.notices.length = 1 := by
  unfold WithinLimits; decide +kernel

/-- HELD after a hold in HEATING at a frontier, the carriage behind it. -/
def heldAt (frontier behind : Int) : State :=
  let s := heldInHeating (some readyPower) (some 135)
  { s with cu := { s.cu with frontier := frontier, coord := (frontier - behind + 4500) * 65536 } }

theorem witness_entries_at_resume :
    let run (s : State) : State := after (.run 0 clearWord) s
    let approach (x : Int) : State :=
      let s := heldInHeating (some readyPower) (some 135)
      { s with
        cu := { s.cu with frontier := x, coord := (x + 4500) * 65536 }
        sq := { s.sq with heldFrom := some .approach } }
    let far : State := let s := heldAt 5500 0; { s with cu := { s.cu with upper := 9999 } }
    (run (approach (-1001))).sq.st = .approach .travel ∧ (run (approach (-1000))).sq.st = .heating ∧
    (run (approach (-1))).sq.st = .heating ∧ faultOf (run (approach 0)) = some .drive ∧
    (run (heldAt 4999 500)).sq.st = .heating ∧ faultOf (run (heldAt 4999 501)) = some .reversal ∧
    (run (heldAt 5000 0)).sq.dwellZone = some 3 ∧ faultOf (run far) = some .overtravel ∧
    ((run (heldAt 4999 0)).stk.track.map (fun r => (r.index, r.flags.seam))) = [(4, true)] ∧
    ((run (heldAt 4999 0)).stk.summary.map (·.skipped)) = some 2 ∧
    (let s := heldAt 12000 0; run { s with sq := { s.sq with nextDwell := none } }).sq.st = .runout .travel := by
  decide +kernel

/-- A scan whose spindle's set-point an update will change, the conditions being good or not. -/
def waiting (rpm : Nat) (power : Option KeptPower) : State :=
  let s := atTime 250 (near (.approach .wait) (-900) [])
  { s with pe := { s.pe with spindle := 200 }, lu := { s.lu with rpm := some rpm }, lp := { s.lp with power := power } }

theorem witness_wait_judged_again :
    let settling (v : Int) : State :=
      let s := atTime 100250 (near (.dwell .settling) 5000 [])
      { s with
        sq := { s.sq with dwellZone := some 3 }
        cu := { s.cu with ring := [{ time := 100250, coord := v * 6554 }, { time := 250, coord := 0 }] } }
    (after .updateExpiry (waiting 135 (some readyPower))).sq.st = .heating ∧
    (after .updateExpiry (waiting 134 (some readyPower))).sq.st = .approach .wait ∧
    (after .updateExpiry (waiting 135 none)).sq.startRecord =
      { spindle := true, inverter := false, coolant := true, waitExpired := false } ∧
    spindleAt header (waiting 135 none) 0 = 150 ∧
    (settling 99).cu.speed = 99 ∧ (after .updateExpiry (settling 99)).sq.st = .dwell .timing ∧
    (after .updateExpiry (settling 99)).sq.dwellTimer = some 135250 ∧
    (after .updateExpiry (settling 100)).sq.st = .dwell .settling ∧
    (after (.powerReport (.fields { power := 0, interval := 0, stateCode := 1 })) (waiting 180 none)).sq.st = .heating ∧
    (after (.powerReport (.fields { power := 0, interval := 0, stateCode := 1 })) (waiting 179 none)).sq.st =
      .approach .wait := by decide +kernel

theorem witness_set_points_sent :
    let s := updating .heating
    let busy := { onlinePort with tx := some { frame := .ack { tag := 0, answer := Answer.ok [] }, endsAt2 := 999 } }
    let u := after .updateExpiry s
    let v := after .updateExpiry { s with lp := { s.lp with portM := busy } }
    let n := noticeOf s
    let w := after .updateExpiry { s with lp := { s.lp with portM := { onlinePort with notices := [n] } } }
    (u.lp.portP.tx.map (·.endsAt2)) = some (500 + 5 * 16) ∧ u.lp.powerSend = some 10250 ∧ u.lp.portM.setDue = false ∧
    BeginsNow s.lp.portP ∧ v.lp.portM.setDue = true ∧ w.lp.portM.setDue = true ∧ w.lp.portM.notices = [] ∧
    (after .updateExpiry { updating .armed with lp := Lp.resetValue }).lp.portM = PortState.resetValue := by
  unfold BeginsNow; decide +kernel

/-! ## Requests: recipes -/

/-- IDLE with the header's part 1 staged. -/
def staged : State := { inState .idle with lp := { (inState .idle).lp with staging := some part1 } }

theorem witness_WriteHeaderStagesAndReplaces :
    let w (h : HeaderWrite) (s : State) : State := after (.writeHeader 0 (.fields h)) s
    Taken staged ∧ part1.identifier ≠ 0 ∧ ¬ LoadInFlight staged ∧ (flying (.store 0 .b) staged).rs.storing = true ∧
    (w (.part1 part1) (inState .idle)).lp.staging = some part1 ∧
    (w (.part1 { part1 with identifier := 0 }) staged).zt.bankB.header = none ∧
    (w (.part2 part2) staged).zt.bankB.header = some header ∧ (w (.part2 part2) staged).lp.staging = none ∧
    answered (w (.part2 part2) (inState .idle)) = some .invalid ∧
    answered (w (.part2 part2) (flying (.store 0 .b) staged)) = some .busy ∧
    answered (w (.part1 { part1 with identifier := 0 }) (flying (.load 0) staged)) = some .busy ∧
    (w (.part2 part2) (flying (.erase 0) staged)).zt.bankB.header = some header ∧
    answered (w (.otherPart 3) staged) = some .invalid := by
  refine ⟨?_, ?_, ?_, ?_⟩
  · unfold Taken; decide +kernel
  · decide
  · rintro ⟨f, k, h, -⟩; exact absurd h.symm (Option.some_ne_none f)
  · decide +kernel

theorem witness_WriteZoneReplacesOnePosition :
    let w (z : ZoneWrite) (s : State) : State := after (.writeZone 0 (.fields z)) s
    Taken staged ∧ carriedZone (zoneWrite 63 6 0) = none ∧ carriedZone (zoneWrite 63 0 0) = some none ∧
    answered (w (zoneWrite 64 6 0) staged) = some .invalid ∧ answered (w (zoneWrite 63 6 0) staged) = some .invalid ∧
    answered (w (zoneWrite 63 1 0) (flying (.load 0) staged)) = some .busy ∧
    (w (zoneWrite 63 5 12000) staged).zt.bankB.zones[63] = entry 5 12000 ∧
    (w (zoneWrite 0 0 0) staged).zt.bankA = bank := by
  unfold Taken; decide +kernel

theorem witness_ReadZoneDeliversTheContents :
    let r (code : Nat) (pos : Option Nat) (n : Nat) (s : State) : State :=
      after (.readZone 0 (.fields { bankCode := code, position := pos, part := n })) s
    let s := inState .armed
    let drained (t : State) : State := { t with lp := { t.lp with portS := onlinePort } }
    Taken s ∧ BankId.a = s.zt.active ∧ BankId.b = s.zt.active.other ∧ ¬ LoadInFlight s ∧
    (answerData (r 1 none 1 s)).length = 45 ∧ (answerData (r 1 (some 63) 1 s)).length = 26 ∧
    (answerData (r 1 none 2 (drained (r 1 none 1 s)))).length = 28 ∧ answered (r 1 (some 64) 1 s) = some .invalid ∧
    answered (r 1 none 2 s) = some .invalid ∧ answered (r 1 none 0 (drained (r 1 none 1 s))) = some .invalid ∧
    answered (r 0 none 1 s) = some .invalid ∧ answered (r 3 none 1 s) = some .invalid ∧
    answered (r 2 none 1 (flying (.load 0) s)) = some .busy := by
  refine ⟨?_, ?_, ?_, ?_, ?_⟩
  · unfold Taken; decide +kernel
  · rfl
  · rfl
  · rintro ⟨f, k, h, -⟩; exact absurd h.symm (Option.some_ne_none f)
  · decide +kernel

theorem witness_reads_while_a_load_is_in_flight :
    let r (pos : Option Nat) (n : Nat) (s : State) : State :=
      after (.readZone 0 (.fields { bankCode := 2, position := pos, part := n })) s
    let s := inState .armed
    let read : State := { r none 1 s with lp := { (r none 1 s).lp with portS := onlinePort } }
    answered (r (some 63) 1 (flying (.load 0) s)) = some .busy ∧
    answered (r none 2 (flying (.load 0) read)) = some .ok ∧
    answerData (r none 2 (flying (.load 0) read)) = answerData (r none 2 read) := by decide +kernel

/-- The recipe in the shadow bank, the carriage at s = 6,000. -/
def toCommit (st : SeqState) : State :=
  let s := inState st
  { s with
    cu := { s.cu with coord := 6000 * 65536 }, zt := { bankA := Bank.empty, bankB := bank, active := .a }
    lp := { s.lp with quench := some { pressure := 249, flow := 0, temperature := 150 } } }

theorem witness_CommitExchangesTheBanks :
    let c (s : State) : State := after (.commit 0 (.fields ())) s
    Taken (toCommit .idle) ∧ validate 65536 (toCommit .idle).zt.shadowBank = none ∧
    (toCommit .idle).zt.shadowBank.header = some header ∧ (c (toCommit .idle)).sq.st = .armed ∧
    (c (toCommit .idle)).zt.active = .b ∧ (c (toCommit .idle)).cu.frontier = 1500 ∧
    (c (toCommit .done)).lp.pressureLow = true ∧ (c (toCommit .done)).lp.quenchantOut = false ∧
    answered (c (toCommit .held)) = some .scanning ∧
    answered (c (toCommit (.fault .standing))) = some .scanning ∧
    answered (c (flying (.load 0) (toCommit .held))) = some .busy ∧
    answered (c (inState .armed)) = some .invalid ∧ validate 65536 (inState .armed).zt.shadowBank ≠ none := by
  unfold Taken; decide +kernel

theorem witness_DisarmReturnsToIdle :
    let d (s : State) : State := after (.disarm 0 (.fields ())) s
    Taken (inState .armed) ∧ (d (inState .armed)).sq.st = .idle ∧ (d (inState .done)).sq.st = .idle ∧
    (d (scanning .held [])).sq.st = .idle ∧
    ((d (scanning .held [])).stk.summary.map (·.status)) = some .abandoned ∧
    answered (d (inState .idle)) = some .scanning ∧ answered (d (inState .heating)) = some .scanning ∧
    answered (d (inState (.fault .standing))) = some .scanning := by
  unfold Taken; decide +kernel

/-- IDLE with the recipe in slot 3 and slots 0 and 1 protected. -/
def withSlots : State :=
  let s := inState .idle
  { s with rs := { Rs.delivered with slots := Rs.delivered.slots.set 3 (RecipeSlot.written bank), inForce := options } }

theorem witness_RecipeStoreRequests :
    let load (n : Nat) (s : State) : State := after (.loadRecipe 0 (.fields n)) s
    let store (n : Nat) (s : State) : State := after (.storeRecipe 0 (.fields n)) s
    let erase (n : Nat) (s : State) : State := after (.eraseRecipe 0 (.fields n)) s
    let write (w : OptionsWrite) (s : State) : State := after (.writeOptions 0 (.fields w)) s
    let good : OptionsWrite := { protectedCount := 8, lossCode := 1, startUp := some 15 }
    Taken withSlots ∧ (withSlots.rs.slots[3]).condition = .valid ∧ (withSlots.rs.slots[0]).condition = .empty ∧
    answered (load 16 withSlots) = some .invalid ∧ answered (load 0 withSlots) = some .slotInvalid ∧
    (load 3 withSlots).rs.inFlight = some { op := .load 3, completes := 1000 } ∧
    answered (store 1 withSlots) = some .protect ∧ answered (erase 1 withSlots) = some .protect ∧
    (store 2 withSlots).rs.inFlight = some { op := .store 2 .b, completes := 10000 } ∧
    (erase 15 withSlots).rs.inFlight = some { op := .erase 15, completes := 5000 } ∧
    answered (load 3 (flying (.erase 4) withSlots)) = some .busy ∧
    answered (store 2 (flying (.erase 4) withSlots)) = some .busy ∧
    answered (write good (flying (.erase 4) withSlots)) = some .busy ∧
    ((write good withSlots).rs.inFlight.map (·.completes)) = some 5000 ∧
    answered (write { good with protectedCount := 3 } withSlots) = some .invalid ∧
    answered (write { good with lossCode := 2 } withSlots) = some .invalid ∧
    answered (write { good with startUp := some 16 } withSlots) = some .invalid := by
  unfold Taken; decide +kernel

theorem witness_RecipeStoreCompletions :
    let due (op : RsOp) : State := atTime 1000 (flying op withSlots)
    let auto (st : SeqState) (k : SlotNo) : State :=
      { due (.load k) with
        sq := { withSlots.sq with st := st }
        rs := { (due (.load k)).rs with startUp := .loading } }
    (due (.load 3)).rs.inFlight = some { op := .load 3, completes := 1000 } ∧
    (after .loadComplete (due (.load 3))).zt.bankB = bank ∧ (after .loadComplete (due (.load 3))).sq.st = .idle ∧
    ((after .storeComplete (due (.store 9 .a))).rs.slots[9]).image = bank ∧
    ((after .storeComplete (due (.store 9 .a))).rs.slots[9]).condition = .valid ∧
    ((after .eraseComplete (due (.erase 3))).rs.slots[3]).image = Bank.empty ∧
    ((after .eraseComplete (due (.erase 3))).rs.slots[3]).condition = .empty ∧
    (after .optionWriteComplete (due (.options options))).rs.copy1 =
      { options := options, writeNumber := 2, checkAgrees := true } ∧
    (after .optionWriteComplete (atTime 1000 (flying (.options options) (starting bank)))).rs.copy2.writeNumber = 3 ∧
    (after .loadComplete (auto .idle 3)).sq.st = .armed ∧ (after .loadComplete (auto .idle 3)).rs.startUp = .autoloaded ∧
    (after .loadComplete (auto .idle 4)).rs.startUp ≠ .autoloaded ∧ validate 65536 Bank.empty ≠ none := by
  decide +kernel

/-! ## Requests: results, settings, reset -/

/-- A port whose transmitter is busy, with n answers waiting at the S-port. -/
def crowded (n : Nat) (s : State) : State :=
  let job : TxJob := { frame := .ack { tag := 0, answer := Answer.ok [] }, endsAt2 := 100 }
  { s with lp := { s.lp with
      portS := { onlinePort with tx := some job }, acks := List.replicate n { tag := 1, answer := Answer.ok [] } } }

/-- The status of the youngest answer in the ACK place. -/
def youngest (s : State) : Option Status := s.lp.acks.getLast?.map (·.answer.status)

theorem witness_RequestsTurnedAwayAndReset :
    let c : Instr := .readStatus 7 .wrongLength
    let r : Instr := .reset 7 (.fields ())
    let idle := inState .idle
    requestTag c = some 7 ∧ wrongLength c = true ∧ Taken idle ∧ (crowded 8 idle).lp.acks.length = 8 ∧
    (after c (crowded 8 idle)).lp.acks.length = 8 ∧ (after (.answeredRole 7) (crowded 8 idle)).lp.acks.length = 8 ∧
    youngest (after (.answeredRole 7) (crowded 7 idle)) = some .role ∧ answered (after c idle) = some .invalid ∧
    answered (after (.commit 7 (.fields ())) { idle with lp := { idle.lp with pendingReset := true } }) = some .busy ∧
    answered (after r (inState .held)) = some .scanning ∧ answered (after r (flying (.erase 0) idle)) = some .busy ∧
    (after r idle).lp.pendingReset = true ∧ answered (after r (inState (.fault .flood))) = some .ok ∧
    (inState (.fault .flood)).sq.st.inScan = false := by
  unfold Taken; decide +kernel

theorem witness_control_turned_away :
    let idle := inState .idle
    let run : Instr := .run 7 clearWord
    let resetting := { idle with lp := { idle.lp with pendingReset := true } }
    carriedWord run = some (.s, 7, { clearWord with run := true }) ∧ (after run (crowded 8 idle)).lp.acks.length = 8 ∧
    answered (after run resetting) = some .busy ∧
    answerData (after run resetting) = [0, 0xFF, 0xFF, 0xFF, 0xFF, 0xFF, 0xFF] ∧
    answered (idle.takeFrame .s 0x10 7 []) = some .invalid ∧
    answerData (idle.takeFrame .s 0x10 7 [1, 2]) = [0, 0xFF, 0xFF, 0xFF, 0xFF, 0xFF, 0xFF] ∧
    answered (resetting.takeFrame .s 0x10 7 []) = some .busy := by decide +kernel

/-- The S-port free again, after its answer. -/
def sent (s : State) : State := { s with lp := { s.lp with portS := onlinePort } }

theorem witness_ReadStatusDeliversTheSnapshot :
    let r (n : Nat) (s : State) : State := after (.readStatus 0 (.fields n)) s
    let s := inState .armed
    let snapped := sent (r 1 s)
    Taken s ∧ (snapped.lp.buffer.map (fun b => b.parts.map (·.length))) = some [42, 36, 43, 37, 17] ∧
    (answerData (r 1 s)).length = 44 ∧ (answerData (r 5 snapped)).length = 19 ∧
    answered (r 6 snapped) = some .invalid ∧ answered (r 0 snapped) = some .invalid ∧
    answered (r 2 s) = some .invalid := by
  unfold Taken; decide +kernel

theorem witness_ReadSummaryDeliversAndMarks :
    let r (n : Nat) (s : State) : State := after (.readSummary 0 (.fields n)) s
    Taken withUnread ∧ answered (r 1 (inState .armed)) = some .empty ∧ answered (r 1 withUnread) = some .ok ∧
    ((r 1 withUnread).stk.summary.map (·.read)) = some true ∧
    ((r 1 (scanning .heating [])).stk.summary.map (·.read)) = some false ∧
    answered (r 2 (sent (r 1 withUnread))) = some .ok ∧ answered (r 2 withUnread) = some .invalid := by
  unfold Taken; decide +kernel

theorem witness_ReadExceptionAndReadFault :
    let r (n : Nat) : State := after (.readException 0 (.fields ())) { inState .done with stk := withExceptions n }
    Taken (inState .done) ∧ answered (r 0) = some .empty ∧ (r 1).stk.exceptions = [] ∧ (r 32).stk.exceptions.length = 31 ∧
    ((r 1).stk.summary.map (·.delivered)) = some 1 ∧
    answered (after (.readFault 0 (.fields ())) (inState .done)) = some .empty ∧
    (answerData (after (.readFault 0 (.fields ())) faulted)).getD 12 0 = 0 ∧
    answered (after (.readFault 0 (.fields ())) faulted) = some .ok := by
  unfold Taken; decide +kernel

/-- n stamps in the capture queue, and the overrun. -/
def captured (n : Nat) (overrun : Bool) : State :=
  let e (k : Nat) : CaptureStamp := { source := .line 0, edge := some .rise, time := k, coord := 0 }
  { inState .idle with cu := { State.reset.cu with captures := (List.range n).map e, overrun := overrun } }

theorem witness_ReadCaptureDrainsTheQueue :
    let r (n : Nat) (o : Bool) : State := after (.readCapture 0 (.fields ())) (captured n o)
    Taken (captured 16 true) ∧ answered (r 0 true) = some .empty ∧ (r 1 true).cu.overrun = false ∧
    (answerData (r 1 true)).drop 14 = [1, 0] ∧ (r 2 true).cu.overrun = true ∧ (r 16 false).cu.captures.length = 15 ∧
    (captured 16 false).cu.captures.length = 15 + 1 := by
  unfold Taken; decide +kernel

theorem witness_answer_layouts :
    let s := inState .heating
    [statusLayout1 s, statusLayout2 s, statusLayout3 s, statusLayout4 s, statusLayout5 s].map (·.length) =
      [42, 36, 43, 37, 17] ∧
    (statusLayout1 s).take 2 = [5, 0] ∧ (summaryLayout1 unread).length = 37 ∧
    (faultLayout { code := .aborted, source := .port .s, coord := -1, time := 0, state := .armed }).length = 16 := by
  decide +kernel

theorem witness_WritePositionConfig :
    let w (p : PositionWrite) (s : State) : State := after (.writePositionConfig 0 (.fields p)) s
    let k (n : Nat) : PositionWrite := { noPosition with scaleK := some n }
    let trim : PositionWrite := { noPosition with trim := some (5, 2) }
    Taken (inState .armed) ∧ answered (w trim (inState .heating)) = some .scanning ∧
    answered (w (k 65536) (inState .held)) = some .scanning ∧ (w trim (inState .held)).cu.trimC = 5 ∧
    answered (w (k 4095) (inState .idle)) = some .invalid ∧ (w (k 4096) (inState .idle)).cu.scaleK = 4096 ∧
    (w (k 6553600) (inState .armed)).cu.scaleK = 6553600 ∧ answered (w (k 6553601) (inState .idle)) = some .invalid ∧
    answered (w { noPosition with trim := some (5, 3) } (inState .idle)) = some .invalid ∧
    answered (w { noPosition with edgeModeCode := some 3 } (inState .idle)) = some .invalid ∧
    answered (w { noPosition with invertCode := some 2 } (inState .idle)) = some .invalid ∧
    answered (w { noPosition with lower := some (-2000001) } (inState .idle)) = some .invalid ∧
    answered (w { noPosition with upper := some (-2000000) } (inState .idle)) = some .invalid ∧
    (w { noPosition with upper := some (-1999999) } (inState .idle)).cu.upper = -1999999 ∧
    (w (k 4096) (moving .idle)).cu.ring = [] ∧ (w trim (moving .idle)).cu.ring.length = 9 := by
  unfold Taken; decide +kernel

theorem witness_pitch_bounds_the_scale :
    let s := { inState .armed with zt := { bankA := { bank with header := some { header with pitch := 50 } }, bankB := Bank.empty,
                                           active := .a } }
    let w (k : Nat) : State := after (.writePositionConfig 0 (.fields { noPosition with scaleK := some k })) s
    answered (w (50 * 65536)) = some .ok ∧ answered (w (50 * 65536 + 1)) = some .invalid := by decide +kernel

theorem witness_WriteLineConfig :
    let w (v : LineWrite) (s : State) : State := after (.writeLineConfig 0 (.fields v)) s
    let idle := inState .idle
    let once := sent (w lineWrite idle)
    Taken idle ∧ firstOf (lineTable lineWrite) = none ∧ answered (w { lineWrite with line := 8 } idle) = some .invalid ∧
    answered (w lineWrite (inState .held)) = some .scanning ∧
    (once.lu.lines[0]).role = .input .rise 20 400 .datum true ∧
    answered (w { lineWrite with line := 7 } once) = some .invalid ∧ answered (w lineWrite once) = some .ok ∧
    answered (w { lineWrite with directionCode := 3 } idle) = some .invalid ∧
    answered (w { lineWrite with pullUpCode := 2 } idle) = some .invalid ∧
    answered (w { lineWrite with edgeCode := none } idle) = some .invalid ∧
    answered (w { lineWrite with filter := some 1001 } idle) = some .invalid ∧
    answered (w { lineWrite with latency := some 10001 } idle) = some .invalid ∧
    answered (w { lineWrite with inputCode := some 7 } idle) = some .invalid ∧
    answered (w { lineWrite with captureCode := some 2 } idle) = some .invalid ∧
    answered (w { lineWrite with directionCode := 2, outputCode := some 25 } idle) = some .invalid ∧
    ((w { lineWrite with directionCode := 2, outputCode := some 24 } idle).lu.lines[0]).role = .output .general ∧
    ((w { lineWrite with line := 7, pullUpCode := 1, inputCode := some 6 } idle).lu.lines[7]).filtered = true := by
  unfold Taken; decide +kernel

theorem witness_LatchesAndMarks :
    let l (v : List (Nat × Bool)) : State := after (.writeLine 0 (.fields v)) (inState .idle)
    let m (v : MarkWrite) : State := after (.writeMark 0 (.fields v)) (inState .idle)
    Taken (inState .idle) ∧ answered (l [(0, true), (8, true)]) = some .invalid ∧
    (l [(7, false), (7, true)]).lu.lines[7].latch = true ∧ (l [(7, true)]).lu.lines[6].latch = false ∧
    (answerData (after (.readLines 0 (.fields ())) (inState .idle))).length = 32 ∧
    firstOf (markTable markWrite) = none ∧ (m markWrite).lu.marks[0].mode = .repeating 100 ∧
    answered (m { markWrite with mark := 4 }) = some .invalid ∧
    answered (m { markWrite with enableCode := 2 }) = some .invalid ∧
    answered (m { markWrite with target := 4000001 }) = some .invalid ∧
    answered (m { markWrite with modeCode := 3 }) = some .invalid ∧
    answered (m { markWrite with addValue := some 99 }) = some .invalid ∧
    answered (m { markWrite with width := 0 }) = some .invalid ∧
    answered (m { markWrite with stampCode := 2 }) = some .invalid ∧
    (m { markWrite with mark := 3, target := -4000000, modeCode := 1, addValue := none, width := 1000 }).lu.marks[3] =
      { enable := true, target := -4000000, mode := .once, width := 1000, stamp := true, pulse := none } := by
  unfold Taken; decide +kernel

/-! ## Reports, links and the supply -/

theorem witness_PowerReportCreditsEnergy :
    let p (power interval state : Nat) (s : State) : State :=
      after (.powerReport (.fields { power := power, interval := interval, stateCode := state })) s
    let s := scanning .heating [slice 1 none]
    let energy (t : State) : Option Nat := t.stk.track[0]?.map (·.energy)
    s.sq.st ≠ .approach .wait ∧ energy (p 188400 100 2 s) = some (21000000 + 18840) ∧
    energy (p 900000 6000 2 s) = some (21000000 + 4000000) ∧
    ((p 0 100 3 s).stk.track[0]?.map (·.flags.powerLimited)) = some true ∧
    (p 5 5 0 s).lp.power = none ∧ (p 5 5 5 s).lp.power = none ∧
    ((p 5 5 1 (scanning .seek [])).stk.summary.map (·.unassigned)) = some 0 ∧
    ((p 1000 5 1 (scanning .seek [])).stk.summary.map (·.unassigned)) = some 5 ∧
    (p 0 0 1 s).lp.power = some { power := 0, interval := 0, state := .ready, time := 0 } := by decide +kernel

theorem witness_a_tripped_report_trips :
    InverterState.ofCode 4 = some .tripped ∧ (inState .idle).lp.power.map (·.state) ≠ some .tripped ∧
    State.trips .tripped { inState .idle with
      lp := { (inState .idle).lp with power := some { readyPower with state := .tripped } } } = false := by decide +kernel

theorem witness_DriveStatusIsKept :
    let d (n : Nat) (s : State) : State := after (.driveStatus (.fields n)) s
    let down := { inState .armed with lp := { (inState .armed).lp with drive := some .faulted } }
    (d 2 (inState .armed)).lp.drive = some .enabled ∧ (d 0 (inState .armed)).lp.drive = none ∧
    (d 4 (inState .armed)).lp.drive = none ∧ (d 3 (inState .armed)).sq.st = .fault .standing ∧
    (d 3 down).sq.st = .armed ∧ (d 3 (inState .idle)).sq.st = .idle := by decide +kernel

theorem witness_QuenchReportIsJudged :
    let q (pressure : Nat) (temp : Int) (s : State) : State :=
      after (.quenchReport (.fields { pressure := pressure, flow := 0, temperature := temp })) s
    let s := updating .heating
    let wet := { s with pe := { s.pe with latch := true } }
    s.zt.activeBank.header = some header ∧ State.reset.zt.activeBank.header = none ∧
    (q 249 150 wet).sq.pressureWatch = some 50250 ∧ (q 250 150 wet).sq.pressureWatch = none ∧
    (q 249 150 s).sq.pressureWatch = none ∧ (q 249 149 s).lp.pressureLow = true ∧ (q 250 149 s).lp.quenchantOut = true ∧
    (q 250 350 s).lp.quenchantOut = false ∧ (q 250 351 s).lp.quenchantOut = true ∧
    (q 249 351 (inState .idle)).lp.pressureLow = false ∧
    ((q 3000 0 s).lp.quench.map (·.pressure)) = some 2000 ∧ (q 0 0 State.reset).sq.pressureWatch = none := by
  decide +kernel

/-- A loss of the S-link at 500 ms. -/
def silent (st : SeqState) (loss : LossPolicy) : State :=
  let s := atTime 500000 (scanning st [])
  { s with rs := { s.rs with inForce := { OptionBlock.default with loss := loss } } }

theorem witness_LivenessExpiryLosesTheLink :
    let e (w : Port) (s : State) : State := after (.livenessExpiry w) s
    (silent .heating .hold).lp.portP.link = .online ∧
    (e .p (atTime 2000 (scanning .heating []))).sq.st = .fault .flood ∧
    (e .p (atTime 1999 (scanning .heating []))).sq.st = .heating ∧
    (e .p (atTime 2000 (inState .armed))).lp.portP.link = .online ∧
    (e .p (atTime 50000 (inState .armed))).lp.portP.link = .lost ∧
    (e .p (atTime 50000 (inState .armed))).sq.st = .armed ∧
    (e .m (atTime 10000 (inState (.fault .standing)))).sq.secondaryCount = 1 ∧
    (e .q (atTime 20000 (scanning .seek []))).lp.pressureLow = true ∧
    alike (e .q (atTime 20000 State.reset)) (atTime 20000 State.reset) = true ∧
    (e .q (atTime 20000 (inState .idle))).lp.pressureLow = false ∧
    (e .s (silent .heating .hold)).sq.st = .quenchout .postQuench ∧
    (e .s (silent .seek .hold)).sq.st = .held ∧ (e .s (silent .armed .hold)).lp.control.holdS = true ∧
    (e .s (silent .heating .none)).sq.st = .heating ∧
    (e .s { silent .armed .hold with lp := { (silent .armed .hold).lp with pendingReset := true } }).lp = Lp.resetValue := by
  decide +kernel

/-- A port's frame at its end, with these notices waiting and a set-point frame due or not. -/
def sending (port : Port) (notices : List StateNotice) (due : Bool) (link : LinkState) : State :=
  let job : TxJob := { frame := .ack { tag := 0, answer := Answer.ok [] }, endsAt2 := 499 }
  let w : PortState := { onlinePort with link := link, tx := some job, notices := notices, setDue := due }
  let s := updating .armed
  { s with lp := { s.lp.setPort w port with acks := [{ tag := 9, answer := Answer.ok [] }] } }

theorem witness_TransmittersSendInOrder :
    let e (w : Port) (s : State) : State := after (.transmitComplete w) s
    let n := noticeOf (inState .armed)
    ((sending .s [n] false .online).lp.portS.tx.map (·.endsAt2)) = some 499 ∧
    (e .s (sending .s [n, n] false .online)).lp.portS.notices = [n] ∧
    (e .s (sending .s [n] false .online)).lp.acks.length = 1 ∧ (e .s (sending .s [] false .online)).lp.acks = [] ∧
    ((e .p (sending .p [] true .online)).lp.portP.tx.map (·.endsAt2)) = some (500 + 5 * 16) ∧
    (e .p (sending .p [] true .online)).lp.powerSend = some 10250 ∧
    (e .q (sending .q [] true .online)).lp.quenchSend = some 5250 ∧
    (e .m (sending .m [] true .online)).lp.portM.setDue = false ∧ (e .m (sending .m [] false .online)).lp.portM.tx = none ∧
    (e .p (sending .p [n] true .lost)).lp.portP.tx = none := by decide +kernel

theorem witness_send_timers :
    let s := updating .armed
    let timed (l : Lp) : State := { s with lp := { l with powerSend := some 250, quenchSend := some 250 } }
    let busy := { onlinePort with tx := some { frame := .ack { tag := 0, answer := Answer.ok [] }, endsAt2 := 999 } }
    (after .powerSendExpiry (timed s.lp)).lp.powerSend = some 10250 ∧
    (after .quenchSendExpiry (timed s.lp)).lp.quenchSend = some 5250 ∧
    (after .powerSendExpiry (timed { s.lp with portP := busy })).lp.portP.setDue = true ∧
    (after .quenchSendExpiry (timed { s.lp with portQ := busy })).lp.quenchSend = none ∧
    (after .powerSendExpiry (timed Lp.resetValue)).lp.powerSend = none ∧
    (after .quenchSendExpiry (timed Lp.resetValue)).lp.portQ.setDue = false := by decide +kernel

theorem witness_ArrivalsAndAnswers :
    let a (w : Port) (s : State) : State := after (.discardedKindArrival w) s
    (State.reset.lp.port .p).link ≠ .online ∧ (State.reset.lp.port .p).tx = none ∧
    (State.reset.lp.port .p).notices = [] ∧ (a .p State.reset).lp.portP.setDue = true ∧
    (a .s State.reset).lp.portS.setDue = false ∧ (a .p State.reset).lp.powerSend = some 10000 ∧
    (a .q State.reset).lp.quenchSend = some 5000 ∧ (a .m State.reset).lp.portM.link = .online ∧
    (a .q (atTime 9 (inState .armed))).lp.portQ.lastArrival = 9 ∧
    ((a .s (sending .s [] false .lost)).lp.portS.notices.length) = 1 ∧
    ((inState .idle).answer 5 (Answer.ok [])).lp.acks = [] ∧
    ((crowded 7 (inState .idle)).answer 5 (Answer.ok [])).lp.acks.length = 8 := by decide +kernel

theorem witness_SupplyMonitor :
    let low := { inState .armed with sq := { (inState .armed).sq with supplyLow := true } }
    (after (.supply 4499) (inState .armed)).sq.st = .fault .standing ∧
    (after (.supply 4499) (inState .idle)).sq.st = .idle ∧ (after (.supply 4000) low).sq.st = .armed ∧
    (after (.supplyRestored 4600) low).sq.supplyLow = false ∧ (after (.supplyRestored 4599) low).sq.supplyLow = true ∧
    (after (.supply 4500) (inState .armed)).sq.supplyLow = false := by decide +kernel

/-- A port's receiver in a phase. -/
def receiving (rx : RxPhase) : State :=
  { inState .idle with lp := { (inState .idle).lp with portS := { onlinePort with rx := rx, gap := some 0 } } }

theorem witness_ReceiverPhases :
    let c (b : Byte) (rx : RxPhase) : RxPhase := (after (.characterReceived .s b true) (receiving rx)).lp.portS.rx
    c 0x5A .hunt = .header [] ∧ c 0x5B .hunt = .hunt ∧ c 0x11 (.header []) = .header [0x11] ∧
    c 7 (.header [0x11]) = .header [0x11, 7] ∧ c 0 (.header [0x11, 7]) = .check 0x11 7 [] none ∧
    c 48 (.header [0x11, 7]) = .payload 0x11 7 48 [] ∧ c 49 (.header [0x11, 7]) = .hunt ∧
    c 1 (.payload 0x11 7 2 []) = .payload 0x11 7 2 [1] ∧ c 1 (.payload 0x11 7 1 []) = .check 0x11 7 [1] none ∧
    c 3 (.check 0x11 7 [1] none) = .check 0x11 7 [1] (some 3) ∧ c 3 (.check 0x11 7 [1] (some 3)) = .hunt ∧
    [3, 3] ≠ beBytes 2 (crc16 [0x11, 7, 1, 1]).toNat ∧
    (after (.interCharacterTimeout .s) (receiving (.header []))).lp.portS.rx = .hunt ∧
    (after (.characterReceived .s 1 false) (receiving (.header []))).lp.portS.gap = none := by decide +kernel

theorem test_check_example :
    crc16 [0x31, 0x32, 0x33, 0x34, 0x35, 0x36, 0x37, 0x38, 0x39] = 0x29B1#16 := by decide +kernel

/-! ## Timers and lines -/

/-- A state at 1,000 us with one of the sequencer's timers at its end. -/
def expiring (st : SeqState) (rpm : Option Nat) (power : Option KeptPower) : State :=
  let s := atTime 1000 (scanning st [])
  { s with
    cu := { s.cu with coord := 1500 * 65536 }
    pe := { s.pe with spindle := 150 }
    sq := { s.sq with
      approachWait := some 1000, dwellTimer := some 1000, postQuench := some 1000, floodTimer := some 1000
      indexWatch := some 1000, pressureWatch := some 1000, heldFrom := some (.heating 0), dwellZone := some 3 }
    lu := { s.lu with rpm := rpm }
    lp := { s.lp with power := power } }

theorem witness_ScanTimerExpiries :
    let e (c : Instr) (st : SeqState) : SeqState := (after c (expiring st (some 150) (some readyPower))).sq.st
    let wait := expiring (.approach .wait) (some 134) none
    let cold := expiring (.approach .wait) (some 135) none
    let dwell := expiring (.dwell .timing) none none
    wait.zt.activeBank.header = some header ∧ wait.sq.approachWait = some 1000 ∧
    ((after .approachWaitExpiry wait).sq.faultRecord.map (·.code)) = some .spiral ∧
    ((after .approachWaitExpiry cold).sq.faultRecord.map (·.code)) = some .inverter ∧
    e .approachWaitExpiry (.approach .wait) = .approach .wait ∧
    dwell.cu.frontier - dwell.cu.x ≤ 500 ∧ dwell.cu.frontier < zonesEnd dwell.zt.activeBank.zoneList ∧
    dwell.sq.nextDwell = none ∧ e .dwellTimerExpiry (.dwell .timing) = .heating ∧
    e .postQuenchExpiry (.runout .postQuench) = .done ∧ e .postQuenchExpiry (.quenchout .postQuench) = .held ∧
    e .floodExpiry (.fault .flood) = .fault .standing ∧ e .indexWatchExpiry .heating = .fault .flood := by decide +kernel

theorem witness_pressure_watch :
    let wet (st : SeqState) : State :=
      { expiring st none none with pe := { (expiring st none none).pe with latch := true } }
    (after .pressureWatchExpiry (wet .heating)).sq.st = .fault .flood ∧
    (after .pressureWatchExpiry (wet .idle)).sq.st = .idle ∧
    (after .pressureWatchExpiry (expiring .heating none none)).sq.st = .heating ∧
    (after .pressureWatchExpiry (expiring .heating none none)).sq.pressureWatch = none := by decide +kernel

theorem witness_entries_at_the_dwell_timer :
    let at' (frontier behind : Int) : State :=
      let s := expiring (.dwell .timing) none none
      after .dwellTimerExpiry { s with
        cu := { s.cu with frontier := frontier, coord := (frontier - behind) * 65536 }
        sq := { s.sq with nextDwell := some 3 }, stk := { s.stk with highWater := some 1, heating := true } }
    (at' 4999 500).sq.st = .heating ∧ faultOf (at' 4999 501) = some .reversal ∧ (at' 5000 0).sq.st = .dwell .timing ∧
    (at' 5000 0).sq.dwellZone = some 3 ∧
    (let s := expiring (.dwell .timing) none none
     after .dwellTimerExpiry { s with cu := { s.cu with frontier := 12000, coord := 12000 * 65536 } }).sq.st =
      .runout .travel := by decide +kernel

/-- A fall to be accepted on a line of a function. -/
def fallen (fn : InputFn) : Line := { risen fn true with drive := .low, filtered := true }

theorem witness_LinesTakeChanges :
    let f (n : Line) (st : SeqState) (frontier : Int) : State :=
      let s := withLine 2 n (moving st)
      after (.filterExpiry 2) { s with cu := { s.cu with frontier := frontier } }
    let pin (n : Line) (d : PinDrive) : Option Nat :=
      (after (.auxPinChange 2 d) (withLine 2 n (moving .armed))).lu.lines[2].filterTimer
    pin { risen .general true with filterTimer := none } .low = none ∧ pin (risen .general true) .low = none ∧
    pin { risen .general true with drive := .low, filterTimer := none } .high = some 4420 ∧
    pin (risen .general true) .high = some 4400 ∧
    (f { risen .general true with filtered := true } .armed 0).cu.captures = [] ∧
    (f (risen .general true) .armed 0).cu.captures.length = 1 ∧ (f (fallen .general) .armed 0).cu.captures = [] ∧
    (f (fallen .interlock) .armed 0).sq.st = .fault .standing ∧ (f (risen .interlock true) .armed 0).sq.st = .armed ∧
    (f (fallen .interlock) .idle 0).sq.st = .idle ∧
    ((f (fallen .coilWater) .heating 0).sq.faultRecord.map (·.code)) = some .coolant ∧
    (f (fallen .coilWater) .seek 0).sq.st = .seek ∧
    ((f (risen .endProbe true) .heating 11999).sq.faultRecord.map (·.code)) = some .partLength ∧
    (f (risen .endProbe true) .heating 12000).sq.st = .heating ∧ (f (fallen .endProbe) .heating 0).sq.st = .heating := by
  decide +kernel

theorem witness_end_probe_without_effect :
    let f (st : SeqState) : SeqState := (after (.filterExpiry 2) (withLine 2 (risen .endProbe true) (moving st))).sq.st
    [SeqState.idle, .armed, .seek, .runout .travel, .done].map f = [.idle, .armed, .seek, .runout .travel, .done] ∧
    f (.quenchout .travel) = .fault .flood ∧ f (.fault .standing) = .fault .standing := by decide +kernel

theorem witness_output_pins_pulses_and_the_withdrawal :
    let out : Line := { risen .general true with role := .output .general, filterTimer := none }
    let m := { Mark.resetValue with pulse := some 4400 }
    let s := moving .armed
    let pulsing := { s with lu := { s.lu with
      marks := s.lu.marks.set 3 m, withdrawal := some 4400, rpm := some 120 } }
    (after (.auxPinChange 2 .low) (withLine 2 out s)).lu.lines[2].drive = .low ∧
    (after (.markPulseExpiry 3) pulsing).lu.marks[3].pulse = none ∧ (after .withdrawalExpiry pulsing).lu.rpm = none := by
  decide +kernel

/-- An index edge to be accepted, in a state, with an over-pitch count, after a revolution of this travel. -/
def turning (st : SeqState) (count : Nat) (first : Bool) (travel : Int) (prev : Option Nat) : State :=
  let s := withLine 2 (risen .spindleIndex false) (moving st)
  { s with
    cu := { s.cu with frontier := 1500 }
    pe := { s.pe with spindle := 150, heatingZone := some 0 }
    sq := { s.sq with overPitch := count, firstRevolution := first }
    lu := { s.lu with prevIndexTime := prev, indexFrontier := prev.map (fun _ => 1500 - travel) } }

theorem witness_index_edges :
    let e (s : State) : State := after (.filterExpiry 2) s
    (e (turning .heating 0 true 0 none)).lu.prevIndexTime = some 4400 ∧ (e (turning .heating 0 true 0 none)).lu.rpm = none ∧
    (e (turning .armed 0 true 9 (some 4400))).lu.rpm = some 65535 ∧
    (e (turning .armed 0 true 9 (some 3400))).lu.rpm = some 60000 ∧
    (e (turning .heating 1 true 9999 (some 3400))).sq.overPitch = 1 ∧
    (e (turning .heating 1 false 3125 (some 3400))).sq.overPitch = 0 ∧
    (e (turning .heating 0 false 3126 (some 3400))).sq.overPitch = 1 ∧
    ((e (turning .heating 1 false 3126 (some 3400))).sq.faultRecord.map (·.code)) = some .spiral ∧
    (e (turning .heating 0 false 3126 (some 3400))).sq.indexWatch = some (4400 + 1600000) := by decide +kernel

/-- SEEK at the datum edge of R19's example: s = 31,262, direction PLUS, v = 5,000 um/s. -/
def atDatum (st : SeqState) (taken : Bool) : State :=
  let line : Line := { risen .datum false with role := .input .rise 20 400 .datum false, filterTimer := some 4000 }
  let s := withLine 1 line (scanning st [])
  let h := { header with datumCoord := 30000, originCoord := 45000, runIn := 10000 }
  { s with
    cu := { s.cu with
      cellTime := 4000, coord := 31262 * 65536, origin := 45000, datumTaken := taken
      ring := [{ time := 4000, coord := 31262 * 65536 }, { time := 0, coord := 31242 * 65536 }] }
    zt := { s.zt with bankA := { bank with header := some h } } }

theorem test_datum_example :
    let t := after (.filterExpiry 1) (atDatum .seek false)
    (atDatum .seek false).cu.speed = 5000 ∧ t.cu.s = 30002 ∧ t.cu.frontier = -14998 ∧ t.sq.st = .approach .travel ∧
    t.cu.datumTaken = true ∧ t.cu.speed = 5000 := by decide +kernel

theorem witness_datum_edges_outside_seek :
    let drift (taken : Bool) : Option (Option Nat × Bool) :=
      (after (.filterExpiry 1) (atDatum (.runout .travel) taken)).stk.summary.map (fun u => (u.drift, u.datumDrift))
    drift true = some (some 1260, true) ∧ drift false = some (none, false) := by decide +kernel

theorem witness_datum_step_and_edges :
    let cap (s : State) : State :=
      let line : Line := { risen .datum true with role := .input .rise 20 400 .datum true, filterTimer := some 4000 }
      after (.filterExpiry 1) (withLine 1 line s)
    let s := atDatum .seek false
    let runIn (n : Nat) : State :=
      let h := { header with datumCoord := 30000, originCoord := 45000, runIn := n }
      { s with zt := { s.zt with bankA := { bank with header := some h } } }
    let closed : State := { atDatum .done true with stk := { s.stk with summary := some unread } }
    ((cap s).cu.captures.map (fun c => (c.source, c.coord))) = [(.line 1, 31260)] ∧ (cap s).cu.s = 30002 ∧
    faultOf (cap { s with cu := { s.cu with upper := 30001 } }) = some .overtravel ∧
    (cap { s with cu := { s.cu with upper := 30002 } }).sq.st = .approach .travel ∧
    faultOf (cap (runIn 14999)) = some .overtravel ∧ (cap (runIn 14998)).sq.st = .approach .wait ∧
    (cap (runIn 14997)).sq.st = .approach .travel ∧ (cap closed).stk.summary = some unread ∧
    (after (.filterExpiry 2) (let s := turning .armed 0 true 9 (some 3400)
      withLine 2 (risen .spindleIndex true) s)).cu.captures.length = 1 := by decide +kernel

/-! ## Frames and their encoding -/

theorem witness_FrameReachesItsKind :
    ((State.reset.lp.port .s).rx = .hunt) ∧ (List.replicate 48 (0 : Byte)).length ≤ 48 ∧
    ((feed .s (frameChars 0x15 7 []) (toCommit .idle)).map (·.sq.st)) = some .armed ∧
    ((feed .s (frameChars 0x12 7 (1 :: HeaderPart1.bytes part1)) (inState .idle)).map (·.lp.staging)) =
      some (some part1) := by decide +kernel

theorem witness_frame_commands :
    frameCommand .s 0x15 7 [] = some (.commit 7 (.fields ())) ∧
    frameCommand .p 0x15 7 [] = some (.discardedKindArrival .p) ∧
    frameCommand .s 0x60 7 [] = some (.answeredRole 7) ∧
    frameCommand .m 0x61 7 [2] = some (.driveStatus (.fields 2)) ∧
    frameCommand .p 0x61 7 [2] = some (.discardedKindArrival .p) ∧ frameCommand .s 0x10 7 [] = none ∧
    frameCommand .q 0x10 7 [] = some (.discardedKindArrival .q) ∧
    frameCommand .s 0x10 7 [0x20] = some (.holdFieldCleared .s 7 .s (wordOf 0x20)) ∧
    frameCommand .s 0x45 7 [] = some (.discardedKindArrival .s) ∧
    alike ((inState .idle).takeFrame .s 0x60 7 []) (after (.answeredRole 7) (inState .idle)) = true := by
  decide +kernel

theorem witness_RecipePayloadsReadBack :
    part1.wf = true ∧ part2.wf = true ∧ (zoneWrite 63 3 5000).wf = true ∧
    NoneReadsAbsent { zoneWrite 63 3 5000 with energy := some 65534 } ∧ (zoneBytes (zoneWrite 63 3 5000)).length = 25 := by
  unfold NoneReadsAbsent; decide +kernel

theorem witness_payload_bytes :
    let w := { noPosition with upper := some (-1) }
    LineReadsWhole lineWrite ∧ lineWrite.wf = true ∧ readLineWrite (lineWriteBytes lineWrite) = .fields lineWrite ∧
    markWrite.wf = true ∧ markWrite.addValue ≠ some (2 ^ 32 - 1) ∧
    readMarkWrite (markWriteBytes markWrite) = .fields markWrite ∧ w.wf = true ∧ noPosition.wf = true ∧
    readPositionWrite (positionBytes w noPosition (true, true)) = .fields w := by
  unfold LineReadsWhole; decide +kernel

/-! ## Invariants -/

theorem witness_invariants_hold_in_reset :
    FaultInv State.reset ∧ SetPointInv State.reset ∧ TimerInv State.reset := by
  unfold FaultInv SetPointInv TimerInv; decide +kernel

/-- A state of a scan that satisfies the invariants: HEATING with two slices on the track. -/
def midScan : State :=
  let s := scanning .heating [slice 0 (some 5), slice 1 none]
  { s with
    sq := { s.sq with indexWatch := some 1600000 }
    pe := { s.pe with power := 100000, enable := true, stop := false, speed := 10000 }
    lu := { s.lu with heatEnable := true } }

theorem witness_invariants_hold_in_a_scan :
    FaultInv midScan ∧ SetPointInv midScan ∧ TimerInv midScan ∧ midScan.pending = [] ∧
    (step midScan matches .next _) = true := by
  unfold FaultInv SetPointInv TimerInv; decide +kernel

theorem witness_RangeInv : RangeInv midScan := by
  unfold RangeInv
  exact ⟨by decide +kernel, by decide +kernel, by decide +kernel, by decide +kernel, by decide +kernel, by decide +kernel,
    by decide +kernel, by decide +kernel, fun port => by cases port <;> decide +kernel⟩

theorem witness_BankInv : BankInv midScan := fun _ => ⟨65536, by decide +kernel⟩

theorem witness_SlotInv : SlotInv midScan := by
  intro k
  show (Vector.replicate 16 (RecipeSlot.written Bank.empty))[k] = judgedSlot (Vector.replicate 16 (RecipeSlot.written Bank.empty))[k]
  rw [← judge_eq]
  simp

theorem witness_TrackInv : TrackInv midScan := by
  unfold TrackInv
  refine ⟨by decide +kernel, fun h => absurd h (by decide +kernel)⟩

theorem witness_ScanInv : ScanInv midScan := by
  unfold ScanInv
  refine ⟨by decide +kernel, by decide +kernel, ?_, by decide +kernel⟩
  intro r hr
  exact ⟨1, by decide +kernel, by revert r; decide +kernel⟩

theorem witness_ExceptionInv : ExceptionInv midScan := by
  intro u hu _
  have h : u = Summary.opening 1 4117 := by injection hu with h; exact h.symm
  subst h
  decide +kernel

end Sys2Proof.Tests
end

section
/-! PROOF. WRITE_POSITION_CONFIG's checks (R7) in the words of the statements. -/

namespace Sys2Proof.Machine

/-- No condition of a chain holds exactly where the chain gives no answer. -/
theorem firstOf_eq_none {α : Type} {l : List (Bool × α)} : firstOf l = none ↔ ∀ r ∈ l, r.1 = false := by
  induction l with
  | nil => simp [firstOf]
  | cons r l ih =>
    obtain ⟨b, a⟩ := r
    cases b <;> simp [firstOf_cons, ih]

/-- A chain of conditions whose first two agree and whose rests agree. -/
theorem chain_congr {α : Type} {b b' : Bool} {a : α} {x y : Option α} (hb : b = b') (h : x = y) :
    (if b then some a else x) = if b' then some a else y := by rw [hb, h]

theorem TrimDir.ofCode_isNone (d : Nat) : (TrimDir.ofCode d).isNone = decide (d ≠ 1 ∧ d ≠ 2) := by
  unfold TrimDir.ofCode
  split
  · simp [*]
  · split <;> simp [*]

theorem EdgeMode.ofCode_isNone (m : Nat) : (EdgeMode.ofCode m).isNone = decide (m ≠ 1 ∧ m ≠ 2 ∧ m ≠ 4) := by
  unfold EdgeMode.ofCode
  split
  · simp [*]
  · split
    · simp [*]
    · split <;> simp [*]

theorem flagOfCode_isNone (v : Nat) : (flagOfCode v).isNone = decide (1 < v) := by
  match v with
  | 0 => rfl
  | 1 => rfl
  | v + 2 => simp [flagOfCode]

/-- The negation of a check of a range is the check that a number lies outside it. -/
theorem not_within_eq {p q r : Prop} [Decidable p] [Decidable q] [Decidable r] (h : ¬ (p ∧ q) ↔ r) :
    (!(decide p && decide q)) = decide r := by
  rw [← Bool.decide_and, ← decide_not]
  exact decide_eq_decide.2 h

/-- The first of R7's checks that fails is the first of the table. -/
theorem positionFailure_eq (c : Cu) (pitch : Option Nat) (w : PositionWrite) :
    c.positionFailure pitch w = firstOf (positionTable c pitch w) := by
  unfold Cu.positionFailure positionTable
  refine chain_congr ?_ (chain_congr ?_ (chain_congr ?_ (chain_congr ?_ (chain_congr ?_ (chain_congr ?_ (chain_congr ?_
    ?_))))))
  · cases w.scaleK with
    | none => rfl
    | some k => exact not_within_eq (by omega)
  · cases w.scaleK <;> cases pitch <;> simp
  · cases w.trim <;> simp [TrimDir.ofCode_isNone]
  · cases w.edgeModeCode <;> simp [EdgeMode.ofCode_isNone]
  · cases w.invertCode <;> simp [flagOfCode_isNone]
  · cases w.lower with
    | none => rfl
    | some v => exact not_within_eq (r := v < -2000000 ∨ 2000000 < v) (by unfold Config.coordBound; omega)
  · cases w.upper with
    | none => rfl
    | some v => exact not_within_eq (r := v < -2000000 ∨ 2000000 < v) (by unfold Config.coordBound; omega)
  · simp [firstOf]

/-- A request that passes R7's checks carries a scale and limits within their ranges, and leaves the limits in order. -/
theorem positionTable_passed {c : Cu} {pitch : Option Nat} {w : PositionWrite}
    (hw : firstOf (positionTable c pitch w) = none) :
    (∀ k, w.scaleK = some k → 4096 ≤ k ∧ k ≤ 6553600) ∧ (∀ v, w.lower = some v → -2000000 ≤ v ∧ v ≤ 2000000) ∧
    (∀ v, w.upper = some v → -2000000 ≤ v ∧ v ≤ 2000000) ∧ w.lower.getD c.lower < w.upper.getD c.upper := by
  have h := firstOf_eq_none.1 hw
  simp only [positionTable, List.forall_mem_cons, Option.any_eq_false, decide_eq_false_iff_not, not_or, Nat.not_lt,
    Int.not_lt, Int.not_le] at h
  obtain ⟨hscale, -, -, -, -, hlower, hupper, horder, -⟩ := h
  exact ⟨hscale, hlower, hupper, horder⟩

end Sys2Proof.Machine
end

section
/-! PROOF. Every step keeps the coordinate, the settings and the queues within their bounds (O57): the bounds as one
predicate of the state, and for each operation the lemma that it keeps them. The places of the ACK queue that are taken
are counted by a number of their own, so that a request's rule is known to leave the place that its answer needs. -/

namespace Sys2Proof.Machine

/-! ## The bounds, block by block -/

/-- The coordinate unit's ranges, its ring and its capture queue (R7, R10, R17, R21). -/
structure Cu.InBounds (c : Cu) : Prop where
  coord : -(2000000 * 65536) ≤ c.coord ∧ c.coord ≤ 2000000 * 65536
  scale : 4096 ≤ c.scaleK ∧ c.scaleK ≤ 6553600
  limits : -2000000 ≤ c.lower ∧ c.lower < c.upper ∧ c.upper ≤ 2000000
  ring : c.ring.length ≤ 9
  captures : c.captures.length ≤ 16

/-- The fields of the coordinate unit that have bounds. -/
def Cu.boundedFields (c : Cu) : Int × Nat × Int × Int × List EdgeStamp × List CaptureStamp :=
  (c.coord, c.scaleK, c.lower, c.upper, c.ring, c.captures)

/-- At most n answers wait, and at most four notices at each port (R150, R182). -/
structure Lp.InBounds (n : Nat) (l : Lp) : Prop where
  acks : l.acks.length ≤ n
  notices : ∀ port, (l.port port).notices.length ≤ 4

/-- The queues of the link ports: the answers, and each port's notices. -/
def Lp.queues (l : Lp) : List Ack × List StateNotice × List StateNotice × List StateNotice × List StateNotice :=
  (l.acks, l.portS.notices, l.portP.notices, l.portM.notices, l.portQ.notices)

/-- Every block within its bounds, with at most n answers waiting. -/
structure InBounds (n : Nat) (s : State) : Prop where
  cu : s.cu.InBounds
  exceptions : s.stk.exceptions.length ≤ 32
  secondary : s.sq.secondaryCount ≤ 255
  links : s.lp.InBounds n

theorem rangeInv_iff (s : State) : RangeInv s ↔ InBounds 8 s := by
  constructor
  · rintro ⟨hcoord, hscale, hlimits, hring, hcaptures, hexceptions, hsecondary, hacks, hnotices⟩
    exact ⟨⟨hcoord, hscale, hlimits, hring, hcaptures⟩, hexceptions, hsecondary, hacks, hnotices⟩
  · rintro ⟨⟨hcoord, hscale, hlimits, hring, hcaptures⟩, hexceptions, hsecondary, hacks, hnotices⟩
    exact ⟨hcoord, hscale, hlimits, hring, hcaptures, hexceptions, hsecondary, hacks, hnotices⟩

/-! ## The coordinate unit -/

theorem holdCoord_bounds (v : Int) :
    -(2000000 * 65536) ≤ (holdCoord v).1 ∧ (holdCoord v).1 ≤ 2000000 * 65536 := by
  unfold holdCoord Config.coordBound
  split
  · simp
  · split <;> constructor <;> dsimp only <;> omega

theorem Cu.InBounds.stepEdge {c : Cu} (h : c.InBounds) (up : Bool) : (c.stepEdge up).1.InBounds :=
  ⟨holdCoord_bounds _, h.scale, h.limits, Nat.succ_le_succ (List.length_take_le 8 c.ring), h.captures⟩

theorem Cu.InBounds.advanceFrontier {c : Cu} (h : c.InBounds) : c.advanceFrontier.InBounds := by
  unfold Cu.advanceFrontier
  split
  · exact ⟨h.coord, h.scale, h.limits, h.ring, h.captures⟩
  · exact h

theorem Cu.InBounds.resetFrontier {c : Cu} (h : c.InBounds) : c.resetFrontier.InBounds :=
  ⟨h.coord, h.scale, h.limits, h.ring, h.captures⟩

theorem Cu.InBounds.datumStep {c : Cu} (h : c.InBounds) (step : Int) : (c.datumStep step).1.InBounds :=
  ⟨holdCoord_bounds _, h.scale, h.limits, by simpa [Cu.datumStep, Cu.resetFrontier] using h.ring, h.captures⟩

theorem Cu.InBounds.takeHeader {c : Cu} (h : c.InBounds) (r : RecipeHeader) : (c.takeHeader r).InBounds :=
  ⟨h.coord, h.scale, h.limits, h.ring, h.captures⟩

theorem Cu.InBounds.capture {c : Cu} (h : c.InBounds) (e : CaptureStamp) : (c.capture e).InBounds := by
  unfold Cu.capture Config.captureDepth
  split
  · next hroom => exact ⟨h.coord, h.scale, h.limits, h.ring, by
      simp only [List.length_append, List.length_singleton]; omega⟩
  · exact ⟨h.coord, h.scale, h.limits, h.ring, h.captures⟩

theorem Cu.InBounds.dropCapture {c : Cu} (h : c.InBounds) : c.dropCapture.InBounds :=
  ⟨h.coord, h.scale, h.limits, h.ring, by have := h.captures; simp only [Cu.dropCapture, List.length_tail]; omega⟩

theorem Cu.InBounds.resetValue (time : Nat) (phase : EncPhase) : (Cu.resetValue time phase).InBounds :=
  ⟨by simp [Cu.resetValue], by simp [Cu.resetValue], by simp [Cu.resetValue], by simp [Cu.resetValue],
    by simp [Cu.resetValue]⟩

theorem Cu.InBounds.writePosition {c : Cu} (h : c.InBounds) {pitch : Option Nat} {w : PositionWrite}
    (hw : c.positionFailure pitch w = none) : (c.writePosition w).InBounds := by
  rw [positionFailure_eq] at hw
  obtain ⟨hscale, hlower, hupper, horder⟩ := positionTable_passed hw
  refine ⟨h.coord, ?_, ⟨?_, horder, ?_⟩, ?_, h.captures⟩
  · show 4096 ≤ w.scaleK.getD c.scaleK ∧ w.scaleK.getD c.scaleK ≤ 6553600
    cases hk : w.scaleK with
    | none => exact h.scale
    | some k => exact hscale k hk
  · show -2000000 ≤ w.lower.getD c.lower
    cases hl : w.lower with
    | none => exact h.limits.1
    | some v => exact (hlower v hl).1
  · show w.upper.getD c.upper ≤ 2000000
    cases hu : w.upper with
    | none => exact h.limits.2.2
    | some v => exact (hupper v hu).2
  · unfold Cu.writePosition
    dsimp only
    split
    · exact h.ring
    · simp

/-! ## The slice tracker: only a departure adds an exception, and only where there is room (R112) -/

@[simp] theorem Stk.onOpenSummary_exceptions (k : Stk) (f : Summary → Summary) :
    (k.onOpenSummary f).exceptions = k.exceptions := by
  unfold Stk.onOpenSummary; (repeat' split) <;> rfl

@[simp] theorem Stk.tryOpen_exceptions (k : Stk) (c : TrackRecipe) (f : Int) :
    (k.tryOpen c f).exceptions = k.exceptions := by
  unfold Stk.tryOpen Stk.openSlice; dsimp only; (repeat' split) <;> simp

@[simp] theorem Stk.heatingStart_exceptions (k : Stk) (c : TrackRecipe) (f : Int) :
    (k.heatingStart c f).exceptions = k.exceptions := by
  unfold Stk.heatingStart; split <;> simp

@[simp] theorem Stk.heatingEnd_exceptions (k : Stk) (c : TrackRecipe) (now : Nat) :
    (k.heatingEnd c now).exceptions = k.exceptions := by
  unfold Stk.heatingEnd; dsimp only; split <;> simp [Stk.closeOpen]

@[simp] theorem Stk.credit_exceptions (k : Stk) (e : Nat) : (k.credit e).exceptions = k.exceptions := by
  unfold Stk.credit; split <;> simp [Stk.onOpenSlice]

theorem Stk.depart_exceptions_le {k : Stk} (h : k.exceptions.length ≤ 32) (c : TrackRecipe) (q : QuenchCondition)
    (now : Nat) (flooded : Bool) (r : SliceRecord) : (k.depart c q now flooded r).exceptions.length ≤ 32 := by
  unfold Stk.depart Stk.except Config.exceptionDepth
  dsimp only
  split
  · split
    · next hroom => simp only [List.length_append, List.length_singleton]; omega
    · simpa using h
  · simpa using h

theorem Stk.retire_exceptions_le (c : TrackRecipe) (q : QuenchCondition) (f : Int) (now : Nat) (l : List SliceRecord) :
    ∀ k : Stk, k.exceptions.length ≤ 32 → (Stk.retire c q f now l k).exceptions.length ≤ 32 := by
  induction l with
  | nil => exact fun k h => h
  | cons r rest ih =>
    intro k h
    unfold Stk.retire
    split
    · exact ih _ (Stk.depart_exceptions_le h c q now false r)
    · exact h

theorem Stk.floodAll_exceptions_le (c : TrackRecipe) (q : QuenchCondition) (now : Nat) (l : List SliceRecord) :
    ∀ k : Stk, k.exceptions.length ≤ 32 → (Stk.floodAll c q now l k).exceptions.length ≤ 32 := by
  induction l with
  | nil => exact fun k h => h
  | cons r rest ih => exact fun k h => ih _ (Stk.depart_exceptions_le h c q now true r)

theorem Stk.advance_exceptions_le {k : Stk} (h : k.exceptions.length ≤ 32) (c : TrackRecipe) (q : QuenchCondition)
    (f : Int) (now : Nat) : (k.advance c q f now).exceptions.length ≤ 32 := by
  have hclose : (k.closeAtBoundary c f now).exceptions = k.exceptions := by unfold Stk.closeAtBoundary; split <;> rfl
  exact Stk.retire_exceptions_le c q f now _ _ (hclose ▸ h)

theorem Stk.floodStart_exceptions_le {k : Stk} (h : k.exceptions.length ≤ 32) (c : TrackRecipe) (q : QuenchCondition)
    (now : Nat) : (k.floodStart c q now).exceptions.length ≤ 32 :=
  Stk.floodAll_exceptions_le c q now _ _ h

/-! ## The link ports: a notice is placed in four places, an answer adds one (R150, R182) -/

theorem pushNotice_length_le (l : List StateNotice) (m : StateNotice) (h : l.length ≤ 4) :
    (pushNotice l m).length ≤ 4 := by
  unfold pushNotice Config.noticeDepth
  split
  · next hroom => rw [List.length_append, List.length_singleton]; omega
  · simp only [List.length_append, List.length_dropLast, List.length_singleton]; omega

theorem Lp.waitingAcks_length_le (l : Lp) (w : Port) : (l.waitingAcks w).length ≤ l.acks.length := by
  cases w <;> simp [Lp.waitingAcks]

namespace Lp.InBounds

variable {m n : Nat} {l k : Lp}

/-- Ports changed in other fields than their notices. -/
theorem of_notices (h : l.InBounds n) (ha : k.acks.length ≤ m)
    (hn : ∀ u, (k.port u).notices = (l.port u).notices) : k.InBounds m :=
  ⟨ha, fun u => hn u ▸ h.notices u⟩

theorem ite {p : Prop} [Decidable p] (hl : l.InBounds n) (hk : k.InBounds n) : (if p then l else k).InBounds n := by
  split
  · exact hl
  · exact hk

theorem setPort (h : l.InBounds n) {v : PortState} (hv : v.notices.length ≤ 4) (w : Port) :
    (l.setPort v w).InBounds n := by
  refine ⟨by simpa using h.acks, fun u => ?_⟩
  rcases Classical.em (u = w) with rfl | hne
  · simpa using hv
  · rw [Lp.port_setPort_ne _ _ _ _ hne]; exact h.notices u

theorem sendSet (h : l.InBounds n) (i : SendInput) (w : Port) : (l.sendSet i w).InBounds n :=
  h.of_notices (by simpa using h.acks) (fun u => by cases w <;> cases u <;> rfl)

theorem kick (h : l.InBounds n) (i : SendInput) (w : Port) : (l.kick i w).InBounds n := by
  have hnotices := h.notices w
  have hacks := Nat.le_trans (Lp.waitingAcks_length_le l w) h.acks
  unfold Lp.kick
  dsimp only
  split
  · split
    · next e => rw [e, List.length_cons] at hnotices; exact h.setPort (by dsimp only; omega) w
    · split
      · next a rest e =>
        rw [e, List.length_cons] at hacks
        have hport := h.setPort (v := { l.port w with tx := i.job (.ack a) }) (h.notices w) w
        exact hport.of_notices (by dsimp only; omega) (fun u => by cases u <;> rfl)
      · split
        · exact h.sendSet i w
        · exact h
  · exact h

theorem notify (h : l.InBounds n) (i : SendInput) (v : StateNotice) (w : Port) : (l.notify i v w).InBounds n := by
  unfold Lp.notify
  dsimp only
  split
  · exact (h.setPort (pushNotice_length_le _ v (h.notices w)) w).kick i w
  · exact h

theorem markDue (h : l.InBounds n) (i : SendInput) (w : Port) : (l.markDue i w).InBounds n := by
  unfold Lp.markDue
  dsimp only
  split
  · exact Lp.InBounds.kick (h.setPort (by exact h.notices w) w) i w
  · exact h

theorem takeUpdate (h : l.InBounds n) (i : SendInput) (st : SeqState) : (l.takeUpdate i st).InBounds n := by
  have hpower : (if l.powerDue st i.pe then l.markDue i .p else l).InBounds n := .ite (h.markDue i .p) h
  exact .ite ((hpower.markDue i .m).markDue i .q) (hpower.markDue i .m)

theorem answer (h : l.InBounds n) (i : SendInput) (tag : Byte) (a : Answer) : (l.answer i tag a).InBounds (n + 1) :=
  Lp.InBounds.kick (h.of_notices (by simpa using h.acks) (fun u => by cases u <;> rfl)) i .s

theorem startCadence (h : l.InBounds n) (now : Nat) (w : Port) : (l.startCadence now w).InBounds n :=
  h.of_notices (by simpa using h.acks) (fun u => by simp)

theorem arrive (h : l.InBounds n) (i : SendInput) (v : StateNotice) (w : Port) : (l.arrive i v w).InBounds n := by
  have harrived : (l.setPort ((l.port w).arrive i.now) w).InBounds n := h.setPort (by exact h.notices w) w
  have hcaught := (harrived.startCadence i.now w).notify i v w
  unfold Lp.arrive
  dsimp only
  split
  · exact harrived
  · split
    · exact hcaught.markDue i w
    · exact hcaught

theorem lose (h : l.InBounds n) (w : Port) : (l.lose w).InBounds n := by
  have hport := h.setPort (v := { l.port w with link := .lost, notices := [], setDue := false }) (by simp) w
  cases w with
  | s => exact hport.of_notices (Nat.zero_le n) (fun u => by cases u <;> rfl)
  | p => exact hport
  | m => exact hport
  | q => exact hport

theorem endFrame (h : l.InBounds n) (i : SendInput) (w : Port) : (l.endFrame i w).InBounds n :=
  Lp.InBounds.kick (h.setPort (by exact h.notices w) w) i w

theorem resetValue : Lp.resetValue.InBounds n :=
  ⟨Nat.zero_le n, fun u => by cases u <;> exact Nat.zero_le 4⟩

end Lp.InBounds

/-! ## One block written -/

namespace InBounds

variable {n : Nat} {s t : State}

theorem setCu (h : InBounds n s) {v : Cu} (hv : v.InBounds) : InBounds n (s.setCu v) :=
  ⟨hv, h.exceptions, h.secondary, h.links⟩

theorem setStk (h : InBounds n s) {v : Stk} (hv : v.exceptions.length ≤ 32) : InBounds n (s.setStk v) :=
  ⟨h.cu, hv, h.secondary, h.links⟩

theorem setSq (h : InBounds n s) {v : Sq} (hv : v.secondaryCount ≤ 255) : InBounds n (s.setSq v) :=
  ⟨h.cu, h.exceptions, hv, h.links⟩

/-- The coordinate unit written with its bounded fields as they were. -/
theorem keepCu (h : InBounds n s) {v : Cu} (hv : v.boundedFields = s.cu.boundedFields) : InBounds n (s.setCu v) := by
  simp only [Cu.boundedFields, Prod.mk.injEq] at hv
  obtain ⟨hcoord, hscale, hlower, hupper, hring, hcaptures⟩ := hv
  obtain ⟨bcoord, bscale, blimits, bring, bcaptures⟩ := h.cu
  exact h.setCu ⟨hcoord ▸ bcoord, hscale ▸ bscale, hlower ▸ hupper ▸ blimits, hring ▸ bring, hcaptures ▸ bcaptures⟩

/-- The slice tracker written with its exception queue as it was. -/
theorem keepStk (h : InBounds n s) {v : Stk} (hv : v.exceptions = s.stk.exceptions) : InBounds n (s.setStk v) :=
  h.setStk (hv ▸ h.exceptions)

/-- The sequencer written with its count of secondary faults as it was. -/
theorem keepSq (h : InBounds n s) {v : Sq} (hv : v.secondaryCount = s.sq.secondaryCount) : InBounds n (s.setSq v) :=
  h.setSq (hv ▸ h.secondary)

theorem setLp {m : Nat} (h : InBounds n s) {v : Lp} (hv : v.InBounds m) : InBounds m (s.setLp v) :=
  ⟨h.cu, h.exceptions, h.secondary, hv⟩

/-- The link ports written with their queues as they were. -/
theorem keepLp (h : InBounds n s) {v : Lp} (hv : v.queues = s.lp.queues) : InBounds n (s.setLp v) := by
  simp only [Lp.queues, Prod.mk.injEq] at hv
  obtain ⟨hacks, hs, hp, hm, hq⟩ := hv
  refine h.setLp (h.links.of_notices (hacks ▸ h.links.acks) fun u => ?_)
  cases u with
  | s => exact hs
  | p => exact hp
  | m => exact hm
  | q => exact hq

/-- The blocks that hold no bounded field, changed. -/
theorem of_frame (h : InBounds n s) (hc : t.cu = s.cu) (hk : t.stk = s.stk) (hq : t.sq = s.sq) (hl : t.lp = s.lp) :
    InBounds n t :=
  ⟨hc ▸ h.cu, hk ▸ h.exceptions, hq ▸ h.secondary, hl ▸ h.links⟩

theorem setPe (h : InBounds n s) (v : Pe) : InBounds n (s.setPe v) := h.of_frame rfl rfl rfl rfl
theorem setZt (h : InBounds n s) (v : Zt) : InBounds n (s.setZt v) := h.of_frame rfl rfl rfl rfl
theorem setRs (h : InBounds n s) (v : Rs) : InBounds n (s.setRs v) := h.of_frame rfl rfl rfl rfl
theorem setLu (h : InBounds n s) (v : Lu) : InBounds n (s.setLu v) := h.of_frame rfl rfl rfl rfl
theorem setPending (h : InBounds n s) (v : List Instr) : InBounds n (s.setPending v) := h.of_frame rfl rfl rfl rfl
theorem drawn (h : InBounds n s) : InBounds n s.drawn := h.of_frame rfl rfl rfl rfl

theorem ite {p : Prop} [Decidable p] (hs : InBounds n s) (ht : InBounds n t) : InBounds n (if p then s else t) := by
  split
  · exact hs
  · exact ht

/-! ## Sending, updates and changes of state -/

theorem arrive (h : InBounds n s) (w : Port) : InBounds n (s.arrive w) := h.setLp (h.links.arrive _ _ w)

theorem answer (h : InBounds n s) (tag : Byte) (a : Answer) : InBounds (n + 1) (s.answer tag a) :=
  h.setLp (h.links.answer _ tag a)

theorem announce (h : InBounds n s) : InBounds n s.announce :=
  h.setLp ((((h.links.notify _ _ .s).notify _ _ .p).notify _ _ .m).notify _ _ .q)

theorem stopDryWatch (h : InBounds n s) : InBounds n s.stopDryWatch := ite h (h.keepSq (by rfl))

theorem noticeLimited (h : InBounds n s) : InBounds n s.noticeLimited := ite (h.keepStk (by rfl)) h

theorem sendUpdate (h : InBounds n s) : InBounds n s.sendUpdate := h.setLp (h.links.takeUpdate _ _)

theorem updateCore (h : InBounds n s) : InBounds n s.updateCore := (h.setPe _).noticeLimited.stopDryWatch.sendUpdate

theorem enter (h : InBounds n s) (st : SeqState) (rec : Option FaultRecord) : InBounds n (s.enter st rec) :=
  (h.keepSq (by rfl)).setLu _

theorem clearIndications (h : InBounds n s) : InBounds n s.clearIndications :=
  ite (h.keepLp (by rfl)) h

theorem handOn (h : InBounds n s) : InBounds n s.handOn := h.clearIndications.announce.updateCore

theorem change (h : InBounds n s) (st : SeqState) : InBounds n (s.change st) := (h.enter st none).handOn

theorem setPhase (h : InBounds n s) (st : SeqState) : InBounds n (s.setPhase st) := h.keepSq (by rfl)

/-! ## Faults -/

theorem startFlood (h : InBounds n s) : InBounds n s.startFlood :=
  (h.keepSq (by rfl)).setStk (Stk.floodStart_exceptions_le h.exceptions _ _ _)

theorem enterFault (h : InBounds n s) (code : FaultCode) (source : FaultSource) :
    InBounds n (s.enterFault code source) :=
  have hdropped : InBounds n ((s.enter (.fault (State.faultPhase s.sq.st)) (some (s.recordOf code source))).dropScan) :=
    ((h.enter _ _).keepSq (by rfl))
  (ite hdropped.startFlood hdropped).handOn

theorem reportFault (h : InBounds n s) (code : FaultCode) (source : FaultSource) :
    InBounds n (s.reportFault code source) := by
  unfold State.reportFault
  split
  · exact h.enterFault code source
  · exact h.setSq (Nat.min_le_right _ _)
  · exact h

theorem travelCheck (h : InBounds n s) (bounded : Bool) : InBounds n (s.travelCheck bounded) :=
  ite (h.reportFault _ _) h

theorem reversalCheck (h : InBounds n s) : InBounds n s.reversalCheck := ite (h.reportFault _ _) h

/-! ## Heating, dwell, runout and the approach -/

theorem startPostQuench (h : InBounds n s) (st : SeqState) : InBounds n (s.startPostQuench st) :=
  ((h.setPhase st).keepSq (by rfl)).updateCore

theorem judgePostQuench (h : InBounds n s) : InBounds n s.judgePostQuench :=
  ite (ite (h.startPostQuench _) h) (ite (ite (h.startPostQuench _) h) h)

theorem settle (h : InBounds n s) : InBounds n s.settle := ite (h.keepSq (by rfl)) h

theorem enterDwell (h : InBounds n s) (z : Nat) : InBounds n (s.enterDwell z) :=
  have hchanged : InBounds n ((s.pointDwell z).change (.dwell .settling)) := (h.keepSq (by rfl)).change _
  (hchanged.keepStk (by rfl)).settle

theorem enterRunout (h : InBounds n s) : InBounds n s.enterRunout :=
  have hchanged : InBounds n (s.change (.runout .travel)) := h.change _
  (hchanged.keepStk (by simp)).judgePostQuench

theorem arrivalChecks (h : InBounds n s) : InBounds n s.arrivalChecks := by
  unfold State.arrivalChecks
  split
  · split
    · exact h.enterDwell _
    · exact ite h.enterRunout h
  · exact h

theorem enterHeating (h : InBounds n s) : InBounds n s.enterHeating :=
  have hentered : InBounds n ((s.enter .heating none).startWatches) := (h.enter _ _).keepSq (by rfl)
  (hentered.handOn.keepStk (by simp)).reversalCheck.arrivalChecks

theorem judgeStart (h : InBounds n s) (expired : Bool) : InBounds n (s.judgeStart expired) := h.keepSq (by rfl)

theorem rejudge (h : InBounds n s) : InBounds n s.rejudge :=
  ite (ite (h.judgeStart _).enterHeating (h.judgeStart _)) h

theorem update (h : InBounds n s) : InBounds n s.update := ite h.updateCore h.updateCore.rejudge

theorem heatOrWait (h : InBounds n s) : InBounds n s.heatOrWait := ite h.enterHeating (h.keepSq (by rfl)).update

theorem arriveRunIn (h : InBounds n s) : InBounds n s.arriveRunIn :=
  ite (h.reportFault _ _) (h.judgeStart _).heatOrWait

theorem runInCheck (h : InBounds n s) : InBounds n s.runInCheck :=
  ite (ite (h.reportFault _ _) (ite h.arriveRunIn h)) h

/-! ## Holds -/

theorem enterHeld (h : InBounds n s) (brk : HeldFrom) : InBounds n (s.enterHeld brk) := (h.keepSq (by rfl)).change _

theorem enterQuenchout (h : InBounds n s) (brk : HeldFrom) : InBounds n (s.enterQuenchout brk) :=
  have hchanged := (h.keepSq (by rfl)).change
    (.quenchout .travel)
  (hchanged.keepStk (by rfl)).judgePostQuench

theorem holdRequest (h : InBounds n s) : InBounds n s.holdRequest := by
  unfold State.holdRequest
  cases s.sq.st with
  | seek => exact h.enterHeld _
  | approach ph => exact h.enterHeld _
  | heating => exact h.enterQuenchout _
  | dwell ph => exact h.enterQuenchout _
  | idle | armed | runout ph | done | quenchout ph | held | fault ph => exact h

theorem writeHold (h : InBounds n s) (field : Port) (v : Bool) : InBounds n (s.writeHold field v) :=
  have hwritten : InBounds n (s.setLp { s.lp with control := s.lp.control.setHold v field }) :=
    h.keepLp (by rfl)
  ite hwritten.holdRequest hwritten

/-! ## A frontier advance -/

theorem trackAdvance (h : InBounds n s) : InBounds n s.trackAdvance :=
  have hpassed : InBounds n s.passFrontier := h.setStk (Stk.advance_exceptions_le h.exceptions _ _ _ _)
  have hnoticed : InBounds n (s.passFrontier.noticeEmpty s.stk.track) := ite hpassed.judgePostQuench hpassed
  hnoticed.keepStk (by simp)

theorem markAdvance (h : InBounds n s) (old : Int) (k : MarkNo) : InBounds n (s.markAdvance old k) :=
  ite (ite ((h.setLu _).setCu (h.cu.capture _)) (h.setLu _)) h

theorem marksAdvance (h : InBounds n s) (old : Int) : InBounds n (s.marksAdvance old) :=
  ite ((((h.markAdvance old 0).markAdvance old 1).markAdvance old 2).markAdvance old 3) h

theorem movePointer (h : InBounds n s) : InBounds n s.movePointer := by
  unfold State.movePointer
  split
  · exact h
  · exact h.keepSq (by rfl)

theorem drainCheck (h : InBounds n s) (limit : Int) : InBounds n (s.drainCheck limit) := ite (h.reportFault _ _) h

theorem seqAdvance (h : InBounds n s) : InBounds n s.seqAdvance := by
  unfold State.seqAdvance
  split
  · exact ite (h.reportFault _ _) h
  · exact ite h.arriveRunIn h
  · exact ite (h.reportFault _ _) h
  · exact h.arrivalChecks
  · split
    · exact h
    · exact ite (h.reportFault _ _) h
  · exact h.judgePostQuench.drainCheck _
  · exact h
  · exact h.movePointer.drainCheck _
  · exact h.movePointer
  · exact h.movePointer
  all_goals exact h

theorem advance (h : InBounds n s) (old : Int) : InBounds n (s.advance old) :=
  (h.trackAdvance.marksAdvance old).seqAdvance

/-! ## Commit -/

theorem takeOrigin (h : InBounds n s) : InBounds n s.takeOrigin := by
  unfold State.takeOrigin
  split
  · exact h
  · exact h.setCu (h.cu.takeHeader _)

theorem rejudgeQuench (h : InBounds n s) : InBounds n s.rejudgeQuench := by
  unfold State.rejudgeQuench
  split
  · exact h
  · exact h.keepLp (by rfl)

theorem exchange (h : InBounds n s) : InBounds n s.exchange :=
  have hjudged : InBounds n ((s.setZt s.zt.exchange).takeOrigin.rejudgeQuench) :=
    (h.setZt _).takeOrigin.rejudgeQuench
  ite hjudged (hjudged.change _)

/-! ## The control word -/

theorem judgeClear (h : InBounds n s) : InBounds n s.judgeClear.1 := by
  unfold State.judgeClear
  split
  · exact h
  · split
    · split
      · exact h
      · exact (h.setSq (Nat.zero_le 255)).change _
    · exact h

theorem runApproach (h : InBounds n s) : InBounds n s.runApproach := ((h.change _).travelCheck _).runInCheck

theorem acceptRun (h : InBounds n s) : InBounds n s.acceptRun :=
  have hopened : InBounds n s.fillScanRecord.openScan :=
    ((h.keepSq (by rfl)).setStk (by exact Nat.zero_le 32)).keepCu (by rfl)
  ite (((hopened.keepSq (by rfl)).change _).travelCheck _) hopened.runApproach

theorem judgeRun (h : InBounds n s) : InBounds n s.judgeRun.1 := by
  unfold State.judgeRun
  split
  · exact h
  · split
    · exact h
    · split
      · exact h
      · exact h.acceptRun

theorem reenter (h : InBounds n s) (brk : HeldFrom) : InBounds n (s.reenter brk) := by
  cases brk with
  | seek => exact (h.change _).travelCheck _
  | approach =>
    have hchecked := (h.change (.approach .travel)).travelCheck false
    exact ite hchecked.arriveRunIn hchecked
  | heating brk => exact h.enterHeating.travelCheck _
  | dwell brk => exact h.enterHeating.travelCheck _

theorem judgeResume (h : InBounds n s) : InBounds n s.judgeResume.1 := by
  unfold State.judgeResume
  split
  · exact h
  · split
    · exact h
    · split
      · exact h
      · split
        · exact h
        · exact (h.keepSq (by rfl)).reenter _

theorem takeRun (h : InBounds n s) : InBounds n s.takeRun.1 := by
  unfold State.takeRun
  cases s.sq.st with
  | armed | done => exact h.judgeRun
  | held => exact h.judgeResume
  | idle | fault ph | seek | approach ph | heating | dwell ph | runout ph | quenchout ph => exact h

theorem takeHold (h : InBounds n s) (port field : Port) (w : ControlWord) : InBounds n (s.takeHold port field w) :=
  ite (h.writeHold _ _) h

theorem takeAbort (h : InBounds n s) (port : Port) (w : ControlWord) : InBounds n (s.takeAbort port w) :=
  ite (h.reportFault _ _) h

theorem takeKeepOn (h : InBounds n s) (port : Port) (w : ControlWord) : InBounds n (s.takeKeepOn port w) :=
  ite (h.keepLp (by rfl)) h

theorem takeShared (h : InBounds n s) (port : Port) (w : ControlWord) : InBounds n (s.takeShared port w) :=
  (((((h.takeHold port .s w).takeHold port .p w).takeHold port .m w).takeHold port .q w).takeAbort port w).takeKeepOn
    port w

theorem takeClearField (h : InBounds n s) (w : ControlWord) : InBounds n (s.takeClearField w).1 := by
  unfold State.takeClearField
  split
  · exact h.judgeClear
  · exact h

theorem takeRunField (h : InBounds n s) (w : ControlWord) : InBounds n (s.takeRunField w).1 := by
  unfold State.takeRunField
  split
  · exact h.takeRun
  · exact h

theorem superviseWord (h : InBounds n s) (tag : Byte) (w : ControlWord) : InBounds (n + 1) (s.superviseWord tag w) :=
  (((h.takeShared .s w).takeClearField w).takeRunField w).answer _ _

/-- Where a place of the ACK queue is left, at most seven are taken. -/
theorem of_room (h : InBounds 8 s) (hroom : ¬ Config.ackDepth ≤ s.lp.acks.length) : InBounds 7 s :=
  ⟨h.cu, h.exceptions, h.secondary, by unfold Config.ackDepth at hroom; omega, h.links.notices⟩

theorem judgeControl (h : InBounds 8 s) (tag : Byte) (w : ControlWord) : InBounds 8 (s.judgeControl tag w) := by
  unfold State.judgeControl
  split
  · exact h
  · next hroom => exact ite ((h.of_room hroom).answer _ _) ((h.of_room hroom).superviseWord tag w)

theorem takeControl (h : InBounds 8 s) (port : Port) (tag : Byte) (w : ControlWord) :
    InBounds 8 (s.takeControl port tag w) :=
  ite ((h.arrive .s).judgeControl tag w) ((h.arrive port).takeShared port w)

/-! ## Requests -/

/-- A request whose own rule keeps the bounds, with the place that its answer takes. -/
theorem takeRequest {α : Type} (h : InBounds 8 s) (tag : Byte) (p : Payload α) {body : α → State → State × Answer}
    (hbody : ∀ f u, InBounds 7 u → InBounds 7 (body f u).1) : InBounds 8 (takeRequest tag p body s) := by
  unfold Machine.takeRequest judgeRequest
  split
  · exact h.arrive .s
  · next hroom =>
    have hleft := (h.arrive .s).of_room hroom
    split
    · exact hleft.answer _ _
    · cases p with
      | wrongLength => exact hleft.answer _ _
      | fields f => exact (hbody f _ hleft).answer _ _

theorem deliverFirst (h : InBounds n s) (kind : BufferKind) (parts : List (List Byte)) :
    InBounds n (s.deliverFirst kind parts).1 :=
  h.keepLp (by rfl)

theorem deliverLater (h : InBounds n s) (kind : BufferKind) (part : Nat) : InBounds n (s.deliverLater kind part).1 :=
  h.of_frame (by simp) (by simp) (by simp) (by simp)

theorem readStatus (h : InBounds n s) (part : Nat) : InBounds n (State.readStatus part s).1 := by
  unfold State.readStatus
  split
  · exact h.deliverFirst _ _
  · exact h.deliverLater _ _

theorem setStaging (h : InBounds n s) (v : Option HeaderPart1) : InBounds n (s.setStaging v) :=
  h.keepLp (by rfl)

theorem writeHeader (h : InBounds n s) (w : HeaderWrite) : InBounds n (State.writeHeader w s).1 := by
  unfold State.writeHeader
  split
  · split
    · split
      · exact h.setStaging _
      · exact (h.setStaging _).setZt _
    · exact h.setStaging _
  · split
    · exact h
    · split
      · exact h
      · exact (h.setStaging _).setZt _
  · exact h

theorem writeZone (h : InBounds n s) (w : ZoneWrite) : InBounds n (State.writeZone w s).1 := by
  unfold State.writeZone
  split
  · split
    · exact h
    · split
      · exact h
      · exact h.setZt _
  · exact h

theorem readZone (h : InBounds n s) (r : ZoneRead) : InBounds n (State.readZone r s).1 := by
  unfold State.readZone
  dsimp only
  split
  · exact h
  · split
    · exact h.deliverLater _ _
    · split
      · exact h
      · split
        · split
          · exact h
          · exact h.deliverFirst _ _
        · exact h.deliverFirst _ _

theorem commit (h : InBounds n s) (u : Unit) : InBounds n (State.commit u s).1 := by
  unfold State.commit
  split
  · exact h
  · split
    · exact h
    · split
      · exact h
      · exact h.exchange

theorem disarm (h : InBounds n s) (u : Unit) : InBounds n (State.disarm u s).1 := by
  unfold State.disarm
  split
  · exact h.change _
  · split
    · exact ((h.keepStk (by rfl)).keepSq (by rfl)).change _
    · exact h

theorem readSummary (h : InBounds n s) (part : Nat) : InBounds n (State.readSummary part s).1 := by
  unfold State.readSummary
  split
  · split
    · exact h
    · exact (h.deliverFirst _ _).keepStk (by rfl)
  · exact h.deliverLater _ _

theorem readException (h : InBounds n s) (u : Unit) : InBounds n (State.readException u s).1 := by
  unfold State.readException
  split
  · exact h
  · exact h.setStk (by have := h.exceptions; simp only [Stk.dropException, List.length_tail]; omega)

theorem readCapture (h : InBounds n s) (u : Unit) : InBounds n (State.readCapture u s).1 := by
  unfold State.readCapture
  split
  · exact h
  · exact h.setCu h.cu.dropCapture

theorem writePosition (h : InBounds n s) (w : PositionWrite) : InBounds n (State.writePosition w s).1 := by
  unfold State.writePosition
  split
  · exact h
  · split
    · exact h
    · next hpassed => exact h.setCu (h.cu.writePosition hpassed)

theorem writeLineConfig (h : InBounds n s) (w : LineWrite) : InBounds n (State.writeLineConfig w s).1 :=
  h.of_frame (by simp) (by simp) (by simp) (by simp)

theorem writeLatches (h : InBounds n s) (l : List (Nat × Bool)) : InBounds n (State.writeLatches l s).1 :=
  h.of_frame (by simp) (by simp) (by simp) (by simp)

theorem writeMark (h : InBounds n s) (w : MarkWrite) : InBounds n (State.writeMark w s).1 :=
  h.of_frame (by simp) (by simp) (by simp) (by simp)

theorem loadRecipe (h : InBounds n s) (slot : Nat) : InBounds n (State.loadRecipe slot s).1 :=
  h.of_frame (by simp) (by simp) (by simp) (by simp)

theorem storeRecipe (h : InBounds n s) (slot : Nat) : InBounds n (State.storeRecipe slot s).1 :=
  h.of_frame (by simp) (by simp) (by simp) (by simp)

theorem eraseRecipe (h : InBounds n s) (slot : Nat) : InBounds n (State.eraseRecipe slot s).1 :=
  h.of_frame (by simp) (by simp) (by simp) (by simp)

theorem writeOptions (h : InBounds n s) (w : OptionsWrite) : InBounds n (State.writeOptions w s).1 :=
  h.of_frame (by simp) (by simp) (by simp) (by simp)

theorem readLines (h : InBounds n s) (u : Unit) : InBounds n (State.readLines u s).1 :=
  h.of_frame (by simp) (by simp) (by simp) (by simp)

theorem readFault (h : InBounds n s) (u : Unit) : InBounds n (State.readFault u s).1 :=
  h.of_frame (by simp) (by simp) (by simp) (by simp)

theorem requestReset (h : InBounds n s) (u : Unit) : InBounds n (State.requestReset u s).1 := by
  unfold State.requestReset
  split
  · exact h
  · split
    · exact h
    · exact h.keepLp (by rfl)

/-! ## The recipe store's completions, the resets and the supply -/

theorem completeLoad (h : InBounds n s) : InBounds n s.completeLoad := by
  have hcommitted : ∀ {u : State}, InBounds n u → InBounds n u.commitStartUp := by
    intro u hu
    unfold State.commitStartUp
    split
    · exact hu.exchange.setRs _
    · exact hu.setRs _
  unfold State.completeLoad
  split
  · exact ite (hcommitted ((h.setZt _).setRs _)) ((h.setZt _).setRs _)
  · exact h

theorem blocksReset (time : Nat) (scan : Word32) (phase : EncPhase) (pins : Vector PinDrive 8) (railMv : Nat) (rs : Rs)
    (s : State) : InBounds n (s.blocksReset time scan phase pins railMv rs) :=
  ⟨Cu.InBounds.resetValue time phase, Nat.zero_le 32, Nat.zero_le 255, Lp.InBounds.resetValue⟩

theorem startUpLoad (h : InBounds n s) : InBounds n s.startUpLoad := h.of_frame (by simp) (by simp) (by simp) (by simp)

theorem powerOn (e : ResetEnd) (s : State) : InBounds n (s.powerOn e) := (blocksReset _ _ _ _ _ _ _).startUpLoad

theorem warmReset (s : State) : InBounds n s.warmReset := (blocksReset _ _ _ _ _ _ _).startUpLoad

theorem setRail (h : InBounds n s) (railMv : Nat) : InBounds n (s.setRail railMv) := h.keepSq (by rfl)

theorem takeRail (h : InBounds n s) (railMv : Nat) : InBounds n (s.takeRail railMv) :=
  ite ((h.setRail railMv).reportFault _ _) (h.setRail railMv)

/-! ## The links' own commands and the reports -/

theorem livenessExpiry (h : InBounds n s) (port : Port) : InBounds n (s.livenessExpiry port) := by
  have hlost : InBounds n (s.loseLink port) := h.setLp (h.links.lose port)
  unfold State.livenessExpiry
  split
  · cases port with
    | s =>
      have hpolicy : InBounds n (s.loseLink .s).applyLossPolicy := ite (hlost.writeHold _ _) hlost
      exact ite (warmReset _) hpolicy
    | p => exact hlost.reportFault _ _
    | m => exact hlost.reportFault _ _
    | q =>
      have hjudged : InBounds n (s.loseLink .q).loseQuench :=
        ite (hlost.keepLp (by rfl)) hlost
      exact hjudged.reportFault _ _
  · exact h

theorem transmitComplete (h : InBounds n s) (port : Port) : InBounds n (s.transmitComplete port) :=
  ite (h.setLp (h.links.endFrame _ port)) h

theorem powerSendExpiry (h : InBounds n s) : InBounds n s.powerSendExpiry :=
  have hstopped : InBounds n (s.setLp { s.lp with powerSend := none }) := h.keepLp (by rfl)
  ite (h.setLp (hstopped.links.markDue _ .p)) h

theorem quenchSendExpiry (h : InBounds n s) : InBounds n s.quenchSendExpiry :=
  have hstopped : InBounds n (s.setLp { s.lp with quenchSend := none }) := h.keepLp (by rfl)
  ite (h.setLp (hstopped.links.markDue _ .q)) h

theorem answerRole (h : InBounds 8 s) (tag : Byte) : InBounds 8 (s.answerRole tag) := by
  unfold State.answerRole
  split
  · exact h.arrive .s
  · next hroom => exact ((h.arrive .s).of_room hroom).answer _ _

theorem takeTrip (h : InBounds n s) (r : PowerReport) : InBounds n (s.takeTrip r) :=
  have hfault := h.drawn.reportFault .inverter (.port .p)
  ite (hfault.keepStk (by simp))
    ((h.drawn.keepStk (by simp)).reportFault .inverter (.port .p))

theorem takePower (h : InBounds n s) (r : PowerReport) (st : InverterState) : InBounds n (s.takePower r st) :=
  have hkept : InBounds n (s.keepPower r st) := h.keepLp (by rfl)
  have hcredited : InBounds n ((s.keepPower r st).creditPower r) := hkept.keepStk (by simp)
  have hnoted : InBounds n (((s.keepPower r st).creditPower r).noteLimiting st) :=
    ite (hcredited.keepStk (by rfl)) hcredited
  ite (hkept.takeTrip r) hnoted.rejudge

theorem powerReport (h : InBounds n s) (p : Payload PowerReport) : InBounds n (s.powerReport p) := by
  unfold State.powerReport
  split
  · exact h.arrive .p
  · split
    · exact h.arrive .p
    · exact (h.arrive .p).takePower _ _

theorem takeDrive (h : InBounds n s) (st : DriveState) : InBounds n (s.takeDrive st) :=
  have hkept : InBounds n (s.keepDrive st) := h.keepLp (by rfl)
  ite (hkept.reportFault _ _) hkept

theorem driveStatus (h : InBounds n s) (p : Payload Nat) : InBounds n (s.driveStatus p) := by
  unfold State.driveStatus
  split
  · exact h.arrive .m
  · split
    · exact h.arrive .m
    · exact (h.arrive .m).takeDrive _

theorem watchPressure (h : InBounds n s) (r : QuenchReport) : InBounds n (s.watchPressure r) := by
  unfold State.watchPressure
  split
  · exact h
  · exact ite (ite (h.keepSq (by rfl)) h) (h.keepSq (by rfl))

theorem quenchReport (h : InBounds n s) (p : Payload QuenchReport) : InBounds n (s.quenchReport p) := by
  unfold State.quenchReport
  split
  · exact h.arrive .q
  · next r =>
    have harrived := h.arrive .q
    have hkept : InBounds n ((s.arrive .q).keepQuench (State.boundQuench r)) :=
      harrived.keepLp (by rfl)
    have hjudged : InBounds n ((s.arrive .q).keepQuench (State.boundQuench r)).judgeIndications :=
      ite hkept hkept.rejudgeQuench
    exact hjudged.watchPressure _

/-! ## The receivers -/

theorem setRx (h : InBounds n s) (port : Port) (rx : RxPhase) (gap : Option Nat) : InBounds n (s.setRx port rx gap) :=
  h.setLp (h.links.setPort (by exact h.links.notices port) port)

theorem discardFrame (h : InBounds n s) (port : Port) : InBounds n (s.discardFrame port) := h.setRx port _ _

theorem takeControlPayload (h : InBounds 8 s) (port : Port) (tag : Byte) (l : List Byte) :
    InBounds 8 (s.takeControlPayload port tag l) := by
  unfold State.takeControlPayload
  split
  · exact h.takeControl port tag _
  · unfold State.refuseControl
    split
    · exact h.arrive port
    · next hroom => exact ((h.arrive port).of_room (fun hfull => hroom (.inr hfull))).answer _ _

theorem takeSupervisor (h : InBounds 8 s) (k : FrameKind) (tag : Byte) (l : List Byte) :
    InBounds 8 (s.takeSupervisor k tag l) := by
  cases k with
  | control => exact h.takeControlPayload .s tag l
  | readStatus => exact h.takeRequest tag _ fun f _ hu => hu.readStatus f
  | writeHeader => exact h.takeRequest tag _ fun f _ hu => hu.writeHeader f
  | writeZone => exact h.takeRequest tag _ fun f _ hu => hu.writeZone f
  | readZone => exact h.takeRequest tag _ fun f _ hu => hu.readZone f
  | commit => exact h.takeRequest tag _ fun f _ hu => hu.commit f
  | disarm => exact h.takeRequest tag _ fun f _ hu => hu.disarm f
  | loadRecipe => exact h.takeRequest tag _ fun f _ hu => hu.loadRecipe f
  | storeRecipe => exact h.takeRequest tag _ fun f _ hu => hu.storeRecipe f
  | eraseRecipe => exact h.takeRequest tag _ fun f _ hu => hu.eraseRecipe f
  | readSummary => exact h.takeRequest tag _ fun f _ hu => hu.readSummary f
  | readException => exact h.takeRequest tag _ fun f _ hu => hu.readException f
  | readCapture => exact h.takeRequest tag _ fun f _ hu => hu.readCapture f
  | readFault => exact h.takeRequest tag _ fun f _ hu => hu.readFault f
  | writePositionConfig => exact h.takeRequest tag _ fun f _ hu => hu.writePosition f
  | writeLineConfig => exact h.takeRequest tag _ fun f _ hu => hu.writeLineConfig f
  | writeLine => exact h.takeRequest tag _ fun f _ hu => hu.writeLatches f
  | readLines => exact h.takeRequest tag _ fun f _ hu => hu.readLines f
  | writeMark => exact h.takeRequest tag _ fun f _ hu => hu.writeMark f
  | writeOptions => exact h.takeRequest tag _ fun f _ hu => hu.writeOptions f
  | reset => exact h.takeRequest tag _ fun f _ hu => hu.requestReset f
  | powerReport | driveStatus | quenchReport | sentByPart => exact h.answerRole tag

theorem takeFrame (h : InBounds 8 s) (port : Port) (kind tag : Byte) (l : List Byte) :
    InBounds 8 (s.takeFrame port kind tag l) := by
  unfold State.takeFrame
  split
  · exact h.arrive _
  · exact h.takeSupervisor _ tag l
  · exact h.takeControlPayload _ tag l
  · exact h.powerReport _
  · exact h.driveStatus _
  · exact h.quenchReport _
  · exact h.arrive _

theorem takeCharacter (h : InBounds 8 s) (port : Port) (c : Byte) (stopHigh : Bool) :
    InBounds 8 (s.takeCharacter port c stopHigh) := by
  have hgood : InBounds 8 (s.goodCharacter port c) := by
    unfold State.goodCharacter
    dsimp only
    split
    · exact ite (h.setRx _ _ _) h
    · exact h.setRx _ _ _
    · exact h.setRx _ _ _
    · exact ite (h.discardFrame _) (h.setRx _ _ _)
    · exact ite (h.setRx _ _ _) (h.setRx _ _ _)
    · exact h.setRx _ _ _
    · exact ite (h.takeFrame _ _ _ _) (h.discardFrame _)
  exact ite hgood (h.discardFrame _)

/-! ## The timers and the lines -/

theorem updateExpiry (h : InBounds n s) : InBounds n s.updateExpiry := ite (h.setPe _).update.settle h

theorem waitExpiry (h : InBounds n s) : InBounds n s.waitExpiry :=
  ite (ite (h.reportFault _ _) (ite (h.reportFault _ _) (h.keepSq (by rfl)))) h

theorem dwellExpiry (h : InBounds n s) : InBounds n s.dwellExpiry := ite (h.keepSq (by rfl)).enterHeating h

theorem postQuenchExpiry (h : InBounds n s) : InBounds n s.postQuenchExpiry :=
  have hdone := h.change .done
  ite (ite (hdone.keepStk (by rfl)) (ite (h.change _) h)) h

theorem floodExpiry (h : InBounds n s) : InBounds n s.floodExpiry :=
  ite ((h.keepStk (by rfl)).keepSq (by rfl)).update h

theorem pressureWatchExpiry (h : InBounds n s) : InBounds n s.pressureWatchExpiry :=
  ite ((h.keepSq (by rfl)).reportFault _ _) h

theorem datumStep (h : InBounds n s) (r : RecipeHeader) (c : Int) : InBounds n (s.datumStep r c) :=
  have hchecked := (h.setCu (h.cu.datumStep (r.datumCoord - c))).travelCheck (s.cu.datumStep (r.datumCoord - c)).2
  ite (hchecked.change _).runInCheck hchecked

theorem datumEdge (h : InBounds n s) (c : Int) : InBounds n (s.datumEdge c) := by
  unfold State.datumEdge
  split
  · exact h
  · exact ite (h.datumStep _ c) (ite (h.setStk (by simpa [Stk.noteDrift] using h.exceptions)) h)

theorem indexEdge (h : InBounds n s) : InBounds n s.indexEdge :=
  have hmeasured := h.setLu (s.lu.indexEdge s.now s.cu.frontier).1
  have hcounted : InBounds n (s.setLu (s.lu.indexEdge s.now s.cu.frontier).1).countRevolution :=
    hmeasured.keepSq (by rfl)
  ite (ite (ite (hcounted.reportFault _ _) hcounted) hmeasured.rejudge) hmeasured

theorem handLevel (h : InBounds n s) (fn : InputFn) (taken level : Bool) (c : Int) :
    InBounds n (s.handLevel fn taken level c) := by
  cases fn with
  | datum => exact ite (h.datumEdge c) h
  | endProbe => exact ite (ite (h.reportFault _ _) h) h
  | spindleIndex => exact ite h.indexEdge h
  | coilWater => exact ite h.rejudge (h.reportFault _ _).rejudge
  | interlock => exact ite h (h.reportFault _ _)
  | general => exact h

theorem filterExpiry (h : InBounds n s) (k : LineNo) : InBounds n (s.filterExpiry k) := by
  have haccepted : InBounds n (s.acceptLine k) := h.setLu _
  unfold State.filterExpiry
  dsimp only
  split
  · exact h
  · split
    · split
      · exact haccepted
      · exact handLevel (ite (haccepted.setCu (haccepted.cu.capture _)) haccepted) _ _ _ _
    · exact h

theorem withdrawalExpiry (h : InBounds n s) : InBounds n s.withdrawalExpiry := ite (h.setLu _).rejudge h

/-! ## The encoder and the passing of time -/

theorem setEncPhase (h : InBounds n s) (p : EncPhase) : InBounds n (s.setEncPhase p) :=
  h.keepCu (by rfl)

theorem takeEdge (h : InBounds n s) (up : Bool) : InBounds n (s.takeEdge up) :=
  have hmoved : InBounds n (s.moveEdge up) := h.setCu (h.cu.stepEdge up).advanceFrontier
  have hchecked := (hmoved.travelCheck (s.cu.stepEdge up).2).reversalCheck
  ite (hchecked.advance _) hchecked

theorem takeLevels (h : InBounds n s) (a b : Bool) : InBounds n (s.takeLevels a b) := by
  have hlegal : ∀ p forward, InBounds n (s.legalTransition p forward) := fun p forward =>
    ite ((h.setEncPhase p).takeEdge _) (h.setEncPhase p)
  unfold State.takeLevels
  dsimp only
  split
  · exact h
  · exact hlegal _ _
  · exact hlegal _ _
  · exact reportFault (h.keepCu (by rfl)) _ _

theorem tick (h : InBounds n s) : InBounds n s.tick := h.keepCu (by rfl)

theorem queueDue (h : InBounds n s) : InBounds n s.queueDue := by
  unfold State.queueDue
  exact ⟨h.cu, h.exceptions, h.secondary, h.links⟩

theorem idle (h : InBounds n s) : InBounds n s.idle := ite h.tick h.queueDue

/-! ## Every command -/

theorem next (h : InBounds n s) (e : (.next s : Host.Outcome State Fault Refusal) = .next t) : InBounds n t := by
  cases e; exact h

theorem exec (h : InBounds 8 s) (c : Instr) (e : exec c s = .next t) : InBounds 8 t := by
  cases c with
  | encoderTransition a b => exact next (h.takeLevels a b) e
  | indexRisingEdge => exact next (h.keepCu (by rfl)) e
  | updateExpiry => exact next h.updateExpiry e
  | holdRequest port tag field word => exact next (h.takeControl port tag _) e
  | abort port tag word => exact next (h.takeControl port tag _) e
  | quenchKeepOn port tag on word => exact next (h.takeControl port tag _) e
  | faultClear tag word => exact next (h.takeControl .s tag _) e
  | run tag word => exact next (h.takeControl .s tag _) e
  | readStatus tag p => exact next (h.takeRequest tag p fun f _ hu => hu.readStatus f) e
  | writeHeader tag p => exact next (h.takeRequest tag p fun f _ hu => hu.writeHeader f) e
  | writeZone tag p => exact next (h.takeRequest tag p fun f _ hu => hu.writeZone f) e
  | readZone tag p => exact next (h.takeRequest tag p fun f _ hu => hu.readZone f) e
  | commit tag p => exact next (h.takeRequest tag p fun f _ hu => hu.commit f) e
  | disarm tag p => exact next (h.takeRequest tag p fun f _ hu => hu.disarm f) e
  | loadRecipe tag p => exact next (h.takeRequest tag p fun f _ hu => hu.loadRecipe f) e
  | storeRecipe tag p => exact next (h.takeRequest tag p fun f _ hu => hu.storeRecipe f) e
  | eraseRecipe tag p => exact next (h.takeRequest tag p fun f _ hu => hu.eraseRecipe f) e
  | readSummary tag p => exact next (h.takeRequest tag p fun f _ hu => hu.readSummary f) e
  | readException tag p => exact next (h.takeRequest tag p fun f _ hu => hu.readException f) e
  | readCapture tag p => exact next (h.takeRequest tag p fun f _ hu => hu.readCapture f) e
  | readFault tag p => exact next (h.takeRequest tag p fun f _ hu => hu.readFault f) e
  | writePositionConfig tag p => exact next (h.takeRequest tag p fun f _ hu => hu.writePosition f) e
  | writeLineConfig tag p => exact next (h.takeRequest tag p fun f _ hu => hu.writeLineConfig f) e
  | writeLine tag p => exact next (h.takeRequest tag p fun f _ hu => hu.writeLatches f) e
  | readLines tag p => exact next (h.takeRequest tag p fun f _ hu => hu.readLines f) e
  | writeMark tag p => exact next (h.takeRequest tag p fun f _ hu => hu.writeMark f) e
  | writeOptions tag p => exact next (h.takeRequest tag p fun f _ hu => hu.writeOptions f) e
  | reset tag p => exact next (h.takeRequest tag p fun f _ hu => hu.requestReset f) e
  | answeredRole tag => exact next (h.answerRole tag) e
  | frameDiscard port => exact next (h.discardFrame port) e
  | interCharacterTimeout port => exact next (ite (h.discardFrame port) h) e
  | powerReport p => exact next (h.powerReport p) e
  | driveStatus p => exact next (h.driveStatus p) e
  | quenchReport p => exact next (h.quenchReport p) e
  | livenessExpiry port => exact next (h.livenessExpiry port) e
  | transmitComplete port => exact next (h.transmitComplete port) e
  | powerSendExpiry => exact next h.powerSendExpiry e
  | quenchSendExpiry => exact next h.quenchSendExpiry e
  | warmReset => exact next (ite (warmReset _) h) e
  | powerOnReset levels => exact next (powerOn levels s) e
  | supply railMv => exact next (h.takeRail railMv) e
  | supplyRestored railMv => exact next (h.takeRail railMv) e
  | loadComplete => exact next h.completeLoad e
  | storeComplete | eraseComplete | optionWriteComplete =>
    exact next (h.of_frame (by simp) (by simp) (by simp) (by simp)) e
  | approachWaitExpiry => exact next h.waitExpiry e
  | dwellTimerExpiry => exact next h.dwellExpiry e
  | postQuenchExpiry => exact next h.postQuenchExpiry e
  | floodExpiry => exact next h.floodExpiry e
  | indexWatchExpiry => exact next (ite (h.reportFault _ _) h) e
  | pressureWatchExpiry => exact next h.pressureWatchExpiry e
  | auxPinChange line drive => exact next (h.setLu _) e
  | filterExpiry line => exact next (h.filterExpiry line) e
  | markPulseExpiry mark => exact next (ite (h.setLu _) h) e
  | withdrawalExpiry => exact next h.withdrawalExpiry e
  | holdFieldCleared port tag field word => exact next (h.takeControl port tag _) e
  | discardedKindArrival port => exact next (h.arrive port) e
  | characterReceived port char stopHigh => exact next (h.takeCharacter port char stopHigh) e

theorem step (h : InBounds 8 s) (e : step s = .next t) : InBounds 8 t := by
  unfold Machine.step at e
  split at e
  · exact next h.idle e
  · exact (h.setPending _).exec _ e

end InBounds

/-- Settles O57: the bounds are kept by the passing of time and by every command, each by the operations it is made
of. -/
theorem stepKeepsTheRanges : Obligations.StepKeepsTheRanges := by
  intro s t h e
  rw [rangeInv_iff] at h ⊢
  exact h.step e

end Sys2Proof.Machine
end

section
/-! PROOF. The requests of the coordinate unit: WRITE_POSITION_CONFIG (O40) and READ_CAPTURE (O39). -/

namespace Sys2Proof.Machine

/-! ## WRITE_POSITION_CONFIG (R7, R8) -/

/-- The states in which a WRITE_POSITION_CONFIG is refused SCANNING (R7, assumption 27). -/
theorem positionLocked_iff (w : PositionWrite) (s : State) : s.positionLocked w = true ↔
    s.sq.st.isMotion = true ∨ s.sq.st = .held ∧
      ¬ (w.scaleK = none ∧ w.edgeModeCode = none ∧ w.invertCode = none ∧ w.lower = none ∧ w.upper = none) := by
  simp only [State.positionLocked, positionBeyondTrim, Bool.or_eq_true, Bool.and_eq_true, beq_iff_eq,
    ← Option.ne_none_iff_isSome, Classical.not_and_iff_not_or_not, or_assoc, ne_eq]

/-- What an accepted request carries, each field by its code (R8): the checks have left no other code. -/
theorem writePosition_eq {c : Cu} {pitch : Option Nat} {w : PositionWrite}
    (hw : firstOf (positionTable c pitch w) = none) :
    let mode := match w.edgeModeCode with
      | some 1 => EdgeMode.x1
      | some 2 => .x2
      | some 4 => .x4
      | _ => c.edgeMode
    let invert := (w.invertCode.map (· == 1)).getD c.invert
    let k := w.scaleK.getD c.scaleK
    c.writePosition w = { c with
      scaleK := k
      trimC := (w.trim.map (·.1)).getD c.trimC
      trimDir := (w.trim.map (fun t => if t.2 = 1 then TrimDir.faster else .slower)).getD c.trimDir
      edgeMode := mode
      invert := invert
      lower := w.lower.getD c.lower
      upper := w.upper.getD c.upper
      ring := if k = c.scaleK ∧ mode = c.edgeMode ∧ invert = c.invert then c.ring else []
      encoderError := false } := by
  have h := firstOf_eq_none.1 hw
  simp only [positionTable, List.forall_mem_cons, Option.any_eq_false, decide_eq_false_iff_not] at h
  obtain ⟨-, -, htrim, hmode, hinvert, -⟩ := h
  have etrim : (w.trim.bind (fun t => TrimDir.ofCode t.2)).getD c.trimDir =
      (w.trim.map (fun t => if t.2 = 1 then TrimDir.faster else .slower)).getD c.trimDir := by
    cases ht : w.trim with
    | none => rfl
    | some t =>
      have := htrim t ht
      simp only [Option.bind_some, Option.map_some, Option.getD_some, TrimDir.ofCode]
      split
      · rfl
      · rw [if_pos (by omega)]; rfl
  have emode : (w.edgeModeCode.bind EdgeMode.ofCode).getD c.edgeMode = (match w.edgeModeCode with
      | some 1 => EdgeMode.x1
      | some 2 => .x2
      | some 4 => .x4
      | _ => c.edgeMode) := by
    cases hm : w.edgeModeCode with
    | none => rfl
    | some m =>
      have hcodes : m = 1 ∨ m = 2 ∨ m = 4 := by have := hmode m hm; omega
      rcases hcodes with rfl | rfl | rfl <;> rfl
  have einvert : (w.invertCode.bind flagOfCode).getD c.invert = (w.invertCode.map (· == 1)).getD c.invert := by
    cases hv : w.invertCode with
    | none => rfl
    | some v =>
      have hcodes : v = 0 ∨ v = 1 := by have := hinvert v hv; omega
      rcases hcodes with rfl | rfl <;> rfl
  unfold Cu.writePosition
  dsimp only
  rw [etrim, emode, einvert]

/-- Settles O40: the request is judged on the state after its arrival, which has left every field that it reads. -/
theorem writePositionConfig : Obligations.WritePositionConfig := by
  intro tag w s htaken trimAlone locked pitch mode invert k
  have hexec : exec (.writePositionConfig tag (.fields w)) s = .next
      ((State.writePosition w (s.arrive .s)).1.answer tag (State.writePosition w (s.arrive .s)).2) :=
    congrArg Host.Outcome.next (takeRequest_taken tag w State.writePosition s htaken)
  have hlocked : (s.arrive .s).positionLocked w = true ↔ locked := by rw [positionLocked_iff]; simp [locked, trimAlone]
  have hpitch : (s.arrive .s).boundingPitch = pitch := by simp [State.boundingPitch, State.recipe, pitch]
  have hjudged := positionFailure_eq s.cu pitch w
  rw [hexec]
  unfold State.writePosition
  rw [hpitch, State.arrive_cu]
  refine ⟨fun hl => ?_, fun f hl hf => ?_, fun hl hf => ?_⟩
  · rw [if_pos (hlocked.2 hl)]; rfl
  · rw [if_neg (mt hlocked.1 hl), hjudged, hf]; rfl
  · rw [if_neg (mt hlocked.1 hl), hjudged, hf]
    exact congrArg (fun c => Host.Outcome.next (((s.arrive .s).setCu c).answer tag (Answer.ok [])))
      (writePosition_eq hf)

/-! ## READ_CAPTURE (R22) -/

/-- A stamp's bytes: its source, its edge, its cell time and its coordinate (R192). -/
theorem captureBytes_eq (c : CaptureStamp) : State.captureBytes c = captureLayout c := by
  obtain ⟨source, edge, time, coord⟩ := c
  have hsource : beBytes 1 source.code = [codeByte (match source with | .line k => k.val | .mark k => 8 + k.val)] := by
    cases source <;> simp [beBytes, CaptureSource.code, codeByte]
  have hedge : beOpt 1 (edge.map LineEdge.code) = [match edge with
      | some .rise => 1 | some .fall => 2 | none => 0xFF] := by
    rcases edge with _ | _ | _ <;> rfl
  unfold State.captureBytes captureLayout
  rw [hsource, hedge]
  rfl

/-- What a read removes, where a stamp is held (R22). -/
theorem dropCapture_eq (u : Cu) (c : CaptureStamp) (rest : List CaptureStamp) (h : u.captures = c :: rest) :
    u.dropCapture = { u with captures := rest, overrun := u.overrun && !rest.isEmpty } := by
  unfold Cu.dropCapture
  rw [h]
  cases rest <;> simp

/-- A taken READ_CAPTURE with a stamp held: the queue without its oldest stamp, and the answer (R22). -/
theorem exec_readCapture_cons (tag : Byte) (c : CaptureStamp) (rest : List CaptureStamp) (u : State) (hu : Taken u)
    (h : u.cu.captures = c :: rest) : exec (.readCapture tag (.fields ())) u =
      .next (((u.arrive .s).setCu { u.cu with captures := rest, overrun := u.cu.overrun && !rest.isEmpty }).answer tag
        (Answer.ok (State.captureBytes c ++ [if u.cu.overrun then 1 else 0, BitVec.ofNat 8 rest.length]))) := by
  have hflag : beFlag u.cu.overrun ++ beBytes 1 rest.length =
      [if u.cu.overrun then 1 else 0, BitVec.ofNat 8 rest.length] := by
    cases u.cu.overrun <;> simp [beFlag, beBytes]
  refine (congrArg Host.Outcome.next (takeRequest_taken tag () State.readCapture u hu)).trans ?_
  unfold State.readCapture
  simp only [State.arrive_cu, h]
  rw [dropCapture_eq u.cu c rest h, List.append_assoc, hflag]

/-- Settles O39: the queue is read on the state after the arrival, which leaves it; a stamp that falls together with the
read finds 15 stamps when it comes after it, and 16 when it comes before. -/
theorem readCaptureDrainsTheQueue : Obligations.ReadCaptureDrainsTheQueue := by
  intro tag c e rest s htaken answer drained
  refine ⟨captureBytes_eq c, fun hempty => ?_, fun hheld => ⟨exec_readCapture_cons tag c rest s htaken hheld,
    fun hrest => ?_⟩⟩
  · refine (congrArg Host.Outcome.next (takeRequest_taken tag () State.readCapture s htaken)).trans ?_
    unfold State.readCapture
    simp only [State.arrive_cu, hempty]
    rfl
  · have hfull : s.cu.capture e = { s.cu with overrun := true } := by
      unfold Cu.capture Config.captureDepth
      rw [if_neg (by simp [hheld, hrest])]
    have hnonempty : rest.isEmpty = false := by cases rest with
      | nil => simp at hrest
      | cons r l => rfl
    refine ⟨?_, hfull, ?_⟩
    · unfold Cu.capture Config.captureDepth
      rw [if_pos (by simp [drained, hrest])]
    · rw [exec_readCapture_cons tag c rest (s.setCu (s.cu.capture e)) htaken (by rw [hfull]; exact hheld), hfull]
      simp [hnonempty, answer]

end Sys2Proof.Machine
end

section
/-! PROOF. The speed estimate (O10) and the compensated coordinate of a capture stamp (O11). -/

namespace Sys2Proof.Machine

/-! ## The speed estimate (R11, R12, R14) -/

/-- The forward speed is the greater of the speed estimate and 0 (R14). -/
theorem forwardSpeed_eq (c : Cu) : (c.forwardSpeed : Int) = max c.speed 0 := Int.toNat_eq_max c.speed

theorem speed_of_few_stamps (c : Cu) (h : c.ring.length < 2) : c.speed = 0 := by
  unfold Cu.speed
  split
  · next hring => exact absurd h (by rw [hring]; simp only [List.length_cons]; omega)
  · rfl

/-- The estimate lies within its bounds (R12). -/
theorem speed_bounds (c : Cu) : -65535 ≤ c.speed ∧ c.speed ≤ 65535 := by
  have hheld : ∀ v : Int, -65535 ≤ holdSpeed v ∧ holdSpeed v ≤ 65535 := fun v => by
    unfold holdSpeed Config.speedBound; omega
  unfold Cu.speed
  split
  · dsimp only
    split
    · omega
    · split <;> exact hheld _
  · omega

/-- The net rate over a ring of two stamps or more (R11). -/
theorem rawSpeed_of_stamps (c : Cu) (newest second oldest : EdgeStamp) (rest : List EdgeStamp)
    (hring : c.ring = newest :: second :: rest) (hlast : c.ring.getLast? = some oldest) :
    c.rawSpeed = ((newest.coord - oldest.coord) * 1000000).tdiv
      ((max 1 (newest.time - oldest.time) * 65536 : Nat) : Int) := by
  have hspan : (if newest.time - oldest.time = 0 then 1 else newest.time - oldest.time) =
      max 1 (newest.time - oldest.time) := by split <;> omega
  unfold Cu.rawSpeed
  rw [hlast, hring, List.head?_cons]
  dsimp only
  rw [hspan]

/-- Settles O10: by the branches of R12 for a ring of two stamps or more. -/
theorem speedEstimateFromTheRing : Obligations.SpeedEstimateFromTheRing := by
  intro c
  refine ⟨speed_of_few_stamps c, fun newest second rest oldest hring hlast => ?_, forwardSpeed_eq c⟩
  intro since last span raw edge decay
  have hraw := rawSpeed_of_stamps c newest second oldest rest hring hlast
  have hedge : c.edgeSpeed = edge := (if_neg (by simp [hring])).trans (hraw ▸ rfl)
  have hspeed : c.speed = if 100000 ≤ since then 0
      else if last < since then holdSpeed (limitMagnitude edge decay) else holdSpeed edge := by
    rw [← hedge]
    unfold Cu.speed
    rw [hring]
    rfl
  refine ⟨fun hstill => ?_, fun hmoves hold => ?_, fun hmoves hnew => ?_⟩
  · rw [hspeed, if_pos hstill]
  · rw [hspeed, if_neg (by omega), if_pos hold]
    unfold limitMagnitude holdSpeed Config.speedBound
    clear_value edge decay
    refine ⟨fun hle => ?_, fun hlt hpos => ?_, fun hlt hneg => ?_⟩
    · rw [if_pos hle]
    · rw [if_neg (by omega), if_neg (by omega)]; omega
    · rw [if_neg (by omega), if_pos hneg]; omega
  · rw [hspeed, if_neg (by omega), if_neg (by omega)]; rfl

/-! ## The compensated coordinate (R18) -/

/-- The run of a latency, as the statements write it. -/
theorem run_eq (c : Cu) (latency : Nat) :
    ((c.forwardSpeed * latency / 1000000 : Nat) : Int) = max c.speed 0 * latency / 1000000 := by
  rw [Int.natCast_ediv, Int.natCast_mul, forwardSpeed_eq]
  rfl

theorem compensated_plus (c : Cu) (latency : Nat) (h : c.direction = .plus) :
    c.compensated latency = c.coord / 65536 - max c.speed 0 * latency / 1000000 := by
  unfold Cu.compensated
  rw [run_eq, h]
  rfl

theorem compensated_minus (c : Cu) (latency : Nat) (h : c.direction = .minus) :
    c.compensated latency = c.coord / 65536 + max c.speed 0 * latency / 1000000 := by
  unfold Cu.compensated
  rw [run_eq, h]
  rfl

/-- A carriage that stands, or moves against the scan sense, has no run (R18). -/
theorem compensated_of_speed_nonpos (c : Cu) (latency : Nat) (h : c.speed ≤ 0) :
    c.compensated latency = c.coord / 65536 := by
  have hrun : max c.speed 0 * (latency : Int) / 1000000 = 0 := by simp [Int.max_eq_right h]
  cases hd : c.direction with
  | plus => rw [compensated_plus c latency hd, hrun, Int.sub_zero]
  | minus => rw [compensated_minus c latency hd, hrun, Int.add_zero]

/-- The run is 655 um at most: the speed is 65,535 um/s at most, the latency 10,000 us (R12, R163). -/
theorem run_le (c : Cu) (latency : Nat) (h : latency ≤ 10000) : max c.speed 0 * (latency : Int) / 1000000 ≤ 655 := by
  have hspeed : max c.speed 0 ≤ 65535 := by have := speed_bounds c; omega
  have hlatency : (latency : Int) ≤ 10000 := by omega
  have hrun : max c.speed 0 * (latency : Int) ≤ 65535 * 10000 :=
    Int.mul_le_mul hspeed hlatency (Int.natCast_nonneg _) (by decide)
  omega

/-! ## A taken edge's stamp (R21, R167) -/

/-- What a taken edge brings to the line's function leaves the capture queue. -/
@[simp] theorem handLevel_captures (s : State) (fn : InputFn) (taken level : Bool) (c : Int) :
    (s.handLevel fn taken level c).cu.captures = s.cu.captures := by
  have hdatum : (s.datumEdge c).cu.captures = s.cu.captures := by
    unfold State.datumEdge
    split
    · rfl
    · split
      · simp [State.datumStep, Cu.datumStep, Cu.resetFrontier]
      · split <;> simp
  unfold State.handLevel
  cases fn with
  | datum => dsimp only; split <;> simp [hdatum]
  | endProbe | spindleIndex => dsimp only; split <;> simp
  | coilWater | interlock => simp
  | general => rfl

/-- The expiry of a filter whose pin's level differs from the filtered one (R166, R167). -/
theorem filterExpiry_accepts (k : LineNo) (edge : EdgeSetting) (filter latency t : Nat) (fn : InputFn) (capture : Bool)
    (s : State) (hrole : (s.lu.lines[k]).role = .input edge filter latency fn capture)
    (htimer : (s.lu.lines[k]).filterTimer = some t) (hnow : t ≤ s.cu.cellTime)
    (hpin : (s.lu.lines[k]).pin ≠ (s.lu.lines[k]).filtered) :
    s.filterExpiry k = ((s.acceptLine k).captureIf (edge.takes (edgeTo (s.lu.lines[k]).pin) && capture) k
      (edgeTo (s.lu.lines[k]).pin) (s.cu.compensated latency)).handLevel fn (edge.takes (edgeTo (s.lu.lines[k]).pin))
      (s.lu.lines[k]).pin (s.cu.compensated latency) := by
  unfold State.filterExpiry
  dsimp only
  rw [hrole]
  dsimp only
  rw [if_pos (by rw [htimer, reached_some]; exact decide_eq_true hnow), if_neg hpin]

theorem captureLine_captures (k : LineNo) (e : LineEdge) (c : Int) (s : State) (hroom : s.cu.captures.length < 16) :
    (s.captureLine k e c).cu.captures =
      s.cu.captures ++ [{ source := .line k, edge := some e, time := s.cu.cellTime, coord := c }] := by
  simp [State.captureLine, Cu.capture, Config.captureDepth, hroom]

theorem Mark.fires_iff (m : Mark) (old f : Int) :
    m.fires old f = true ↔ m.enable = true ∧ old < m.target ∧ m.target ≤ f := by
  simp [Mark.fires, and_assoc]

/-- Settles O11: the line's function, which is handed the edge after its stamp, leaves the capture queue. -/
theorem edgesAreCompensatedForLatency : Obligations.EdgesAreCompensatedForLatency := by
  refine ⟨fun k edge filter latency t fn s hrole hlatency htimer hnow hpin htakes hroom => ?_,
    fun k old s henable hstamp hbefore hreached hroom => ?_⟩
  · refine ⟨_, s.cu.compensated latency, congrArg Host.Outcome.next
      (filterExpiry_accepts k edge filter latency t fn true s hrole htimer hnow hpin), ?_, compensated_plus _ _,
      compensated_minus _ _, compensated_of_speed_nonpos _ _, run_le _ _ hlatency⟩
    rw [handLevel_captures, htakes]
    exact captureLine_captures k _ _ _ hroom
  · unfold State.markAdvance
    rw [if_pos ((Mark.fires_iff _ _ _).2 ⟨henable, hbefore, hreached⟩), hstamp]
    simp [State.stampMark, Cu.capture, Config.captureDepth, hroom, Cu.s]

end Sys2Proof.Machine
end

section
/-! PROOF. The marks of a frontier advance, said once in the statements' words. -/

namespace Sys2Proof.Machine

/-! ## Stamps handed to the capture queue one after another (R21) -/

/-- Stamps handed to the capture queue in their order: it takes those it has room for, and any other sets the overrun. -/
theorem captures_foldl (l : List CaptureStamp) (c : Cu) :
    l.foldl (fun v e => v.capture e) c = { c with
      captures := c.captures ++ l.take (16 - c.captures.length)
      overrun := c.overrun || decide (16 - c.captures.length < l.length) } := by
  induction l generalizing c with
  | nil => simp
  | cons e l ih =>
    rw [List.foldl_cons, ih]
    unfold Cu.capture Config.captureDepth
    split
    · next hroom =>
      obtain ⟨room, hr⟩ : ∃ room, 16 - c.captures.length = room + 1 := ⟨15 - c.captures.length, by omega⟩
      have hnext : 16 - (c.captures ++ [e]).length = room := by simp; omega
      simp only [hnext, hr, List.take_succ_cons, List.append_assoc, List.singleton_append, List.length_cons,
        Nat.add_lt_add_iff_right]
    · next hfull =>
      have hr : 16 - c.captures.length = 0 := by omega
      simp [hr]

@[simp] theorem capture_frontier (c : Cu) (e : CaptureStamp) : (c.capture e).frontier = c.frontier := by
  unfold Cu.capture; split <;> rfl
@[simp] theorem capture_cellTime (c : Cu) (e : CaptureStamp) : (c.capture e).cellTime = c.cellTime := by
  unfold Cu.capture; split <;> rfl
@[simp] theorem capture_coord (c : Cu) (e : CaptureStamp) : (c.capture e).coord = c.coord := by
  unfold Cu.capture; split <;> rfl

/-! ## One mark, and the marks in their order (R171, R172) -/

theorem fires_eq (m : Mark) (old f : Int) : m.fires old f = Fires old f m := by
  simp [Mark.fires, Fires, Bool.and_assoc]

/-- The stamp of a mark's firing: s at the firing (R18, R21). -/
def firingStamp (s : State) (k : MarkNo) : CaptureStamp :=
  { source := .mark k, edge := none, time := s.cu.cellTime, coord := s.cu.coord / 65536 }

/-- The stamps of the marks of a list that fire and carry one, in the list's order. -/
def firingStamps (old : Int) (ks : List MarkNo) (s : State) : List CaptureStamp :=
  (ks.filter (fun k : MarkNo => Fires old s.cu.frontier s.lu.marks[k] && (s.lu.marks[k]).stamp)).map (firingStamp s)

/-- A mark after an advance: fired, or as before. -/
def markAfter (old : Int) (s : State) (k : MarkNo) : Mark :=
  if Fires old s.cu.frontier s.lu.marks[k] then (s.lu.marks[k]).fire s.cu.cellTime s.cu.frontier else s.lu.marks[k]

/-- One mark judged at an advance. -/
theorem markAdvance_eq (old : Int) (k : MarkNo) (s : State) : s.markAdvance old k =
    (s.setLu (s.lu.setMark k (markAfter old s k))).setCu
      ((firingStamps old [k] s).foldl (fun v e => v.capture e) s.cu) := by
  unfold State.markAdvance State.stampMark firingStamps markAfter
  rw [fires_eq]
  split
  · next hf =>
    cases hs : (s.lu.marks[k]).stamp with
    | true => simp only [hf, hs, List.filter]; rfl
    | false => simp only [hf, hs, List.filter]; rfl
  · next hf =>
    simp only [hf, List.filter]
    simp [Lu.setMark, State.setLu, State.setCu]

@[simp] theorem markAdvance_frontier (old : Int) (k : MarkNo) (s : State) :
    (s.markAdvance old k).cu.frontier = s.cu.frontier := by
  unfold State.markAdvance State.stampMark; (repeat' split) <;> simp
@[simp] theorem markAdvance_cellTime (old : Int) (k : MarkNo) (s : State) :
    (s.markAdvance old k).cu.cellTime = s.cu.cellTime := by
  unfold State.markAdvance State.stampMark; (repeat' split) <;> simp
@[simp] theorem markAdvance_coord (old : Int) (k : MarkNo) (s : State) :
    (s.markAdvance old k).cu.coord = s.cu.coord := by
  unfold State.markAdvance State.stampMark; (repeat' split) <;> simp

theorem markAdvance_marks (old : Int) (k j : MarkNo) (s : State) :
    (s.markAdvance old k).lu.marks[j] = if j = k then markAfter old s k else s.lu.marks[j] := by
  rw [markAdvance_eq]
  show (s.lu.marks.set k.val (markAfter old s k))[j.val] = _
  rw [Vector.getElem_set]
  simp only [eq_comm, Fin.ext_iff]
  rfl

/-- An earlier mark leaves what the judgement of a later one reads. -/
theorem markAfter_markAdvance (old : Int) (k j : MarkNo) (s : State) (h : j ≠ k) :
    markAfter old (s.markAdvance old k) j = markAfter old s j := by
  unfold markAfter
  rw [markAdvance_marks, if_neg h, markAdvance_frontier, markAdvance_cellTime]

theorem firingStamps_markAdvance (old : Int) (k : MarkNo) (ks : List MarkNo) (s : State) (h : k ∉ ks) :
    firingStamps old ks (s.markAdvance old k) = firingStamps old ks s := by
  have hstamp : firingStamp (s.markAdvance old k) = firingStamp s := by
    funext j
    simp [firingStamp]
  unfold firingStamps
  rw [hstamp, markAdvance_frontier]
  congr 1
  refine List.filter_congr fun j hj => ?_
  rw [markAdvance_marks, if_neg (ne_of_mem_of_not_mem hj h)]

/-- Marks judged one after another: the stamps of those that fire enter the queue in the marks' order, and each mark of
the list is judged against the state before. -/
theorem marks_foldl (old : Int) (ks : List MarkNo) (hks : ks.Nodup) (s : State) :
    let t := ks.foldl (fun u k => u.markAdvance old k) s
    t = (s.setLu { s.lu with marks := t.lu.marks }).setCu
      ((firingStamps old ks s).foldl (fun v e => v.capture e) s.cu) ∧
    ∀ j : MarkNo, t.lu.marks[j] = if j ∈ ks then markAfter old s j else s.lu.marks[j] := by
  induction ks generalizing s with
  | nil => exact ⟨rfl, fun j => by simp⟩
  | cons k ks ih =>
    obtain ⟨hk, hnodup⟩ := List.nodup_cons.1 hks
    obtain ⟨hstate, hmarks⟩ := ih hnodup (s.markAdvance old k)
    intro t
    have hstamps : firingStamps old (k :: ks) s = firingStamps old [k] s ++ firingStamps old ks s := by
      unfold firingStamps
      rw [← List.map_append, ← List.filter_append, List.singleton_append]
    refine ⟨?_, fun j => (hmarks j).trans ?_⟩
    · change t = ((s.markAdvance old k).setLu { (s.markAdvance old k).lu with marks := t.lu.marks }).setCu _ at hstate
      clear_value t
      refine hstate.trans ?_
      rw [firingStamps_markAdvance old k ks s hk, hstamps, List.foldl_append, markAdvance_eq old k s]
      rfl
    · by_cases hj : j = k
      · subst hj
        rw [if_neg hk, markAdvance_marks, if_pos rfl, if_pos List.mem_cons_self]
      · rw [markAfter_markAdvance old k j s hj, markAdvance_marks, if_neg hj]
        simp [hj]

/-! ## The line unit's taking of an advance -/

/-- The least number of additions that brings a target beyond a frontier that it does not pass (R171). -/
theorem least_additions (target f : Int) (add : Nat) (htarget : target ≤ f) (hadd : 0 < add) : ∃ n : Nat,
    target + (add : Int) * ((f - target) / (add : Int) + 1) = target + ((n * add : Nat) : Int) ∧
    f < target + ((n * add : Nat) : Int) ∧ target + ((n * add : Nat) : Int) - add ≤ f := by
  have hpos : (0 : Int) < add := by omega
  have hquot : 0 ≤ (f - target) / (add : Int) := Int.ediv_nonneg (by omega) (by omega)
  have hdiv := Int.mul_ediv_add_emod (f - target) add
  have hrem := Int.emod_nonneg (f - target) (by omega : (add : Int) ≠ 0)
  have hlt := Int.emod_lt_of_pos (f - target) hpos
  refine ⟨((f - target) / (add : Int) + 1).toNat, ?_⟩
  have hn : (((((f - target) / (add : Int) + 1).toNat * add : Nat)) : Int) =
      (add : Int) * ((f - target) / (add : Int)) + add := by
    rw [Int.natCast_mul, Int.toNat_of_nonneg (by omega), Int.add_mul, Int.one_mul, Int.mul_comm]
  rw [hn, Int.mul_add, Int.mul_one]
  omega

/-- A mark that fires is left as R171 and R172 say. -/
theorem markFired_fire (now : Nat) (f : Int) (m : Mark) (henable : m.enable = true) (htarget : m.target ≤ f) :
    MarkFired now f m (m.fire now f) := by
  obtain ⟨enable, target, mode, width, stamp, pulse⟩ := m
  dsimp only at henable htarget
  subst henable
  unfold Mark.fire
  cases mode with
  | once => exact ⟨rfl, rfl, rfl, rfl, fun _ => ⟨rfl, rfl⟩, nofun⟩
  | repeating add =>
    unfold Config.targetBound
    dsimp only
    generalize hm : target + (add : Int) * ((f - target) / (add : Int) + 1) = moved
    refine ⟨?_, ?_, ?_, ?_, nofun, fun a ha hpos => ?_⟩
    iterate 4 split <;> rfl
    obtain rfl : add = a := by injection ha
    obtain ⟨n, hn, habove, hleast⟩ := least_additions target f add htarget hpos
    rw [hm] at hn
    subst hn
    refine ⟨n, habove, hleast, fun hle => ?_, fun hlt => ?_⟩
    · rw [if_neg (Int.not_lt.2 hle)]; exact ⟨rfl, rfl⟩
    · rw [if_pos hlt]; exact ⟨rfl, rfl⟩

/-- The line unit's taking of an advance in a motion state (R171). -/
theorem marksAdvance_taken (old : Int) (s : State) (h : s.sq.st.isMotion = true) :
    MarksTaken old s (s.marksAdvance old) := by
  have hfold : s.marksAdvance old = (List.finRange 4).foldl (fun u k => u.markAdvance old k) s := by
    unfold State.marksAdvance
    rw [if_pos h]
    rfl
  obtain ⟨hstate, hmarks⟩ := marks_foldl old (List.finRange 4) (List.nodup_finRange 4) s
  rw [← hfold] at hstate hmarks
  refine ⟨hstate.trans ?_, fun k => ?_⟩
  · rw [captures_foldl]; rfl
  · have hk := hmarks k
    rw [if_pos (List.mem_finRange k)] at hk
    rw [hk]
    unfold markAfter
    refine ⟨fun hf => ?_, fun hf => ?_⟩
    · rw [if_pos hf]
      obtain ⟨henable, -, htarget⟩ := (Mark.fires_iff _ old _).1 ((fires_eq _ _ _).trans hf)
      exact markFired_fire _ _ _ henable htarget
    · rw [if_neg (Bool.eq_false_iff.1 hf)]

end Sys2Proof.Machine
end

section
/-! PROOF. The encoder's transitions: an illegal one and the index line (O9), and a legal one (O8). -/

namespace Sys2Proof.Machine

/-! ## Decoding (R3, R4) -/

theorem next_ne (p : EncPhase) : p.next ≠ p := by cases p <;> decide

/-- No phase is the next of its own next. -/
theorem next_next_ne (p : EncPhase) : p.next.next ≠ p := by cases p <;> decide

theorem takeLevels_same (a b : Bool) (s : State) (h : EncPhase.ofLevels a b = s.cu.phase) : s.takeLevels a b = s := by
  simp [State.takeLevels, judgeTransition, h]

theorem takeLevels_illegal (a b : Bool) (s : State) (h0 : EncPhase.ofLevels a b ≠ s.cu.phase)
    (h1 : EncPhase.ofLevels a b ≠ s.cu.phase.next) (h2 : s.cu.phase ≠ (EncPhase.ofLevels a b).next) :
    s.takeLevels a b = s.illegalTransition (EncPhase.ofLevels a b) := by
  simp [State.takeLevels, judgeTransition, h0, h1, h2]

/-- A legal transition: forward where the new phase is the held one's next, and backward else (R3). -/
theorem takeLevels_legal (a b : Bool) (s : State)
    (h : EncPhase.ofLevels a b = s.cu.phase.next ∨ s.cu.phase = (EncPhase.ofLevels a b).next) :
    s.takeLevels a b =
      s.legalTransition (EncPhase.ofLevels a b) (EncPhase.ofLevels a b == s.cu.phase.next) := by
  unfold State.takeLevels judgeTransition
  dsimp only
  generalize EncPhase.ofLevels a b = p at h ⊢
  by_cases hf : p = s.cu.phase.next
  · rw [if_neg (by rw [hf]; exact next_ne _), if_pos hf, beq_iff_eq.2 hf]
  · have hb : s.cu.phase = p.next := h.resolve_left hf
    rw [if_neg (by rw [hb]; exact (next_ne p).symm), if_neg hf, if_pos hb, beq_eq_false_iff_ne.2 hf]

/-- The boundaries of R3's table are those that the edge mode counts. -/
theorem counts_iff (m : EdgeMode) (p q : EncPhase) : m.counts p q = true ↔ CountedBoundary m p q := by
  unfold CountedBoundary EdgeMode.counts
  cases m <;> simp [or_assoc]

/-! ## Faults that an edge brings -/

theorem reportFault_enters (code : FaultCode) (source : FaultSource) (s : State)
    (h : State.faultTaking code s.sq.st s.pe.quenchOn = .enters) :
    EnteredFault code source s (s.reportFault code source) := by
  unfold State.reportFault
  rw [h]
  exact enterFault_entered code source s

theorem reportFault_ignored (code : FaultCode) (source : FaultSource) (s : State)
    (h : State.faultTaking code s.sq.st s.pe.quenchOn = .ignored) : s.reportFault code source = s := by
  unfold State.reportFault
  rw [h]

/-- Settles O9: the fault report of an illegal transition is taken in the motion states alone. -/
theorem illegalTransitionAndIndexEdge : Obligations.IllegalTransitionAndIndexEdge := by
  refine ⟨fun s => rfl, ?_⟩
  intro a b s new h0 h1 h2
  have hexec : exec (.encoderTransition a b) s = .next (s.illegalTransition new) :=
    congrArg Host.Outcome.next (takeLevels_illegal a b s h0 h1 h2)
  refine ⟨fun hm => ?_, fun hm => ⟨_, hexec, ?_⟩⟩
  · rw [hexec]
    exact congrArg Host.Outcome.next (reportFault_ignored _ _ _ (by simp [State.faultTaking, hm, State.takenIf]))
  · exact reportFault_enters _ _ _ (by simp [State.faultTaking, hm, State.takenIf])

/-! ## The step of a counted edge (R6, R10, R15, R17) -/

theorem holdCoord_eq (v : Int) : holdCoord v = (boundedCoord v, decide (boundedCoord v ≠ v)) := by
  unfold holdCoord boundedCoord Config.coordBound
  split
  · rw [Prod.mk.injEq, eq_comm (b := decide _), decide_eq_true_iff]; omega
  · split
    · rw [Prod.mk.injEq, eq_comm (b := decide _), decide_eq_true_iff]; omega
    · rw [Prod.mk.injEq, eq_comm (b := decide _), decide_eq_false_iff_not]; omega

theorem stepSize_eq (c : Cu) : (c.stepSize : Int) = stepMagnitude c := by
  unfold Cu.stepSize Cu.carries stepMagnitude Cu.quantum
  by_cases h : c.trimAcc.toNat + c.trimC.toNat < 2 ^ 32
  · rw [if_pos h, if_neg (by simpa using h)]
  · rw [if_neg h, if_pos (by simpa using h)]
    cases c.trimDir <;> rfl

theorem x_eq (c : Cu) : c.x = distanceAt c c.coord := rfl

theorem advanceFrontier_eq (c : Cu) : c.advanceFrontier = { c with frontier := max c.frontier c.x } := by
  unfold Cu.advanceFrontier
  split
  · next h => rw [Int.max_eq_right (Int.le_of_lt h)]
  · next h => rw [Int.max_eq_left (Int.not_lt.1 h)]

/-- The coordinate unit's own work at a counted edge (R6, R10, R15). -/
theorem stepEdge_advance_eq (up : Bool) (p : EncPhase) (c : Cu) :
    (({ c with phase := p } : Cu).stepEdge up).1.advanceFrontier = edgeTaken up p c := by
  have hsize : ((({ c with phase := p } : Cu).stepSize : Nat) : Int) = stepMagnitude c := stepSize_eq _
  rw [advanceFrontier_eq]
  unfold Cu.stepEdge
  rw [hsize, holdCoord_eq]
  rfl

/-- Whether the range bound has acted at a counted edge (R17). -/
theorem stepEdge_bounded_eq (up : Bool) (p : EncPhase) (c : Cu) :
    (({ c with phase := p } : Cu).stepEdge up).2 = decide ((edgeTaken up p c).coord ≠
      (if up then c.coord + stepMagnitude c else c.coord - stepMagnitude c)) := by
  have hsize : ((({ c with phase := p } : Cu).stepSize : Nat) : Int) = stepMagnitude c := stepSize_eq _
  unfold Cu.stepEdge
  rw [hsize, holdCoord_eq]
  rfl

/-- A counted edge: the coordinate unit's work, the checks, and the hand-off of an advance (R3, R16, R17, R131). -/
theorem takeLevels_counted (a b : Bool) (s : State)
    (h : EncPhase.ofLevels a b = s.cu.phase.next ∨ s.cu.phase = (EncPhase.ofLevels a b).next)
    (hc : CountedBoundary s.cu.edgeMode s.cu.phase (EncPhase.ofLevels a b)) :
    let up := (EncPhase.ofLevels a b == s.cu.phase.next) != s.cu.invert
    let c := edgeTaken up (EncPhase.ofLevels a b) s.cu
    s.takeLevels a b = (((s.setCu c).travelCheck (decide (c.coord ≠
      (if up then s.cu.coord + stepMagnitude s.cu else s.cu.coord - stepMagnitude s.cu)))).reversalCheck).handAdvance
        s.cu.frontier := by
  intro up c
  rw [takeLevels_legal a b s h]
  unfold State.legalTransition State.takeEdge State.moveEdge State.setEncPhase
  rw [if_pos ((counts_iff _ _ _).2 hc)]
  simp only [State.setCu_cu]
  rw [stepEdge_advance_eq, stepEdge_bounded_eq]
  rfl

theorem beyondLimits_iff (c : Cu) (bounded : Bool) :
    c.beyondLimits bounded = true ↔ ¬ WithinLimits c ∨ bounded = true := by
  unfold Cu.beyondLimits WithinLimits
  simp only [Bool.or_eq_true, decide_eq_true_eq]
  cases bounded
  · simp; omega
  · simp

/-- The travel-limit check of a counted edge in a motion state (R17). -/
theorem travelCheck_beyond (bounded : Bool) (s : State) (hm : s.sq.st.isMotion = true)
    (hb : ¬ WithinLimits s.cu ∨ bounded = true) : EnteredFault .overtravel .cu s (s.travelCheck bounded) := by
  unfold State.travelCheck
  rw [if_pos (by rw [hm, (beyondLimits_iff _ _).2 hb]; rfl)]
  exact reportFault_enters _ _ _ (by simp [State.faultTaking, hm, State.takenIf])

theorem travelCheck_within (bounded : Bool) (s : State)
    (h : s.sq.st.isMotion = true → ¬ (¬ WithinLimits s.cu ∨ bounded = true)) : s.travelCheck bounded = s := by
  unfold State.travelCheck
  rw [if_neg]
  rw [Bool.and_eq_true, beyondLimits_iff]
  exact fun hboth => h hboth.1 hboth.2

/-- The reversal check (R131). -/
theorem reversalCheck_back (s : State) (hh : s.sq.st.isHeat = true)
    (hb : ((s.hdr (·.reversalTol) : Nat) : Int) < s.cu.frontier - s.cu.x) :
    EnteredFault .reversal .sq s s.reversalCheck := by
  unfold State.reversalCheck
  rw [if_pos (by rw [hh, decide_eq_true hb]; rfl)]
  exact reportFault_enters _ _ _ (by simp [State.faultTaking, hh, State.takenIf])

theorem reversalCheck_kept (s : State)
    (h : s.sq.st.isHeat = true → ¬ ((s.hdr (·.reversalTol) : Nat) : Int) < s.cu.frontier - s.cu.x) :
    s.reversalCheck = s := by
  unfold State.reversalCheck
  rw [if_neg]
  rw [Bool.and_eq_true, decide_eq_true_eq]
  exact fun hboth => h hboth.1 hboth.2

/-! ## An advance with no slice on the track (R98, R99, R108) -/

/-- With no slice on the track and heating not noted, the slice tracker makes nothing of an advance. -/
theorem trackAdvance_empty (s : State) (ht : s.stk.track = []) (hh : s.stk.heating = false) : s.trackAdvance = s := by
  have hpassed : s.passFrontier = s := by
    unfold State.passFrontier Stk.advance Stk.closeAtBoundary
    simp only [ht, List.any_nil, Bool.false_eq_true, if_false, Stk.retire]
    rw [← ht]
    rfl
  have hopened : s.openAtFrontier = s := by
    unfold State.openAtFrontier Stk.tryOpen
    rw [hh]
    rfl
  unfold State.trackAdvance State.noticeEmpty
  rw [hpassed, if_neg (fun h => h.1 ht), hopened]

/-- With no slice on the track, an advance outside the motion states and HELD changes nothing. -/
theorem advance_resting (old : Int) (s : State) (ht : s.stk.track = []) (hh : s.stk.heating = false)
    (hst : s.sq.st.inScan = false) : s.advance old = s := by
  unfold State.advance State.marksAdvance State.seqAdvance
  rw [trackAdvance_empty s ht hh]
  cases hs : s.sq.st with
  | idle | armed | done | fault ph => simp [hs, SeqState.isMotion]
  | seek | approach ph | heating | dwell ph | runout ph | quenchout ph | held =>
    simp [hs, SeqState.inScan, SeqState.isMotion] at hst

theorem inScan_of_isMotion {st : SeqState} (h : st.isMotion = true) : st.inScan = true := by
  simp [SeqState.inScan, h]

theorem isMotion_of_isHeat {st : SeqState} (h : st.isHeat = true) : st.isMotion = true := by
  cases st with
  | heating | dwell ph => rfl
  | idle | armed | seek | approach ph | runout ph | done | quenchout ph | held | fault ph => cases h

/-- The states without a scan (R139). -/
theorem inScan_resting {st : SeqState} (h : st = .idle ∨ st = .armed ∨ st = .done ∨ st.isFault = true) :
    st.inScan = false := by
  rcases h with rfl | rfl | rfl | h
  · rfl
  · rfl
  · rfl
  · cases st with
    | fault ph => rfl
    | idle | armed | seek | approach ph | heating | dwell ph | runout ph | done | quenchout ph | held => cases h

theorem handAdvance_resting (old : Int) (s : State) (ht : s.stk.track = []) (hh : s.stk.heating = false)
    (hst : s.sq.st.inScan = false) : s.handAdvance old = s := by
  unfold State.handAdvance
  split
  · exact advance_resting old s ht hh hst
  · rfl

/-- FAULT entered from a scan leaves nothing of an advance to be taken: the track is flooded (R111, R139). -/
theorem handAdvance_faulted {code : FaultCode} {source : FaultSource} {s t : State} (old : Int)
    (h : EnteredFault code source s t) (hs : s.sq.st.inScan = true) : t.handAdvance old = t := by
  obtain ⟨hsq, -, hstk, -⟩ := h
  rw [if_pos hs] at hstk
  exact handAdvance_resting old t (by rw [hstk]; rfl) (by rw [hstk]; rfl) (by rw [hsq]; rfl)

/-- FAULT is no heating state: an edge that has entered it is not judged for reversal. -/
theorem reversalCheck_faulted {code : FaultCode} {source : FaultSource} {s t : State} (h : EnteredFault code source s t) :
    t.reversalCheck = t :=
  reversalCheck_kept t (fun hheat => by rw [h.1] at hheat; cases hheat)

theorem handAdvance_still (old : Int) (s : State) (h : s.cu.frontier = old) : s.handAdvance old = s := by
  unfold State.handAdvance
  rw [if_neg (by omega)]

/-- An advance with no slice on the track: the marks, then the sequencer. -/
theorem handAdvance_empty (old : Int) (s : State) (hf : old < s.cu.frontier) (ht : s.stk.track = [])
    (hh : s.stk.heating = false) : s.handAdvance old = (s.marksAdvance old).seqAdvance := by
  unfold State.handAdvance State.advance
  rw [if_pos hf, trackAdvance_empty s ht hh]

theorem marksAdvance_frontier (old : Int) (s : State) : (s.marksAdvance old).cu.frontier = s.cu.frontier := by
  unfold State.marksAdvance; split <;> simp

/-! ## A legal transition, case by case -/

/-- An advance in SEEK, APPROACH and the two post-quenches, after the marks: what the sequencer makes of it. -/
theorem seqAdvance_judged (h : RecipeHeader) (v : State) (hr : v.recipe = some h) :
    (∀ x, v.sq.st = .seek → v.sq.seekStart = some x →
      ((h.seekLimit : Int) < v.cu.frontier - x → EnteredFault .datum .sq v v.seqAdvance) ∧
      (v.cu.frontier - x ≤ (h.seekLimit : Int) → v.seqAdvance = v)) ∧
    (v.sq.st = .approach .travel →
      (-(h.runIn : Int) ≤ v.cu.frontier → ArrivedAtRunIn h v v.seqAdvance) ∧
      (v.cu.frontier < -(h.runIn : Int) → v.seqAdvance = v)) ∧
    (v.sq.st = .approach .wait →
      (0 ≤ v.cu.frontier → EnteredFault .drive .sq v v.seqAdvance) ∧ (v.cu.frontier < 0 → v.seqAdvance = v)) ∧
    (v.sq.st = .runout .postQuench → v.seqAdvance = v) ∧
    (v.sq.st = .quenchout .postQuench → v.seqAdvance = pointedPast v) := by
  have hlimit : ((v.hdr (·.seekLimit) : Nat) : Int) = (h.seekLimit : Int) := by simp [State.hdr, hr]
  have hpoint : v.runInPoint = -(h.runIn : Int) := by simp [State.runInPoint, State.hdr, hr]
  unfold State.seqAdvance
  refine ⟨fun x hs hx => ?_, fun hs => ?_, fun hs => ?_, fun hs => ?_, fun hs => ?_⟩
  · simp only [hs, hlimit, hx, Option.getD_some]
    refine ⟨fun hfar => ?_, fun hnear => ?_⟩
    · rw [if_pos hfar]; exact reportFault_enters _ _ _ (by rw [hs]; rfl)
    · rw [if_neg (Int.not_lt.2 hnear)]
  · simp only [hs, hpoint]
    refine ⟨fun hreached => ?_, fun hshort => ?_⟩
    · rw [if_pos hreached]; exact arriveRunIn_arrived h v hr (by rw [hs]; simp) (by rw [hs]; rfl)
    · rw [if_neg (Int.not_le.2 hshort)]
  · simp only [hs]
    refine ⟨fun hreached => ?_, fun hshort => ?_⟩
    · rw [if_pos hreached]; exact reportFault_enters _ _ _ (by rw [hs]; rfl)
    · rw [if_neg (Int.not_le.2 hshort)]
  · simp only [hs]
  · simp only [hs]; exact movePointer_eq v

/-- Settles O8: the edge is the coordinate unit's work, the two checks and the hand-off; a check that enters FAULT leaves
the hand-off nothing to do. -/
theorem legalTransitionTakesTheEdge : Obligations.LegalTransitionTakesTheEdge := by
  intro a b h s new up c moved beyond back ends
  have hends : ∀ t, s.takeLevels a b = t → ends t := fun t ht => congrArg Host.Outcome.next ht
  refine ⟨fun hsame => hends s (takeLevels_same a b s hsame), fun hlegal => ⟨fun huncounted => ?_, fun hcounted => ?_⟩⟩
  · refine hends _ ((takeLevels_legal a b s hlegal).trans ?_)
    unfold State.legalTransition
    rw [if_neg (mt (counts_iff _ _ _).1 huncounted)]
    rfl
  · let bounded : Bool :=
      decide (c.coord ≠ (if up then s.cu.coord + stepMagnitude s.cu else s.cu.coord - stepMagnitude s.cu))
    have htaken : s.takeLevels a b = ((moved.travelCheck bounded).reversalCheck).handAdvance s.cu.frontier :=
      takeLevels_counted a b s hlegal hcounted
    have hbeyond : beyond ↔ ¬ WithinLimits moved.cu ∨ bounded = true :=
      or_congr Iff.rfl decide_eq_true_iff.symm
    refine ⟨fun hm hb => ?_, fun hr hnb => ?_, fun hst ht hh => hends _ ?_⟩
    · have hfault := travelCheck_beyond bounded moved hm (hbeyond.1 hb)
      refine ⟨_, hends _ ?_, hfault⟩
      rw [htaken, reversalCheck_faulted hfault, handAdvance_faulted _ hfault (inScan_of_isMotion hm)]
    · rw [travelCheck_within bounded moved (fun hm => mt hbeyond.2 (hnb hm))] at htaken
      have hrecipe : moved.recipe = some h := hr
      have htol : ((moved.hdr (·.reversalTol) : Nat) : Int) = (h.reversalTol : Int) := by simp [State.hdr, hrecipe]
      refine ⟨fun hheat hback => ?_, fun hsame hnot => hends _ ?_, fun hlt ht hh => ?_⟩
      · have hfault := reversalCheck_back moved hheat (by rw [htol]; exact hback)
        refine ⟨_, hends _ ?_, hfault⟩
        rw [htaken, handAdvance_faulted _ hfault (inScan_of_isMotion (isMotion_of_isHeat hheat))]
      · rw [htaken, reversalCheck_kept moved (fun hheat => by rw [htol]; exact hnot hheat),
          handAdvance_still _ moved hsame]
      · have hadvance : s.sq.st.isHeat = false →
            s.takeLevels a b = (moved.marksAdvance s.cu.frontier).seqAdvance := fun hcold => by
          rw [htaken, reversalCheck_kept moved (fun hheat => absurd hheat (by simp [moved, hcold])),
            handAdvance_empty _ moved hlt ht hh]
        refine ⟨fun hheld => hends _ ?_, fun hst => ?_⟩
        · rw [hadvance (by rw [hheld]; rfl)]
          unfold State.marksAdvance State.seqAdvance
          simp only [moved, State.setCu_sq, hheld, SeqState.isMotion, Bool.false_eq_true, if_false]
          exact movePointer_eq _
        · have hmotion : s.sq.st.isMotion = true ∧ s.sq.st.isHeat = false := by
            rcases hst with e | ⟨ph, e⟩ | e | e <;> rw [e] <;> exact ⟨rfl, rfl⟩
          have hmarks := marksAdvance_taken s.cu.frontier moved hmotion.1
          have hjudged := seqAdvance_judged h (moved.marksAdvance s.cu.frontier) (by simpa [State.recipe, moved] using hr)
          rw [marksAdvance_frontier, State.marksAdvance_sq] at hjudged
          exact ⟨_, _, hends _ (hadvance hmotion.2), hmarks, hjudged⟩
    · have hresting := inScan_resting hst
      rw [htaken, travelCheck_within bounded moved (fun hm => absurd (inScan_of_isMotion hm) (by simp [moved, hresting])),
        reversalCheck_kept moved (fun hheat =>
          absurd (inScan_of_isMotion (isMotion_of_isHeat hheat)) (by simp [moved, hresting]))]
      exact handAdvance_resting _ moved ht hh hresting

end Sys2Proof.Machine
end

section
/-! PROOF. Taken edges of the spindle index and of the datum (O53). -/

namespace Sys2Proof.Machine

/-! ## The line's own part of an accepted edge (R21, R166, R167) -/

/-- The coordinate unit once the stamp of a taken edge has been handed to the capture queue, where capture is ON. -/
def stampedCu (capture : Bool) (e : CaptureStamp) (c : Cu) : Cu :=
  if capture then
    if c.captures.length < 16 then { c with captures := c.captures ++ [e] } else { c with overrun := true }
  else c

theorem stampedCu_eq (capture : Bool) (e : CaptureStamp) (c : Cu) :
    stampedCu capture e c = if capture then c.capture e else c := rfl

/-- A taken edge: the filter accepts the level, the stamp is handed over, and the line's function takes the edge. -/
theorem filterExpiry_taken (k : LineNo) (edge : EdgeSetting) (filter latency x : Nat) (fn : InputFn) (capture : Bool)
    (s : State) (htakes : edge.takes (edgeTo (s.lu.lines[k]).pin) = true)
    (hpin : (s.lu.lines[k]).pin ≠ (s.lu.lines[k]).filtered) (htimer : (s.lu.lines[k]).filterTimer = some x)
    (hnow : x ≤ s.cu.cellTime) (hrole : (s.lu.lines[k]).role = .input edge filter latency fn capture) :
    s.filterExpiry k =
      ((s.setLu { s.lu with
        lines := s.lu.lines.set k { s.lu.lines[k] with filtered := (s.lu.lines[k]).pin, filterTimer := none } }).setCu
          (stampedCu capture
            { source := .line k, edge := some (edgeTo (s.lu.lines[k]).pin), time := s.cu.cellTime
              coord := s.cu.compensated latency } s.cu)).handLevel fn true (s.lu.lines[k]).pin (s.cu.compensated latency) := by
  rw [filterExpiry_accepts k edge filter latency x fn capture s hrole htimer hnow hpin, htakes, stampedCu_eq]
  cases capture <;> rfl

/-- The stamp of an edge leaves every other field of the coordinate unit. -/
theorem stampedCu_keeps (capture : Bool) (e : CaptureStamp) (c : Cu) :
    stampedCu capture e c =
      { c with captures := (stampedCu capture e c).captures, overrun := (stampedCu capture e c).overrun } := by
  unfold stampedCu
  (repeat' split) <;> rfl

/-! ## An index edge (R133, R173) -/

/-- An index edge that measures a revolution: the line unit's measures, handed to the sequencer (R173). -/
theorem indexEdge_measures (t0 : Nat) (f0 : Int) (u : State) (h0 : u.lu.prevIndexTime = some t0)
    (h1 : u.lu.indexFrontier = some f0) :
    let period := max 1 (u.cu.cellTime - t0)
    u.indexEdge = (u.setLu { u.lu with
      rpm := some (min (60000000 / period) 65535), travel := some (u.cu.frontier - f0)
      withdrawal := some (u.cu.cellTime + min (2 * period) 60000000)
      prevIndexTime := some u.cu.cellTime, indexFrontier := some u.cu.frontier }).handRevolution := by
  intro period
  have hperiod : (if u.cu.cellTime - t0 = 0 then 1 else u.cu.cellTime - t0) = period := by
    simp only [period]; split <;> omega
  unfold State.indexEdge Lu.indexEdge
  rw [h0, h1]
  dsimp only
  rw [hperiod]
  rfl

/-- The first index edge takes the time and the frontier alone (R173). -/
theorem indexEdge_first (u : State) (h0 : u.lu.prevIndexTime = none) :
    u.indexEdge = u.setLu { u.lu with
      prevIndexTime := some u.cu.cellTime, indexFrontier := some u.cu.frontier } := by
  unfold State.indexEdge Lu.indexEdge
  rw [h0]
  rfl

/-- A revolution that ends in HEATING: the watch restarted with the count, and fault SPIRAL at the second over-pitched
one in a row (R133). -/
theorem handRevolution_heating (v : State) (hs : v.sq.st = .heating) (count : Nat) (hc : v.nextOverPitch = count) :
    let turn := v.setSq { v.sq with
      indexWatch := some (v.cu.cellTime + 240000000 / v.pe.spindle), overPitch := count, firstRevolution := false }
    (count < 2 → v.handRevolution = turn) ∧ (2 ≤ count → EnteredFault .spiral .sq turn v.handRevolution) := by
  subst hc
  unfold State.handRevolution State.judgeRevolution
  rw [if_pos hs]
  refine ⟨fun hlt => ?_, fun hle => ?_⟩
  · rw [if_neg (Nat.not_le.2 hlt)]; rfl
  · rw [if_pos hle]
    exact reportFault_enters _ _ v.countRevolution (by rw [show v.countRevolution.sq.st = v.sq.st from rfl, hs]; rfl)

/-- The over-pitch count after a revolution (R133). -/
theorem nextOverPitch_eq (v : State) (travel : Int) (ht : v.lu.travel = some travel) :
    v.nextOverPitch = if v.sq.firstRevolution then v.sq.overPitch
      else if (helixAt v.zones v.pe.heatingZone : Int) * 5 < travel * 4 then v.sq.overPitch + 1 else 0 := by
  unfold State.nextOverPitch State.overPitched
  rw [spindleHelix_eq, ht]
  simp

/-! ## A datum edge (R19, R20, R80) -/

/-- The coordinate unit's part of the datum step (R19), and whether the range bound has acted (R17). -/
theorem datumStep_eq (step : Int) (c : Cu) : c.datumStep step =
    ({ c with
      coord := boundedCoord (c.coord + step * 65536)
      ring := c.ring.map (fun e => { e with coord := e.coord + step * 65536 })
      frontier := distanceAt c (boundedCoord (c.coord + step * 65536))
      datumTaken := true }, decide (boundedCoord (c.coord + step * 65536) ≠ c.coord + step * 65536)) := by
  unfold Cu.datumStep
  rw [holdCoord_eq]
  rfl

/-- The stamp of the edge has no part in the datum step (R19). -/
theorem datumStep_stampedCu (capture : Bool) (e : CaptureStamp) (step : Int) (c : Cu) :
    (stampedCu capture e c).datumStep step =
      ({ stampedCu capture e c with
        coord := boundedCoord (c.coord + step * 65536)
        ring := c.ring.map (fun e => { e with coord := e.coord + step * 65536 })
        frontier := distanceAt c (boundedCoord (c.coord + step * 65536))
        datumTaken := true }, decide (boundedCoord (c.coord + step * 65536) ≠ c.coord + step * 65536)) := by
  unfold stampedCu
  (repeat' split) <;> exact datumStep_eq step _

/-- A datum edge in SEEK: the step, the travel limits, and the entry to APPROACH (R19, R79, R80). -/
theorem datumEdge_seek (h : RecipeHeader) (comp : Int) (u : State) (hr : u.recipe = some h) (hs : u.sq.st = .seek) :
    u.datumEdge comp =
      ((u.setCu (u.cu.datumStep (h.datumCoord - comp)).1).travelCheck (u.cu.datumStep (h.datumCoord - comp)).2).endSeek := by
  unfold State.datumEdge
  rw [hr]
  dsimp only
  rw [if_pos hs]
  rfl

/-- The drift that a datum edge outside SEEK brings to an open summary (R20). -/
theorem noteDrift_eq (tolerance : Nat) (error : Int) (k : Stk) (u : Summary) (hk : k.summary = some u)
    (ho : u.status = .opened) :
    k.noteDrift tolerance error = { k with
      summary := some { u with
        drift := some (max (u.drift.getD 0) error.natAbs)
        datumDrift := u.datumDrift || decide (tolerance < max (u.drift.getD 0) error.natAbs) } } := by
  unfold Stk.noteDrift Stk.onOpenSummary
  rw [hk]
  dsimp only
  rw [if_pos (beq_iff_eq.2 ho)]
  cases u.drift <;> simp

/-- Without an open summary, a datum edge outside SEEK changes nothing (R20). -/
theorem noteDrift_closed (tolerance : Nat) (error : Int) (k : Stk)
    (hk : ∀ u, k.summary = some u → u.status ≠ .opened) : k.noteDrift tolerance error = k := by
  unfold Stk.noteDrift Stk.onOpenSummary
  cases hu : k.summary with
  | none => rfl
  | some u =>
    dsimp only
    rw [if_neg (by rw [beq_iff_eq]; exact hk u hu)]

/-- A datum edge outside SEEK (R20). -/
theorem datumEdge_elsewhere (h : RecipeHeader) (comp : Int) (u : State) (hr : u.recipe = some h) (hs : u.sq.st ≠ .seek) :
    u.datumEdge comp =
      if u.cu.datumTaken then u.setStk (u.stk.noteDrift h.datumTol (comp - h.datumCoord)) else u := by
  unfold State.datumEdge
  rw [hr]
  dsimp only
  rw [if_neg hs]

/-- The end of a datum step: beyond the limits, or held at the range's bound, it is fault OVERTRAVEL; else SEEK is left
for APPROACH, and the run-in point is judged (R17, R79, R80). -/
theorem datumStep_judged (h : RecipeHeader) (bounded : Bool) (m : State) (hr : m.recipe = some h)
    (hs : m.sq.st = .seek) :
    let t := (m.travelCheck bounded).endSeek
    let v := m.change (.approach .travel)
    t.cu = m.cu ∧
    (bounded = true ∨ ¬ WithinLimits m.cu → EnteredFault .overtravel .cu m t) ∧
    (bounded = false → WithinLimits m.cu → Changed h (.approach .travel) m v ∧ RunInJudged h v t ∧
      (t.cu.frontier < -(h.runIn : Int) → t.sq.st = .approach .travel ∧ t.pe.speed = h.approachSpeed)) := by
  intro t v
  refine ⟨by simp [t], fun hb => ?_, fun hb hw => ?_⟩
  · have hfault := travelCheck_beyond bounded m (by rw [hs]; rfl) hb.symm
    have hended : t = m.travelCheck bounded := by
      simp only [t, State.endSeek]
      rw [if_neg (by rw [hfault.1]; simp [faultedSq])]
    rw [hended]
    exact hfault
  · have hended : t = v.runInCheck := by
      simp only [t, v, State.endSeek]
      rw [travelCheck_within bounded m (fun _ => by rw [hb]; simp [hw]), if_pos hs]
    have hchanged : Changed h (.approach .travel) m v := change_changed h _ m hr (by simp) (by simp) rfl
    obtain ⟨⟨hcu, hzt, -⟩, -, -, ⟨-, hpoints, -⟩, hsq, -⟩ := id hchanged
    have hst : v.sq.st = .approach .travel := by rw [hsq]; rfl
    have hjudged : RunInJudged h v t := by
      rw [hended]
      exact runInCheck_judged h v (by unfold State.recipe; rw [hzt]; exact hr)
    refine ⟨hchanged, hjudged, fun hshort => ?_⟩
    have hkept : t = v := (hjudged.2 hst).2.2 (by rw [hended, State.runInCheck_cu] at hshort; exact hshort)
    obtain ⟨-, -, -, -, -, hspeed, -⟩ := hpoints (by rw [hst]; simp)
    rw [hkept]
    exact ⟨hst, by rw [hspeed, hst]⟩

/-- Settles O53: the line's part of the edge first, then what its function hands on. -/
theorem indexAndDatumEdges : Obligations.IndexAndDatumEdges := by
  intro k edge filter latency x t0 f0 h capture s n stamp cu after period measured turn pitched off htakes hpin htimer hnow
  have hcu : cu = { s.cu with captures := cu.captures, overrun := cu.overrun } := stampedCu_keeps capture stamp s.cu
  have htime : cu.cellTime = s.cu.cellTime := (congrArg Cu.cellTime hcu :)
  have hfrontier : cu.frontier = s.cu.frontier := (congrArg Cu.frontier hcu :)
  have hexec : ∀ fn, n.role = .input edge filter latency fn capture → exec (.filterExpiry k) s =
      .next (after.handLevel fn true n.pin (s.cu.compensated latency)) := fun fn hrole =>
    congrArg Host.Outcome.next (filterExpiry_taken k edge filter latency x fn capture s htakes hpin htimer hnow hrole)
  refine ⟨fun hrole => ?_, fun hrole hr => ?_⟩
  · have hindex : exec (.filterExpiry k) s = .next after.indexEdge := hexec _ hrole
    refine ⟨fun h0 => ?_, fun h0 h1 => ?_⟩
    · rw [hindex, indexEdge_first after h0]
      simp only [after, State.setCu_cu, htime, hfrontier]
    · have hmeasured : after.indexEdge = measured.handRevolution := by
        rw [indexEdge_measures t0 f0 after h0 h1]
        simp only [after, measured, period, State.setCu_cu, htime, hfrontier]
      rw [hmeasured] at hindex
      rw [hindex]
      have hturn : ∀ count, s.sq.st = .heating → measured.nextOverPitch = count →
          (count < 2 → measured.handRevolution = turn count) ∧
          (2 ≤ count → EnteredFault .spiral .sq (turn count) measured.handRevolution) := by
        intro count hs hc
        have := handRevolution_heating measured hs count hc
        rw [show measured.cu.cellTime = s.cu.cellTime from htime] at this
        exact this
      have hnext : measured.nextOverPitch = if s.sq.firstRevolution then s.sq.overPitch
          else if pitched then s.sq.overPitch + 1 else 0 := nextOverPitch_eq measured (s.cu.frontier - f0) rfl
      refine ⟨fun hne hnw => ?_, fun hs hh => ?_, fun hs hfirst hcount => ?_, fun hs hfirst hflat => ?_,
        fun hs hfirst hsteep hzero => ?_, fun hs hfirst hsteep hpos => ?_⟩
      · unfold State.handRevolution State.rejudge
        rw [if_neg (show measured.sq.st ≠ .heating from hne), if_neg (show measured.sq.st ≠ .approach .wait from hnw)]
      · refine ⟨_, rfl, ?_⟩
        unfold State.handRevolution
        rw [if_neg (show measured.sq.st ≠ .heating by rw [show measured.sq = s.sq from rfl, hs]; simp)]
        exact rejudge_rejudged h measured hh hs
      · rw [hfirst, if_pos rfl] at hnext
        rw [(hturn _ hs hnext).1 hcount]
      · rw [hfirst, if_neg Bool.false_ne_true, if_neg hflat] at hnext
        rw [(hturn _ hs hnext).1 (by decide)]
      · rw [hfirst, if_neg Bool.false_ne_true, if_pos hsteep, hzero] at hnext
        rw [(hturn _ hs hnext).1 (by decide)]
      · rw [hfirst, if_neg Bool.false_ne_true, if_pos hsteep] at hnext
        exact ⟨_, rfl, (hturn _ hs hnext).2 (by omega)⟩
  · have hdatum : exec (.filterExpiry k) s = .next (after.datumEdge (s.cu.compensated latency)) := hexec _ hrole
    have htaken : cu.datumTaken = s.cu.datumTaken := (congrArg Cu.datumTaken hcu :)
    have hback : s.cu.compensated latency - h.datumCoord = -off := (Int.neg_sub _ _).symm
    refine ⟨?_, fun hs hnone => ?_, fun hs hclosed => ?_, fun u hs hdone hu ho => ?_⟩
    · intro hs stepped moved
      have hmoved : cu.datumStep off = (moved.cu, decide (boundedCoord stepped ≠ stepped)) :=
        datumStep_stampedCu capture stamp off s.cu
      have hstep : after.datumEdge (s.cu.compensated latency) =
          (moved.travelCheck (decide (boundedCoord stepped ≠ stepped))).endSeek := by
        rw [datumEdge_seek h _ after hr hs]
        show ((after.setCu (cu.datumStep off).1).travelCheck (cu.datumStep off).2).endSeek = _
        rw [hmoved]
        rfl
      obtain ⟨hkept, hbeyond, hwithin⟩ := datumStep_judged h (decide (boundedCoord stepped ≠ stepped)) moved hr hs
      rw [hdatum, hstep]
      exact ⟨_, _, rfl, hkept, fun hb => hbeyond (by simpa using hb), fun hb hw => hwithin (by simpa using hb) hw⟩
    · rw [hdatum, datumEdge_elsewhere h _ after hr hs, if_neg (by simp [after, htaken, hnone])]
    · rw [hdatum, datumEdge_elsewhere h _ after hr hs, noteDrift_closed _ _ after.stk hclosed]
      exact congrArg Host.Outcome.next (ite_self _)
    · intro drift v
      rw [hdatum, datumEdge_elsewhere h _ after hr hs, if_pos (by simp [after, htaken, hdone]),
        noteDrift_eq _ _ after.stk u hu ho, hback, Int.natAbs_neg]
      rfl

end Sys2Proof.Machine
end

section
/-! PROOF. Expiries: nothing before the instant (O4), and what an empty queue does (O2). -/

namespace Sys2Proof.Machine

/-! ## When an expiry has been reached (R9, R40, R147) -/

/-- A timer has been reached where it runs and its instant has come (R9). -/
theorem reached_iff (t : Option Nat) (s : State) : reached t s.now = true ↔ Reached t s := by
  cases t with
  | none => simp [reached, Reached]
  | some x => simp [Reached, State.now]

/-- Before its instant a timer has not been reached. -/
theorem not_reached {t : Option Nat} {n : Nat} (h : ∀ x, t = some x → n < x) : ¬ reached t n = true := by
  simp [reached_of_ahead h]

/-- The operation of the recipe store that comes to its completion now (R40). -/
theorem completed_eq_some (s : State) (op : RsOp) :
    s.completed = some op ↔ ∃ f, s.rs.inFlight = some f ∧ f.completes ≤ s.cu.cellTime ∧ f.op = op := by
  simp [State.completed, State.now, and_assoc]

/-- The operation that has come to its completion, by its kind (R40). -/
theorem completed_iff (s : State) (p : RsOp → Prop) : Completed p s ↔ ∃ op, s.completed = some op ∧ p op := by
  simp only [completed_eq_some]
  constructor
  · rintro ⟨f, hf, hp, hle⟩
    exact ⟨f.op, ⟨f, hf, hle, rfl⟩, hp⟩
  · rintro ⟨_, ⟨f, hf, hle, rfl⟩, hp⟩
    exact ⟨f, hf, hp, hle⟩

/-- No operation completes before its instant (R40). -/
theorem completed_of_ahead (s : State) (h : ∀ f, s.rs.inFlight = some f → s.cu.cellTime < f.completes) :
    s.completed = none := by
  refine Option.eq_none_iff_forall_ne_some.2 fun op hop => ?_
  obtain ⟨f, hf, hle, -⟩ := (completed_eq_some s op).1 hop
  exact Nat.not_lt.2 hle (h f hf)

/-- The liveness time in force is the silence after which a port is LOST (R147). -/
theorem livenessTime_eq (st : SeqState) (port : Port) : livenessTime st port = silenceTime st port := by
  cases port <;> rfl

/-- When a port's liveness has run out (R147). -/
theorem livenessDue_iff (port : Port) (s : State) : s.livenessDue port = true ↔
    (s.lp.port port).link = .online ∧
      (s.lp.port port).lastArrival + silenceTime s.sq.st port ≤ s.cu.cellTime := by
  simp [State.livenessDue, State.livenessEnd, livenessTime_eq, State.now]

/-- When a port's frame has been sent to its end (R150). -/
theorem transmitDue_iff (port : Port) (s : State) : s.transmitDue port = true ↔
    ∃ j, (s.lp.port port).tx = some j ∧ j.endsAt2 ≤ 2 * s.cu.cellTime := by
  unfold State.transmitDue
  cases (s.lp.port port).tx <;> simp [State.now]

/-! ## Before the instant -/

/-- A line's filter before its instant (R166). -/
theorem filterExpiry_of_ahead (k : LineNo) (s : State)
    (h : ∀ t, (s.lu.lines[k]).filterTimer = some t → s.cu.cellTime < t) : s.filterExpiry k = s := by
  unfold State.filterExpiry
  dsimp only
  split
  · rfl
  · exact if_neg (not_reached h)

/-- The recipe store before the completion of its operation (R40). -/
theorem completions_of_ahead (s : State) (h : s.completed = none) :
    s.completeLoad = s ∧ s.completeStore = s ∧ s.completeErase = s ∧ s.completeOptions = s := by
  unfold State.completeLoad State.completeStore State.completeErase State.completeOptions
  simp only [h, and_self]

/-- A port that is not ONLINE, or whose silence has not run out, keeps its link (R147, R148). -/
theorem livenessExpiry_of_ahead (port : Port) (s : State)
    (h : (s.lp.port port).link = .online →
      s.cu.cellTime < (s.lp.port port).lastArrival + livenessTime s.sq.st port) : s.livenessExpiry port = s := by
  refine if_neg fun hdue => ?_
  obtain ⟨honline, hle⟩ := (livenessDue_iff port s).1 hdue
  rw [← livenessTime_eq] at hle
  exact Nat.not_lt.2 hle (h honline)

/-- Settles O4: each expiry asks first whether its instant has been reached. -/
theorem anExpiryBeforeItsInstantChangesNothing : Obligations.AnExpiryBeforeItsInstantChangesNothing := by
  intro s
  have keep {op : State} (h : op = s) : (Host.Outcome.next op : Host.Outcome State Fault Refusal) = .next s :=
    congrArg _ h
  refine ⟨fun h => keep (if_neg (Nat.not_le.2 h)), fun h => keep (if_neg fun hr => not_reached h hr.2),
    fun h => keep (if_neg fun hr => not_reached h hr.2), fun h => keep (if_neg (not_reached h)),
    fun h => keep (if_neg fun hr => not_reached h hr.2), fun h => keep (if_neg fun hr => not_reached h hr.2),
    fun h => keep (if_neg (not_reached h)), fun k h => keep (filterExpiry_of_ahead k s h),
    fun k h => keep (if_neg (not_reached h)), fun h => keep (if_neg (not_reached h)), fun h => ?_,
    fun port _ hn => keep (livenessExpiry_of_ahead port s fun _ => hn),
    fun port ho => keep (livenessExpiry_of_ahead port s fun hl => absurd hl ho),
    fun port h => keep (if_neg (not_reached h)), fun h => keep (if_neg (not_reached h)),
    fun h => keep (if_neg (not_reached h))⟩
  obtain ⟨hload, hstore, herase, hoptions⟩ := completions_of_ahead s (completed_of_ahead s h)
  exact ⟨keep hload, keep hstore, keep herase, keep hoptions⟩

/-! ## What is due, as a filter of every expiry in its fixed order (R9) -/

/-- The expiries of one port. -/
def portExpiries (port : Port) : List Instr :=
  [.livenessExpiry port, .transmitComplete port, .interCharacterTimeout port]

/-- The expiries of the sequencer and the profile engine. -/
def scanExpiries : List Instr :=
  [.updateExpiry, .approachWaitExpiry, .dwellTimerExpiry, .postQuenchExpiry, .floodExpiry, .indexWatchExpiry,
    .pressureWatchExpiry]

/-- The expiries of the line unit. -/
def linesExpiries : List Instr :=
  (List.finRange 8).map .filterExpiry ++ (List.finRange 4).map .markPulseExpiry ++ [.withdrawalExpiry]

/-- The completions of the recipe store. -/
def storeExpiries : List Instr := [.loadComplete, .storeComplete, .eraseComplete, .optionWriteComplete]

/-- The expiries of the links. -/
def linksExpiries : List Instr :=
  portExpiries .s ++ portExpiries .p ++ portExpiries .m ++ portExpiries .q ++
    [.powerSendExpiry, .quenchSendExpiry, .warmReset]

/-- Every command that can fall due of itself, in the order in which the part asks. -/
def expiries : List Instr := scanExpiries ++ linesExpiries ++ storeExpiries ++ linksExpiries

section
variable (s : State) [DecidablePred (IsDue s)]

theorem oneIf_eq_filter {b : Bool} {i : Instr} (h : b = true ↔ IsDue s i) :
    State.oneIf b i = [i].filter (IsDue s ·) := by
  have hb : b = decide (IsDue s i) := Bool.eq_iff_iff.2 (h.trans decide_eq_true_iff.symm)
  unfold State.oneIf
  rw [List.filter_cons, List.filter_nil, hb]

theorem due_eq_filter {t : Option Nat} {i : Instr} (h : Reached t s ↔ IsDue s i) :
    State.due t s i = [i].filter (IsDue s ·) :=
  oneIf_eq_filter s ((reached_iff t s).trans h)

theorem flatMap_due_eq_filter {α : Type} (t : α → Option Nat) (f : α → Instr)
    (h : ∀ k, Reached (t k) s ↔ IsDue s (f k)) (l : List α) :
    l.flatMap (fun k => State.due (t k) s (f k)) = (l.map f).filter (IsDue s ·) := by
  induction l with
  | nil => rfl
  | cons k l ih =>
    rw [List.flatMap_cons, due_eq_filter s (h k), ih, List.map_cons, ← List.filter_append]
    rfl

theorem scanDue_eq_filter : s.scanDue = scanExpiries.filter (IsDue s ·) := by
  unfold State.scanDue
  have hupdate := oneIf_eq_filter s (b := decide (s.pe.nextUpdate ≤ s.now)) (i := .updateExpiry) decide_eq_true_iff
  rw [hupdate, due_eq_filter s Iff.rfl, due_eq_filter s Iff.rfl, due_eq_filter s Iff.rfl, due_eq_filter s Iff.rfl,
    due_eq_filter s Iff.rfl, due_eq_filter s Iff.rfl]
  simp only [← List.filter_append]
  rfl

theorem linesDue_eq_filter : s.linesDue = linesExpiries.filter (IsDue s ·) := by
  unfold State.linesDue linesExpiries
  rw [flatMap_due_eq_filter s _ .filterExpiry (fun _ => Iff.rfl),
    flatMap_due_eq_filter s _ .markPulseExpiry (fun _ => Iff.rfl), due_eq_filter s Iff.rfl,
    List.filter_append, List.filter_append]

theorem storeDue_eq_filter : s.storeDue = storeExpiries.filter (IsDue s ·) := by
  unfold State.storeDue storeExpiries
  cases hc : s.completed with
  | none => simp [IsDue, completed_iff, hc]
  | some op => cases op <;> simp [IsDue, completed_iff, hc]

theorem portDue_eq_filter (port : Port) : s.portDue port = (portExpiries port).filter (IsDue s ·) := by
  unfold State.portDue
  rw [oneIf_eq_filter s (livenessDue_iff port s), oneIf_eq_filter s (transmitDue_iff port s), due_eq_filter s Iff.rfl]
  simp only [← List.filter_append]
  rfl

theorem linksDue_eq_filter : s.linksDue = linksExpiries.filter (IsDue s ·) := by
  unfold State.linksDue
  rw [due_eq_filter s Iff.rfl, due_eq_filter s Iff.rfl, oneIf_eq_filter s (resetDue_iff s)]
  simp only [portDue_eq_filter, ← List.filter_append]
  rfl

/-- What is due at the present instant, each once and in the fixed order (R9). -/
theorem allDue_eq_filter : s.allDue = expiries.filter (IsDue s ·) := by
  unfold State.allDue expiries
  rw [scanDue_eq_filter, linesDue_eq_filter, storeDue_eq_filter, linksDue_eq_filter, List.filter_append,
    List.filter_append, List.filter_append]

end

theorem expiries_nodup : expiries.Nodup := by
  simp [expiries, scanExpiries, linesExpiries, storeExpiries, linksExpiries, portExpiries, List.finRange_succ]

/-- Nothing else falls due of itself. -/
theorem mem_expiries_of_isDue (s : State) (c : Instr) (h : IsDue s c) : c ∈ expiries := by
  unfold expiries linesExpiries linksExpiries portExpiries
  cases c with
  | livenessExpiry port | transmitComplete port | interCharacterTimeout port => cases port <;> simp
  | _ => simp_all [IsDue, scanExpiries, storeExpiries]

/-! ## The step of an empty queue (R9) -/

theorem idle_of_none_due (s : State) (h : s.allDue = []) :
    s.idle = s.setCu { s.cu with cellTime := (s.cu.cellTime + 1) % 2 ^ 64 } := by
  unfold State.idle
  rw [if_pos (List.isEmpty_iff.2 h)]
  rfl

theorem idle_of_due (s : State) (h : s.allDue ≠ []) : s.idle =
    { s with
      pending := freelyOrdered s.allDue.length s.freeCount s.allDue
      freeCount := if s.allDue.length ≤ 1 then s.freeCount else s.freeCount + s.allDue.length } := by
  unfold State.idle
  rw [if_neg (mt List.isEmpty_iff.1 h), State.queueDue]

theorem step_of_empty_queue (s : State) (h : s.pending = []) : step s = .next s.idle := by
  cases s
  cases h
  rfl

/-- Settles O2: what is due is a filter of the fixed list of expiries, and the queue takes a permutation of it. -/
theorem anEmptyQueueLetsTimePass : Obligations.AnEmptyQueueLetsTimePass := by
  classical
  intro s
  refine ⟨⟨?_, fun c => ?_⟩, fun hempty => ⟨fun hnone => ?_, fun hsome => ?_⟩⟩
  · rw [allDue_eq_filter s]
    exact expiries_nodup.filter _
  · rw [allDue_eq_filter s, List.mem_filter, decide_eq_true_iff]
    exact ⟨And.right, fun h => ⟨mem_expiries_of_isDue s c h, h⟩⟩
  · rw [step_of_empty_queue s hempty, idle_of_none_due s hnone]
  · exact ⟨_, _, freelyOrdered_perm _ _ _ (Nat.le_refl _),
      by rw [step_of_empty_queue s hempty, idle_of_due s hsome]⟩

end Sys2Proof.Machine
end

section
/-! PROOF. A power-on reset's values (O5), and the invariants in reset (O60). -/

namespace Sys2Proof.Machine

/-! ## The blocks after a power-on reset (R24, R48, R70, R93, R120, R145, R162, R176) -/

section
variable (e : ResetEnd) (s : State)

theorem powerOn_cu : (s.powerOn e).cu = Cu.resetValue 0 (EncPhase.ofLevels e.encA e.encB) := State.startUpLoad_cu _

theorem powerOn_zt : (s.powerOn e).zt = Zt.resetValue := State.startUpLoad_zt _

theorem powerOn_pe : (s.powerOn e).pe = Pe.resetValue 0 := State.startUpLoad_pe _

theorem powerOn_stk : (s.powerOn e).stk = Stk.resetValue := State.startUpLoad_stk _

theorem powerOn_lu : (s.powerOn e).lu = Lu.resetValue e.pins := State.startUpLoad_lu _

theorem powerOn_lp : (s.powerOn e).lp = Lp.resetValue := State.startUpLoad_lp _

/-- The sequencer's block; a rail between the two thresholds leaves the indication open (assumption 13). -/
theorem powerOn_sq : (s.powerOn e).sq = Sq.resetValue 0 e.railMv
    ((State.supplyFound e.railMv).getD (Config.freeSupplyLow s.interruptOp.freeCount)) := State.startUpLoad_sq _

end

/-- A rail below 4.5 V sets the indication (R138). -/
theorem supplyFound_low (mv : Nat) (h : mv < 4500) : State.supplyFound mv = some true := if_pos h

/-- A rail at 4.6 V or above clears the indication (R138). -/
theorem supplyFound_good (mv : Nat) (h : 4600 ≤ mv) : State.supplyFound mv = some false :=
  (if_neg (Nat.not_lt.2 (Nat.le_trans (by decide) h))).trans (if_pos h)

/-- A line after a reset reads what the outside drives, with its pull-up off (R163, R176). -/
theorem line_resetValue (pins : Vector PinDrive 8) (k : LineNo) :
    (Lu.resetValue pins).lines[k] = Line.resetValue pins[k] := by
  simp [Lu.resetValue]

/-- Without a pull-up, a pin reads high exactly where the outside drives it high (R163). -/
theorem pinReads_without_pullUp (d : PinDrive) : pinReads false d = (d == .high) := by cases d <;> rfl

theorem mark_resetValue (pins : Vector PinDrive 8) (k : MarkNo) : (Lu.resetValue pins).marks[k] = Mark.resetValue := by
  simp [Lu.resetValue]

/-- What the test bench supplies at the end of a reset in which nothing is driven: the rail at 5 V. -/
def quietEnd : ResetEnd := { railMv := 5000, encA := false, encB := false, pins := Vector.replicate 8 .undriven }

/-- The state after reset is what a power-on reset makes of it, where nothing is driven and the rail stands at 5 V. -/
theorem powerOn_reset : State.reset.powerOn quietEnd = State.reset := by
  have hblocks : State.reset.interruptOp.powerOnBlocks quietEnd =
      { State.reset with rs := State.storeReset Rs.delivered } := rfl
  unfold State.powerOn
  rw [hblocks, storeReset_delivered, startUpLoad_none _ rfl]
  rfl

/-- Settles O5, block by block. -/
theorem powerOnResetValues : Obligations.PowerOnResetValues := by
  refine ⟨congrArg Host.Outcome.next powerOn_reset, fun e s => ⟨s.powerOn e, rfl, State.powerOn_pending s e, ?_⟩⟩
  have hlow (h : e.railMv < 4500) : (s.powerOn e).sq.supplyLow = true := by
    rw [powerOn_sq, supplyFound_low _ h]; rfl
  have hgood (h : 4600 ≤ e.railMv) : (s.powerOn e).sq.supplyLow = false := by
    rw [powerOn_sq, supplyFound_good _ h]; rfl
  have hline (k : LineNo) : (s.powerOn e).lu.lines[k] = Line.resetValue e.pins[k] := by
    rw [powerOn_lu, line_resetValue]
  have hmark (k : MarkNo) : (s.powerOn e).lu.marks[k] = Mark.resetValue := by rw [powerOn_lu, mark_resetValue]
  have hlines (k : LineNo) : ((s.powerOn e).lu.lines[k]).role = .input .rise 0 0 .general false ∧
      ((s.powerOn e).lu.lines[k]).latch = false ∧ ((s.powerOn e).lu.lines[k]).pullUp = false ∧
      ((s.powerOn e).lu.lines[k]).filterTimer = none ∧
      ((s.powerOn e).lu.lines[k]).filtered = (e.pins[k] == .high) := by
    rw [hline]
    exact ⟨rfl, rfl, rfl, rfl, pinReads_without_pullUp _⟩
  refine ⟨powerOn_cu e s, congrArg Zt.bankA (powerOn_zt e s), congrArg Zt.bankB (powerOn_zt e s), powerOn_pe e s, ?_⟩
  have hsq := powerOn_sq e s
  refine ⟨congrArg Sq.st hsq, congrArg Sq.scanNumber hsq, congrArg Sq.heldFrom hsq, congrArg Sq.faultRecord hsq,
    congrArg Sq.secondaryCount hsq, congrArg Sq.latestSecondary hsq, congrArg Sq.nextDwell hsq,
    congrArg Sq.dwellZone hsq, congrArg Sq.startRecord hsq, congrArg Sq.firstRevolution hsq, congrArg Sq.railMv hsq,
    congrArg Sq.seekStart hsq, congrArg Sq.overPitch hsq, congrArg Sq.approachWait hsq, congrArg Sq.dwellTimer hsq,
    congrArg Sq.postQuench hsq, congrArg Sq.floodTimer hsq, congrArg Sq.indexWatch hsq, congrArg Sq.pressureWatch hsq,
    hlow, hgood, powerOn_stk e s, hlines, hmark, ?_⟩
  have hlu := powerOn_lu e s
  exact ⟨congrArg Lu.rpm hlu, congrArg Lu.travel hlu, congrArg Lu.prevIndexTime hlu, congrArg Lu.indexFrontier hlu,
    congrArg Lu.withdrawal hlu, congrArg Lu.heatEnable hlu, powerOn_lp e s⟩

/-! ## The invariants in reset -/

/-- The delivered store's conditions are those of its images and checks, as a reset leaves them (R39). -/
theorem slotInv_reset : SlotInv State.reset := by
  intro k
  calc State.reset.rs.slots[k] = (State.storeReset Rs.delivered).slots[k] :=
        (congrArg (fun r : Rs => r.slots[k]) storeReset_delivered).symm
    _ = judgedSlot Rs.delivered.slots[k] := storeReset_slot Rs.delivered k

theorem rangeInv_reset : RangeInv State.reset := by
  have hbounds : InBounds 8 (State.reset.powerOn quietEnd) := InBounds.powerOn quietEnd State.reset
  rw [powerOn_reset] at hbounds
  exact (rangeInv_iff _).2 hbounds

/-- Settles O60: in IDLE nothing runs, the track and the summary are empty, and each block holds its reset values. -/
theorem resetSatisfiesTheInvariants : Obligations.ResetSatisfiesTheInvariants := by
  have hfault : FaultInv State.reset := ⟨rfl, rfl⟩
  have hsetPoint : SetPointInv State.reset := ⟨fun _ => ⟨rfl, rfl⟩, rfl⟩
  have htimer : TimerInv State.reset := ⟨nofun, rfl, rfl, rfl, rfl⟩
  have hbank : BankInv State.reset := fun h => absurd rfl h
  have hscan : ScanInv State.reset := ⟨.nil, nofun, nofun, nofun, nofun, fun h => absurd rfl h, rfl, rfl⟩
  have hexception : ExceptionInv State.reset := fun u (hu : none = some u) => absurd hu (Option.some_ne_none u).symm
  have htrack : TrackInv State.reset :=
    ⟨fun _ hr => absurd hr List.not_mem_nil, fun (h : StartUpStatus.none = .loading) => StartUpStatus.noConfusion h⟩
  exact ⟨hfault, hsetPoint, htimer, rangeInv_reset, hbank, slotInv_reset, hscan, hexception, htrack⟩

end Sys2Proof.Machine
end

section
/-! PROOF. Every step keeps the sequencer's state, its fault record, heat-enable, the set-points and the scan's timers
in agreement (O56). An update makes the set-points agree with any state, and a change of state sets all that goes with
the state entered, so an entry agrees whatever stood before it; every other operation leaves these fields, or changes a
phase together with its timer. -/

namespace Sys2Proof.Machine

/-! ## What goes with the state -/

/-- The states entered with no timer: all but FAULT, HEATING and the phases that are timed (R72). -/
def SeqState.untimed : SeqState → Bool
  | .approach .wait | .heating | .dwell .timing | .runout .postQuench | .quenchout .postQuench | .fault _ => false
  | .idle | .armed | .seek | .approach .travel | .dwell .settling | .runout .travel | .done | .quenchout .travel
  | .held => true

/-- An untimed state is neither FAULT nor any of those in which a timer of the scan runs throughout. -/
theorem SeqState.not_timed {st : SeqState} (hu : st.untimed = true) :
    st.isFault = false ∧ (st == .dwell .timing) = false ∧
    (st == .runout .postQuench || st == .quenchout .postQuench) = false ∧ (st == .fault .flood) = false ∧
    (st == .heating) = false := by
  cases st with
  | idle | armed | seek | heating | done | held => revert hu; decide
  | approach ph | dwell ph | runout ph | quenchout ph | fault ph => cases ph <;> revert hu <;> decide

/-- The sequencer's fault record and each timer of the scan go with its state (R72, R133, R140, R142). -/
structure Sq.Agrees (q : Sq) : Prop where
  fault : q.st.isFault = q.faultRecord.isSome
  approach : q.approachWait.isSome = true → q.st = .approach .wait
  dwell : q.dwellTimer.isSome = (q.st == .dwell .timing)
  postQuench : q.postQuench.isSome = (q.st == .runout .postQuench || q.st == .quenchout .postQuench)
  flood : q.floodTimer.isSome = (q.st == .fault .flood)
  index : q.indexWatch.isSome = (q.st == .heating)

/-- The fields of the sequencer that go with its state, and the state. -/
def Sq.stateFields (q : Sq) : SeqState × Bool × Option Nat × Option Nat × Option Nat × Option Nat × Option Nat :=
  (q.st, q.faultRecord.isSome, q.approachWait, q.dwellTimer, q.postQuench, q.floodTimer, q.indexWatch)

/-- No power outside HEATING and DWELL, and the stop flag with speed 0 (R59, R62). -/
structure Pe.Fits (p : Pe) (st : SeqState) : Prop where
  cold : st.isHeat = false → p.power = 0 ∧ p.enable = false
  stop : p.stop = (p.speed == 0)

/-- What the sequencer itself sets with its state: the fault record, the timers, and heat-enable (R72, R90). -/
structure Recorded (s : State) : Prop where
  sq : s.sq.Agrees
  heat : s.lu.heatEnable = s.sq.st.isHeat

/-- The sequencer's records and the set-points held agree with the state. -/
structure Agrees (s : State) : Prop extends Recorded s where
  points : s.pe.Fits s.sq.st

theorem agrees_iff (s : State) : Agrees s ↔ FaultInv s ∧ SetPointInv s ∧ TimerInv s := by
  constructor
  · rintro ⟨⟨⟨hfault, happroach, hdwell, hpost, hflood, hindex⟩, hheat⟩, hcold, hstop⟩
    exact ⟨⟨hfault, hheat⟩, ⟨hcold, hstop⟩, happroach, hdwell, hpost, hflood, hindex⟩
  · rintro ⟨⟨hfault, hheat⟩, ⟨hcold, hstop⟩, happroach, hdwell, hpost, hflood, hindex⟩
    exact ⟨⟨⟨hfault, happroach, hdwell, hpost, hflood, hindex⟩, hheat⟩, hcold, hstop⟩

theorem Sq.Agrees.of_stateFields {q v : Sq} (h : q.Agrees) (hv : v.stateFields = q.stateFields) : v.Agrees := by
  simp only [Sq.stateFields, Prod.mk.injEq] at hv
  obtain ⟨hst, hrec, happroach, hdwell, hpost, hflood, hindex⟩ := hv
  exact ⟨by rw [hst, hrec]; exact h.fault, by rw [hst, happroach]; exact h.approach,
    by rw [hst, hdwell]; exact h.dwell, by rw [hst, hpost]; exact h.postQuench, by rw [hst, hflood]; exact h.flood,
    by rw [hst, hindex]; exact h.index⟩

/-- In an untimed state no fault is recorded and no timer of the scan runs. -/
theorem Sq.Agrees.stopped {q : Sq} (h : q.Agrees) (hu : q.st.untimed = true) :
    q.faultRecord = none ∧ q.approachWait = none ∧ q.dwellTimer = none ∧ q.postQuench = none ∧ q.floodTimer = none ∧
    q.indexWatch = none := by
  obtain ⟨hfault, happroach, hdwell, hpost, hflood, hindex⟩ := h
  have hnone : q.approachWait.isSome = false := by
    rw [← Bool.not_eq_true]
    intro hsome
    rw [happroach hsome] at hu
    exact absurd hu (by decide)
  obtain ⟨hst, hsd, hsp, hsf, hsi⟩ := SeqState.not_timed hu
  rw [hst] at hfault
  rw [hsd] at hdwell
  rw [hsp] at hpost
  rw [hsf] at hflood
  rw [hsi] at hindex
  simp only [Option.isSome_eq_false_iff, Option.isNone_iff_eq_none] at hnone hdwell hpost hflood hindex
  simp only [eq_comm (a := false), Option.isSome_eq_false_iff, Option.isNone_iff_eq_none] at hfault
  exact ⟨hfault, hnone, hdwell, hpost, hflood, hindex⟩

/-! ## The set-points of an update (R51, R59, R62) -/

theorem PeInput.power_cold (r : PeInput) (h : RecipeHeader) (hc : r.st.isHeat = false) : r.power h = 0 := by
  unfold PeInput.power
  cases hst : r.st <;> simp_all [SeqState.isHeat]

theorem Pe.noRecipe_fits (f : Int) (old : Pe) (st : SeqState) : (Pe.noRecipe f old).Fits st :=
  ⟨fun _ => ⟨rfl, rfl⟩, rfl⟩

/-- An update's set-points fit the state it reads. -/
theorem computePe_fits (r : PeInput) (header : Option RecipeHeader) (old : Pe) :
    (computePe r header old).Fits r.st := by
  unfold computePe
  split
  · exact Pe.noRecipe_fits _ _ _
  · exact Pe.noRecipe_fits _ _ _
  · next h _ => exact ⟨fun hc => ⟨PeInput.power_cold r h hc, hc⟩, rfl⟩

theorem updateCore_stateFields (s : State) : s.updateCore.sq.stateFields = s.sq.stateFields := by
  rw [updateCore_sq]
  rfl

theorem updateCore_st (s : State) : s.updateCore.sq.st = s.sq.st := congrArg Prod.fst (updateCore_stateFields s)

namespace Recorded

variable {s : State}

theorem updateCore (h : Recorded s) : Agrees s.updateCore where
  sq := h.sq.of_stateFields (updateCore_stateFields s)
  heat := by rw [updateCore_st, State.updateCore_lu]; exact h.heat
  points := by rw [updateCore_pe, updateCore_st]; exact computePe_fits _ _ _

theorem handOn (h : Recorded s) : Agrees s.handOn := by
  have hannounced : Recorded s.clearIndications.announce := ⟨by simpa using h.sq, by simpa using h.heat⟩
  exact hannounced.updateCore

end Recorded

/-! ## Entries: what is entered agrees whatever stood before -/

/-- A state entered without a fault and without a timer (R72, R90). -/
theorem enter_recorded (s : State) {st : SeqState} (hu : st.untimed = true) : Recorded (s.enter st none) := by
  obtain ⟨hfault, hdwell, hpost, hflood, hindex⟩ := SeqState.not_timed hu
  exact ⟨⟨hfault, nofun, hdwell.symm, hpost.symm, hflood.symm, hindex.symm⟩, Bool.and_true _⟩

theorem change_agrees (s : State) {st : SeqState} (hu : st.untimed = true) : Agrees (s.change st) :=
  (enter_recorded s hu).handOn

/-- FAULT entered (R139): the record, and in phase FLOOD the flood timer. -/
theorem enterFault_agrees (code : FaultCode) (source : FaultSource) (s : State) :
    Agrees (s.enterFault code source) := by
  have hentered : Recorded
      (((s.enter (.fault (State.faultPhase s.sq.st)) (some (s.recordOf code source))).dropScan).floodIf
        s.sq.st.inScan) := by
    unfold State.floodIf State.faultPhase
    cases s.sq.st.inScan <;> exact ⟨⟨rfl, nofun, rfl, rfl, rfl, rfl⟩, rfl⟩
  exact hentered.handOn

namespace Agrees

variable {s t : State}

/-! ## One block written -/

/-- The blocks that hold nothing that goes with the state, changed. -/
theorem of_frame (h : Agrees s) (hq : t.sq = s.sq) (hp : t.pe = s.pe) (hl : t.lu = s.lu) : Agrees t :=
  ⟨⟨by rw [hq]; exact h.sq, by rw [hq, hl]; exact h.heat⟩, by rw [hq, hp]; exact h.points⟩

theorem setCu (h : Agrees s) (v : Cu) : Agrees (s.setCu v) := h.of_frame rfl rfl rfl
theorem setZt (h : Agrees s) (v : Zt) : Agrees (s.setZt v) := h.of_frame rfl rfl rfl
theorem setRs (h : Agrees s) (v : Rs) : Agrees (s.setRs v) := h.of_frame rfl rfl rfl
theorem setStk (h : Agrees s) (v : Stk) : Agrees (s.setStk v) := h.of_frame rfl rfl rfl
theorem setLp (h : Agrees s) (v : Lp) : Agrees (s.setLp v) := h.of_frame rfl rfl rfl
theorem setPending (h : Agrees s) (v : List Instr) : Agrees (s.setPending v) := h.of_frame rfl rfl rfl
theorem drawn (h : Agrees s) : Agrees s.drawn := h.of_frame rfl rfl rfl

/-- The sequencer written in fields that do not go with its state. -/
theorem keepSq (h : Agrees s) {v : Sq} (hv : v.stateFields = s.sq.stateFields) : Agrees (s.setSq v) := by
  have hst : v.st = s.sq.st := congrArg Prod.fst hv
  exact ⟨⟨h.sq.of_stateFields hv, h.heat.trans (congrArg SeqState.isHeat hst.symm)⟩, hst ▸ h.points⟩

/-- The line unit written with heat-enable as it was. -/
theorem keepLu (h : Agrees s) {v : Lu} (hv : v.heatEnable = s.lu.heatEnable) : Agrees (s.setLu v) :=
  ⟨⟨h.sq, hv.trans h.heat⟩, h.points⟩

theorem ite {p : Prop} [Decidable p] (hs : Agrees s) (ht : Agrees t) : Agrees (if p then s else t) := by
  split
  · exact hs
  · exact ht

/-! ## Updates, faults and checks -/

theorem updateCore (h : Agrees s) : Agrees s.updateCore := h.toRecorded.updateCore

theorem reportFault (h : Agrees s) (code : FaultCode) (source : FaultSource) : Agrees (s.reportFault code source) := by
  unfold State.reportFault
  split
  · exact enterFault_agrees code source s
  · exact h.keepSq rfl
  · exact h

theorem travelCheck (h : Agrees s) (bounded : Bool) : Agrees (s.travelCheck bounded) := ite (h.reportFault _ _) h

theorem reversalCheck (h : Agrees s) : Agrees s.reversalCheck := ite (h.reportFault _ _) h

/-! ## Post-quench, dwell, runout and HEATING -/

/-- Post-quench begun from the travel of RUNOUT or of QUENCHOUT: the phase with its timer (R87, R88, R123). -/
theorem startPostQuench (h : Agrees s) {st : SeqState} (hu : s.sq.st.untimed = true) (hc : s.sq.st.isHeat = false)
    (hst : st = .runout .postQuench ∨ st = .quenchout .postQuench) : Agrees (s.startPostQuench st) := by
  obtain ⟨hrec, happroach, hdwell, hpost, hflood, hindex⟩ := h.sq.stopped hu
  have htimed : Recorded (s.setPhase st).startPostTimer := by
    unfold State.startPostTimer State.setPhase
    rcases hst with rfl | rfl <;>
      exact ⟨⟨by simp [hrec, SeqState.isFault], by simp [happroach], by simp [hdwell], rfl, by simp [hflood],
        by simp [hindex]⟩, h.heat.trans hc⟩
  exact htimed.updateCore

theorem judgePostQuench (h : Agrees s) : Agrees s.judgePostQuench := by
  unfold State.judgePostQuench
  split
  · next hst => exact ite (h.startPostQuench (by rw [hst]; rfl) (by rw [hst]; rfl) (.inl rfl)) h
  · split
    · next hst => exact ite (h.startPostQuench (by rw [hst]; rfl) (by rw [hst]; rfl) (.inr rfl)) h
    · exact h

/-- In DWELL the phase moves on to TIMING with the dwell timer (R85). -/
theorem settle (h : Agrees s) : Agrees s.settle := by
  unfold State.settle
  split
  · next hsettled =>
    have hst := hsettled.1
    obtain ⟨hrec, happroach, _, hpost, hflood, hindex⟩ := h.sq.stopped (by rw [hst]; rfl)
    have hheat := h.heat
    have hstop := h.points.stop
    rw [hst] at hheat
    unfold State.startDwellTimer
    exact ⟨⟨⟨by simp [hrec, SeqState.isFault], by simp [happroach], rfl, by simp [hpost], by simp [hflood],
      by simp [hindex]⟩, hheat⟩, fun hcold => absurd hcold Bool.noConfusion, hstop⟩
  · exact h

theorem enterDwell (s : State) (z : Nat) : Agrees (s.enterDwell z) :=
  have hchanged : Agrees ((s.pointDwell z).change (.dwell .settling)) := change_agrees _ rfl
  (hchanged.setStk _).settle

theorem enterRunout (s : State) : Agrees s.enterRunout :=
  have hchanged : Agrees (s.change (.runout .travel)) := change_agrees s rfl
  (hchanged.setStk _).judgePostQuench

theorem arrivalChecks (h : Agrees s) : Agrees s.arrivalChecks := by
  unfold State.arrivalChecks
  split
  · split
    · exact enterDwell s _
    · exact ite (enterRunout s) h
  · exact h

/-- HEATING entered: the index watch is started before the change is handed on (R133). -/
theorem enterHeating (s : State) : Agrees s.enterHeating :=
  have hwatched : Recorded (s.enter .heating none).startWatches := ⟨⟨rfl, nofun, rfl, rfl, rfl, rfl⟩, rfl⟩
  (hwatched.handOn.setStk _).reversalCheck.arrivalChecks

/-! ## The approach -/

theorem judgeStart (h : Agrees s) (expired : Bool) : Agrees (s.judgeStart expired) := h.keepSq rfl

theorem rejudge (h : Agrees s) : Agrees s.rejudge := ite (ite (enterHeating _) (h.judgeStart _)) h

/-- An update, and the re-judgement that may follow it in phase WAIT: the set-points before it do not matter. -/
theorem update (h : Recorded s) : Agrees s.update := ite h.updateCore h.updateCore.rejudge

/-- Phase WAIT entered from the travel to the run-in point, with its timer (R81). -/
theorem startWait (h : Agrees s) (hst : s.sq.st = .approach .travel) : Agrees s.startWait := by
  obtain ⟨hrec, _, hdwell, hpost, hflood, hindex⟩ := h.sq.stopped (by rw [hst]; rfl)
  have hheat := h.heat
  rw [hst] at hheat
  exact update ⟨⟨by simp [hrec, SeqState.isFault], fun _ => rfl, by simp [hdwell], by simp [hpost], by simp [hflood],
    by simp [hindex]⟩, hheat⟩

theorem heatOrWait (h : Agrees s) (hst : s.sq.st = .approach .travel) : Agrees s.heatOrWait :=
  ite (enterHeating s) (h.startWait hst)

theorem arriveRunIn (h : Agrees s) (hst : s.sq.st = .approach .travel) : Agrees s.arriveRunIn :=
  ite (h.reportFault _ _) ((h.judgeStart false).heatOrWait hst)

theorem runInCheck (h : Agrees s) : Agrees s.runInCheck := by
  unfold State.runInCheck
  split
  · next hst => exact ite (h.reportFault _ _) (ite (h.arriveRunIn hst) h)
  · exact h

/-! ## Holds -/

theorem enterHeld (s : State) (brk : HeldFrom) : Agrees (s.enterHeld brk) := change_agrees _ rfl

theorem enterQuenchout (s : State) (brk : HeldFrom) : Agrees (s.enterQuenchout brk) :=
  have hchanged := change_agrees (s.setSq { s.sq with heldFrom := some brk, dwellZone := none })
    (st := .quenchout .travel) rfl
  (hchanged.setStk _).judgePostQuench

theorem holdRequest (h : Agrees s) : Agrees s.holdRequest := by
  unfold State.holdRequest
  cases s.sq.st with
  | seek | approach ph => exact enterHeld s _
  | heating | dwell ph => exact enterQuenchout s _
  | idle | armed | runout ph | done | quenchout ph | held | fault ph => exact h

theorem writeHold (h : Agrees s) (field : Port) (v : Bool) : Agrees (s.writeHold field v) :=
  ite (h.setLp _).holdRequest (h.setLp _)

/-! ## A frontier advance -/

theorem trackAdvance (h : Agrees s) : Agrees s.trackAdvance :=
  have hnoticed : Agrees (s.passFrontier.noticeEmpty s.stk.track) := ite (h.setStk _).judgePostQuench (h.setStk _)
  hnoticed.setStk _

theorem markAdvance (h : Agrees s) (old : Int) (k : MarkNo) : Agrees (s.markAdvance old k) :=
  have hfired : Agrees (s.setLu (s.lu.setMark k ((s.lu.marks[k]).fire s.now s.cu.frontier))) := h.keepLu rfl
  ite (ite (hfired.setCu _) hfired) h

theorem marksAdvance (h : Agrees s) (old : Int) : Agrees (s.marksAdvance old) :=
  ite ((((h.markAdvance old 0).markAdvance old 1).markAdvance old 2).markAdvance old 3) h

theorem movePointer (h : Agrees s) : Agrees s.movePointer := by
  unfold State.movePointer
  split
  · exact h
  · exact h.keepSq rfl

theorem drainCheck (h : Agrees s) (limit : Int) : Agrees (s.drainCheck limit) := ite (h.reportFault _ _) h

theorem seqAdvance (h : Agrees s) : Agrees s.seqAdvance := by
  unfold State.seqAdvance
  split
  · exact ite (h.reportFault _ _) h
  · next hst => exact ite (h.arriveRunIn hst) h
  · exact ite (h.reportFault _ _) h
  · exact h.arrivalChecks
  · split
    · exact h
    · exact ite (h.reportFault _ _) h
  · exact h.judgePostQuench.drainCheck _
  · exact h
  · exact h.movePointer.drainCheck _
  · exact h.movePointer
  · exact h.movePointer
  all_goals exact h

theorem advance (h : Agrees s) (old : Int) : Agrees (s.advance old) := (h.trackAdvance.marksAdvance old).seqAdvance

/-! ## Commit -/

/-- A commit's new bank, origin and indications leave the sequencer; a change to ARMED follows (R38). -/
theorem exchange (h : Agrees s) : Agrees s.exchange :=
  have hjudged : Agrees ((s.setZt s.zt.exchange).takeOrigin.rejudgeQuench) := h.of_frame (by simp) (by simp) (by simp)
  ite hjudged (change_agrees _ rfl)

/-! ## The control word -/

theorem judgeClear (h : Agrees s) : Agrees s.judgeClear.1 := by
  unfold State.judgeClear
  split
  · exact h
  · split
    · split
      · exact h
      · exact change_agrees _ rfl
    · exact h

theorem acceptRun (s : State) : Agrees s.acceptRun :=
  ite ((change_agrees _ rfl).travelCheck _) ((change_agrees _ rfl).travelCheck _).runInCheck

theorem judgeRun (h : Agrees s) : Agrees s.judgeRun.1 := by
  unfold State.judgeRun
  split
  · exact h
  · split
    · exact h
    · split
      · exact h
      · exact acceptRun s

theorem arriveIfReached (h : Agrees s) : Agrees s.arriveIfReached := by
  unfold State.arriveIfReached
  split
  · next hreached => exact h.arriveRunIn hreached.1
  · exact h

theorem reenter (s : State) (brk : HeldFrom) : Agrees (s.reenter brk) := by
  cases brk with
  | seek => exact (change_agrees s rfl).travelCheck _
  | approach => exact ((change_agrees s rfl).travelCheck _).arriveIfReached
  | heating brk | dwell brk => exact (enterHeating s).travelCheck _

theorem judgeResume (h : Agrees s) : Agrees s.judgeResume.1 := by
  unfold State.judgeResume
  split
  · exact h
  · split
    · exact h
    · split
      · exact h
      · split
        · exact h
        · exact reenter _ _

theorem takeRun (h : Agrees s) : Agrees s.takeRun.1 := by
  unfold State.takeRun
  cases s.sq.st with
  | armed | done => exact h.judgeRun
  | held => exact h.judgeResume
  | idle | fault ph | seek | approach ph | heating | dwell ph | runout ph | quenchout ph => exact h

theorem takeHold (h : Agrees s) (port field : Port) (w : ControlWord) : Agrees (s.takeHold port field w) :=
  ite (h.writeHold _ _) h

theorem takeAbort (h : Agrees s) (port : Port) (w : ControlWord) : Agrees (s.takeAbort port w) :=
  ite (h.reportFault _ _) h

theorem takeKeepOn (h : Agrees s) (port : Port) (w : ControlWord) : Agrees (s.takeKeepOn port w) := ite (h.setLp _) h

theorem takeShared (h : Agrees s) (port : Port) (w : ControlWord) : Agrees (s.takeShared port w) :=
  (((((h.takeHold port .s w).takeHold port .p w).takeHold port .m w).takeHold port .q w).takeAbort port w).takeKeepOn
    port w

theorem takeClearField (h : Agrees s) (w : ControlWord) : Agrees (s.takeClearField w).1 := by
  unfold State.takeClearField
  split
  · exact h.judgeClear
  · exact h

theorem takeRunField (h : Agrees s) (w : ControlWord) : Agrees (s.takeRunField w).1 := by
  unfold State.takeRunField
  split
  · exact h.takeRun
  · exact h

theorem arrive (h : Agrees s) (w : Port) : Agrees (s.arrive w) := h.setLp _

theorem answer (h : Agrees s) (tag : Byte) (a : Answer) : Agrees (s.answer tag a) := h.setLp _

theorem superviseWord (h : Agrees s) (tag : Byte) (w : ControlWord) : Agrees (s.superviseWord tag w) :=
  (((h.takeShared .s w).takeClearField w).takeRunField w).answer _ _

theorem takeControl (h : Agrees s) (port : Port) (tag : Byte) (w : ControlWord) : Agrees (s.takeControl port tag w) :=
  ite (ite (h.arrive .s) (ite ((h.arrive .s).answer _ _) ((h.arrive .s).superviseWord tag w)))
    ((h.arrive port).takeShared port w)

/-! ## Requests -/

/-- A request whose own rule keeps the agreement; its arrival and its answer are the link ports' alone. -/
theorem takeRequest {α : Type} (h : Agrees s) (tag : Byte) (p : Payload α) {body : α → State → State × Answer}
    (hbody : ∀ f u, Agrees u → Agrees (body f u).1) : Agrees (takeRequest tag p body s) := by
  unfold Machine.takeRequest judgeRequest
  refine ite (h.arrive .s) (ite ((h.arrive .s).answer _ _) ?_)
  cases p with
  | wrongLength => exact (h.arrive .s).answer _ _
  | fields f => exact (hbody f _ (h.arrive .s)).answer _ _

/-- A request whose own rule leaves the sequencer, the set-points and the line unit. -/
theorem frameRequest {α : Type} (h : Agrees s) (tag : Byte) (p : Payload α) {body : α → State → State × Answer}
    (hq : ∀ f u, (body f u).1.sq = u.sq) (hp : ∀ f u, (body f u).1.pe = u.pe) (hl : ∀ f u, (body f u).1.lu = u.lu) :
    Agrees (Machine.takeRequest tag p body s) :=
  h.takeRequest tag p fun f u hu => hu.of_frame (hq f u) (hp f u) (hl f u)

theorem commit (h : Agrees s) (u : Unit) : Agrees (State.commit u s).1 := by
  unfold State.commit
  split
  · exact h
  · split
    · exact h
    · split
      · exact h
      · exact h.exchange

theorem disarm (h : Agrees s) (u : Unit) : Agrees (State.disarm u s).1 := by
  unfold State.disarm
  split
  · exact change_agrees s rfl
  · split
    · exact change_agrees _ rfl
    · exact h

theorem configure_heatEnable (u : Lu) (k : LineNo) (pullUp : Bool) (role : LineRole) :
    (u.configure k pullUp role).heatEnable = u.heatEnable := by
  unfold Lu.configure
  dsimp only
  split <;> rfl

theorem writeLineConfig (h : Agrees s) (w : LineWrite) : Agrees (State.writeLineConfig w s).1 := by
  unfold State.writeLineConfig
  split
  · split
    · exact h
    · split
      · exact h
      · split
        · exact h
        · exact h.keepLu (configure_heatEnable _ _ _ _)
  · exact h

theorem foldl_setLatch_heatEnable (l : List (Nat × Bool)) :
    ∀ u : Lu, (l.foldl State.setLatch u).heatEnable = u.heatEnable := by
  induction l with
  | nil => exact fun _ => rfl
  | cons w rest ih =>
    intro u
    have hone : (State.setLatch u w).heatEnable = u.heatEnable := by unfold State.setLatch; split <;> rfl
    exact (ih _).trans hone

theorem writeLatches (h : Agrees s) (l : List (Nat × Bool)) : Agrees (State.writeLatches l s).1 := by
  unfold State.writeLatches
  split
  · exact h.keepLu (foldl_setLatch_heatEnable l _)
  · exact h

theorem writeMark (h : Agrees s) (w : MarkWrite) : Agrees (State.writeMark w s).1 := by
  unfold State.writeMark
  split
  · split
    · exact h
    · exact h.keepLu rfl
  · exact h

/-! ## The recipe store's completions, the resets and the supply -/

theorem commitStartUp (h : Agrees s) : Agrees s.commitStartUp := by
  unfold State.commitStartUp
  split
  · exact h.exchange.setRs _
  · exact h.setRs _

theorem completeLoad (h : Agrees s) : Agrees s.completeLoad := by
  unfold State.completeLoad
  split
  · exact ite ((h.setZt _).setRs _).commitStartUp ((h.setZt _).setRs _)
  · exact h

theorem blocksReset (time : Nat) (scan : Word32) (phase : EncPhase) (pins : Vector PinDrive 8) (railMv : Nat) (rs : Rs)
    (s : State) : Agrees (s.blocksReset time scan phase pins railMv rs) :=
  ⟨⟨⟨rfl, nofun, rfl, rfl, rfl, rfl⟩, rfl⟩, fun _ => ⟨rfl, rfl⟩, rfl⟩

theorem startUpLoad (h : Agrees s) : Agrees s.startUpLoad := h.of_frame (by simp) (by simp) (by simp)

theorem powerOn (e : ResetEnd) (s : State) : Agrees (s.powerOn e) := (blocksReset _ _ _ _ _ _ _).startUpLoad

theorem warmReset (s : State) : Agrees s.warmReset := (blocksReset _ _ _ _ _ _ _).startUpLoad

theorem takeRail (h : Agrees s) (railMv : Nat) : Agrees (s.takeRail railMv) :=
  have hset : Agrees (s.setRail railMv) := h.keepSq rfl
  ite (hset.reportFault _ _) hset

/-! ## The links' own commands and the reports -/

theorem livenessExpiry (h : Agrees s) (port : Port) : Agrees (s.livenessExpiry port) := by
  have hlost : Agrees (s.loseLink port) := h.setLp _
  unfold State.livenessExpiry
  split
  · cases port with
    | s =>
      have hpolicy : Agrees (s.loseLink .s).applyLossPolicy := ite (hlost.writeHold _ _) hlost
      exact ite (warmReset _) hpolicy
    | p | m => exact hlost.reportFault _ _
    | q =>
      have hjudged : Agrees (s.loseLink .q).loseQuench := ite (hlost.setLp _) hlost
      exact hjudged.reportFault _ _
  · exact h

theorem answerRole (h : Agrees s) (tag : Byte) : Agrees (s.answerRole tag) :=
  ite (h.arrive .s) ((h.arrive .s).answer _ _)

theorem takePower (h : Agrees s) (r : PowerReport) (st : InverterState) : Agrees (s.takePower r st) :=
  have hkept : Agrees (s.keepPower r st) := h.setLp _
  have hcredited : Agrees ((s.keepPower r st).creditPower r) := hkept.setStk _
  have htripped : Agrees ((s.keepPower r st).takeTrip r) :=
    ite ((hkept.drawn.reportFault _ _).setStk _) ((hkept.drawn.setStk _).reportFault _ _)
  have hnoted : Agrees (((s.keepPower r st).creditPower r).noteLimiting st) := ite (hcredited.setStk _) hcredited
  ite htripped hnoted.rejudge

theorem powerReport (h : Agrees s) (p : Payload PowerReport) : Agrees (s.powerReport p) := by
  unfold State.powerReport
  split
  · exact h.arrive .p
  · split
    · exact h.arrive .p
    · exact (h.arrive .p).takePower _ _

theorem driveStatus (h : Agrees s) (p : Payload Nat) : Agrees (s.driveStatus p) := by
  unfold State.driveStatus
  split
  · exact h.arrive .m
  · split
    · exact h.arrive .m
    · exact ite (((h.arrive .m).setLp _).reportFault _ _) ((h.arrive .m).setLp _)

theorem watchPressure (h : Agrees s) (r : QuenchReport) : Agrees (s.watchPressure r) := by
  unfold State.watchPressure
  split
  · exact h
  · exact ite (ite (h.keepSq rfl) h) (h.keepSq rfl)

theorem quenchReport (h : Agrees s) (p : Payload QuenchReport) : Agrees (s.quenchReport p) := by
  unfold State.quenchReport
  split
  · exact h.arrive .q
  · next r =>
    have hkept : Agrees ((s.arrive .q).keepQuench (State.boundQuench r)) := (h.arrive .q).setLp _
    have hjudged : Agrees ((s.arrive .q).keepQuench (State.boundQuench r)).judgeIndications :=
      ite hkept (hkept.of_frame (by simp) (by simp) (by simp))
    exact hjudged.watchPressure _

/-! ## The receivers -/

theorem discardFrame (h : Agrees s) (port : Port) : Agrees (s.discardFrame port) := h.setLp _

theorem takeControlPayload (h : Agrees s) (port : Port) (tag : Byte) (l : List Byte) :
    Agrees (s.takeControlPayload port tag l) := by
  unfold State.takeControlPayload
  split
  · exact h.takeControl port tag _
  · exact ite (h.arrive port) ((h.arrive port).answer _ _)

theorem takeSupervisor (h : Agrees s) (k : FrameKind) (tag : Byte) (l : List Byte) :
    Agrees (s.takeSupervisor k tag l) := by
  cases k with
  | control => exact h.takeControlPayload .s tag l
  | commit => exact h.takeRequest tag _ fun f _ hu => hu.commit f
  | disarm => exact h.takeRequest tag _ fun f _ hu => hu.disarm f
  | writeLineConfig => exact h.takeRequest tag _ fun f _ hu => hu.writeLineConfig f
  | writeLine => exact h.takeRequest tag _ fun f _ hu => hu.writeLatches f
  | writeMark => exact h.takeRequest tag _ fun f _ hu => hu.writeMark f
  | readStatus | writeHeader | writeZone | readZone | loadRecipe | storeRecipe | eraseRecipe | readSummary
  | readException | readCapture | readFault | writePositionConfig | readLines | writeOptions | reset =>
    exact h.frameRequest tag _ (by simp) (by simp) (by simp)
  | powerReport | driveStatus | quenchReport | sentByPart => exact h.answerRole tag

theorem takeFrame (h : Agrees s) (port : Port) (kind tag : Byte) (l : List Byte) :
    Agrees (s.takeFrame port kind tag l) := by
  unfold State.takeFrame
  split
  · exact h.arrive _
  · exact h.takeSupervisor _ tag l
  · exact h.takeControlPayload _ tag l
  · exact h.powerReport _
  · exact h.driveStatus _
  · exact h.quenchReport _
  · exact h.arrive _

theorem takeCharacter (h : Agrees s) (port : Port) (c : Byte) (stopHigh : Bool) :
    Agrees (s.takeCharacter port c stopHigh) := by
  have hgood : Agrees (s.goodCharacter port c) := by
    unfold State.goodCharacter
    dsimp only
    split
    · exact ite (h.setLp _) h
    · exact h.setLp _
    · exact h.setLp _
    · exact ite (h.discardFrame _) (h.setLp _)
    · exact ite (h.setLp _) (h.setLp _)
    · exact h.setLp _
    · exact ite (h.takeFrame _ _ _ _) (h.discardFrame _)
  exact ite hgood (h.discardFrame _)

/-! ## The timers and the lines -/

theorem updateExpiry (h : Agrees s) : Agrees s.updateExpiry :=
  have hdue : Recorded (s.setPe { s.pe with nextUpdate := s.pe.nextUpdate + Config.updatePeriod }) := ⟨h.sq, h.heat⟩
  ite (update hdue).settle h

/-- The wait's expiry (R82): the timer may stop in phase WAIT. -/
theorem waitExpiry (h : Agrees s) : Agrees s.waitExpiry :=
  have hstopped : Agrees (s.setSq { s.sq with
      approachWait := none, startRecord := { s.sq.startRecord with waitExpired := true } }) :=
    ⟨⟨⟨h.sq.fault, nofun, h.sq.dwell, h.sq.postQuench, h.sq.flood, h.sq.index⟩, h.heat⟩, h.points⟩
  ite (ite (h.reportFault _ _) (ite (h.reportFault _ _) hstopped)) h

theorem dwellExpiry (h : Agrees s) : Agrees s.dwellExpiry := ite (enterHeating _) h

theorem postQuenchExpiry (h : Agrees s) : Agrees s.postQuenchExpiry :=
  have hdone : Agrees (s.change .done) := change_agrees s rfl
  ite (ite (hdone.setStk _) (ite (change_agrees s rfl) h)) h

/-- The flood's end (R142): phase STANDING, and the flood timer at its end. -/
theorem floodExpiry (h : Agrees s) : Agrees s.floodExpiry := by
  unfold State.floodExpiry
  split
  · next hended =>
    have hst := hended.1
    obtain ⟨hfault, happroach, hdwell, hpost, _, hindex⟩ := h.sq
    have hheat := h.heat
    rw [hst] at hfault happroach hdwell hpost hindex hheat
    exact update ⟨⟨hfault, fun hsome => absurd (happroach hsome) nofun, hdwell, hpost, rfl, hindex⟩, hheat⟩
  · exact h

theorem pressureWatchExpiry (h : Agrees s) : Agrees s.pressureWatchExpiry :=
  have hstopped : Agrees (s.setSq { s.sq with pressureWatch := none }) := h.keepSq rfl
  ite (hstopped.reportFault _ _) h

theorem endSeek (h : Agrees s) : Agrees s.endSeek := ite (change_agrees s rfl).runInCheck h

theorem datumEdge (h : Agrees s) (c : Int) : Agrees (s.datumEdge c) := by
  unfold State.datumEdge
  split
  · exact h
  · exact ite ((h.setCu _).travelCheck _).endSeek (ite (h.setStk _) h)

/-- A revolution that ends in HEATING restarts the index watch, which runs there already (R133). -/
theorem judgeRevolution (h : Agrees s) (hst : s.sq.st = .heating) : Agrees s.judgeRevolution :=
  have hcounted : Agrees s.countRevolution :=
    ⟨⟨⟨h.sq.fault, h.sq.approach, h.sq.dwell, h.sq.postQuench, h.sq.flood,
      by simp [State.countRevolution, hst]⟩, h.heat⟩, h.points⟩
  ite (hcounted.reportFault _ _) hcounted

theorem handRevolution (h : Agrees s) : Agrees s.handRevolution := by
  unfold State.handRevolution
  split
  · next hst => exact h.judgeRevolution hst
  · exact h.rejudge

theorem indexEdge_heatEnable (u : Lu) (now : Nat) (f : Int) : (u.indexEdge now f).1.heatEnable = u.heatEnable := by
  unfold Lu.indexEdge
  split <;> rfl

theorem indexEdge (h : Agrees s) : Agrees s.indexEdge :=
  have hmeasured : Agrees (s.setLu (s.lu.indexEdge s.now s.cu.frontier).1) := h.keepLu (indexEdge_heatEnable _ _ _)
  ite hmeasured.handRevolution hmeasured

theorem handLevel (h : Agrees s) (fn : InputFn) (taken level : Bool) (c : Int) :
    Agrees (s.handLevel fn taken level c) := by
  cases fn with
  | datum => exact ite (h.datumEdge c) h
  | endProbe => exact ite (ite (h.reportFault _ _) h) h
  | spindleIndex => exact ite h.indexEdge h
  | coilWater => exact ite h.rejudge (h.reportFault _ _).rejudge
  | interlock => exact ite h (h.reportFault _ _)
  | general => exact h

theorem filterExpiry (h : Agrees s) (k : LineNo) : Agrees (s.filterExpiry k) := by
  have haccepted : Agrees (s.acceptLine k) := h.keepLu rfl
  unfold State.filterExpiry
  dsimp only
  split
  · exact h
  · exact ite (ite haccepted (handLevel (ite (haccepted.setCu _) haccepted) _ _ _ _)) h

theorem withdrawalExpiry (h : Agrees s) : Agrees s.withdrawalExpiry :=
  have hwithdrawn : Agrees (s.setLu { s.lu with rpm := none, withdrawal := none }) := h.keepLu rfl
  ite hwithdrawn.rejudge h

/-! ## The encoder and the passing of time -/

theorem takeEdge (h : Agrees s) (up : Bool) : Agrees (s.takeEdge up) :=
  have hchecked : Agrees (((s.moveEdge up).travelCheck (s.cu.stepEdge up).2).reversalCheck) :=
    ((h.setCu _).travelCheck _).reversalCheck
  ite (hchecked.advance _) hchecked

theorem takeLevels (h : Agrees s) (a b : Bool) : Agrees (s.takeLevels a b) := by
  have hlegal : ∀ p forward, Agrees (s.legalTransition p forward) := fun p forward =>
    ite ((h.setCu _).takeEdge _) (h.setCu _)
  unfold State.takeLevels
  dsimp only
  split
  · exact h
  · exact hlegal _ _
  · exact hlegal _ _
  · exact (h.setCu _).reportFault _ _

theorem idle (h : Agrees s) : Agrees s.idle := ite (h.setCu _) (h.of_frame rfl rfl rfl)

/-! ## Every command -/

theorem next (h : Agrees s) (e : (.next s : Host.Outcome State Fault Refusal) = .next t) : Agrees t := by
  cases e; exact h

theorem exec (h : Agrees s) (c : Instr) (e : exec c s = .next t) : Agrees t := by
  cases c with
  | encoderTransition a b => exact next (h.takeLevels a b) e
  | indexRisingEdge => exact next (h.setCu _) e
  | updateExpiry => exact next h.updateExpiry e
  | holdRequest port tag field word | holdFieldCleared port tag field word => exact next (h.takeControl port tag _) e
  | abort port tag word => exact next (h.takeControl port tag _) e
  | quenchKeepOn port tag on word => exact next (h.takeControl port tag _) e
  | faultClear tag word | run tag word => exact next (h.takeControl .s tag _) e
  | commit tag p => exact next (h.takeRequest tag p fun f _ hu => hu.commit f) e
  | disarm tag p => exact next (h.takeRequest tag p fun f _ hu => hu.disarm f) e
  | writeLineConfig tag p => exact next (h.takeRequest tag p fun f _ hu => hu.writeLineConfig f) e
  | writeLine tag p => exact next (h.takeRequest tag p fun f _ hu => hu.writeLatches f) e
  | writeMark tag p => exact next (h.takeRequest tag p fun f _ hu => hu.writeMark f) e
  | readStatus tag p | writeHeader tag p | writeZone tag p | readZone tag p | loadRecipe tag p | storeRecipe tag p
  | eraseRecipe tag p | readSummary tag p | readException tag p | readCapture tag p | readFault tag p
  | writePositionConfig tag p | readLines tag p | writeOptions tag p | reset tag p =>
    exact next (h.frameRequest tag p (by simp) (by simp) (by simp)) e
  | answeredRole tag => exact next (h.answerRole tag) e
  | frameDiscard port => exact next (h.discardFrame port) e
  | interCharacterTimeout port => exact next (ite (h.discardFrame port) h) e
  | powerReport p => exact next (h.powerReport p) e
  | driveStatus p => exact next (h.driveStatus p) e
  | quenchReport p => exact next (h.quenchReport p) e
  | livenessExpiry port => exact next (h.livenessExpiry port) e
  | transmitComplete port => exact next (ite (h.setLp _) h) e
  | powerSendExpiry | quenchSendExpiry => exact next (ite (h.setLp _) h) e
  | warmReset => exact next (ite (warmReset _) h) e
  | powerOnReset levels => exact next (powerOn levels s) e
  | supply railMv | supplyRestored railMv => exact next (h.takeRail railMv) e
  | loadComplete => exact next h.completeLoad e
  | storeComplete | eraseComplete | optionWriteComplete => exact next (h.of_frame (by simp) (by simp) (by simp)) e
  | approachWaitExpiry => exact next h.waitExpiry e
  | dwellTimerExpiry => exact next h.dwellExpiry e
  | postQuenchExpiry => exact next h.postQuenchExpiry e
  | floodExpiry => exact next h.floodExpiry e
  | indexWatchExpiry => exact next (ite (h.reportFault _ _) h) e
  | pressureWatchExpiry => exact next h.pressureWatchExpiry e
  | auxPinChange line drive => exact next (h.keepLu (by rfl)) e
  | filterExpiry line => exact next (h.filterExpiry line) e
  | markPulseExpiry mark => exact next (ite (h.keepLu (by rfl)) h) e
  | withdrawalExpiry => exact next h.withdrawalExpiry e
  | discardedKindArrival port => exact next (h.arrive port) e
  | characterReceived port char stopHigh => exact next (h.takeCharacter port char stopHigh) e

theorem step (h : Agrees s) (e : step s = .next t) : Agrees t := by
  unfold Machine.step at e
  split at e
  · exact next h.idle e
  · exact (h.setPending _).exec _ e

end Agrees

/-- Settles O56: the agreement is kept by the passing of time and by every command, each by the operations it is made
of. -/
theorem stepKeepsTheSequencer : Obligations.StepKeepsTheSequencer := by
  intro s t hfault hpoints htimers e
  exact (agrees_iff t).1 (((agrees_iff s).2 ⟨hfault, hpoints, htimers⟩).step e)

end Sys2Proof.Machine
end

section
/-! PROOF. The zone that holds a scan distance (O12) and the energy per length there (O13). -/

namespace Sys2Proof.Machine

/-! ## What a passed validation says of the zones' starts and of the last zone (R34) -/

theorem layoutFailure_of_validate {k : Nat} {b : Bank} (h : validate k b = none) : layoutFailure b = none := by
  unfold validate at h
  split at h
  · exact absurd h nofun
  · split at h
    · exact absurd h nofun
    · assumption

/-- Checks 6 and 7 of a layout that passes: the last zone is END, and no start is out of order. -/
theorem zoneList_of_layout {b : Bank} (h : layoutFailure b = none) :
    (∃ e, b.zoneList.getLast? = some e ∧ e.kind = .finish) ∧ startFailure 0 none b.zoneList = none := by
  unfold layoutFailure at h
  dsimp only at h
  split at h
  · exact absurd h nofun
  · split at h
    · exact absurd h nofun
    · split at h
      · exact absurd h nofun
      · split at h
        · exact absurd h nofun
        · next hend =>
          split at h
          · exact absurd h nofun
          · next hstarts =>
            refine ⟨?_, hstarts⟩
            cases hlast : b.zoneList.getLast? with
            | none => simp [hlast] at hend
            | some e => exact ⟨e, rfl, by simpa [hlast] using hend⟩

/-- After a start, check 7 asks for starts that lie above it and rise. -/
theorem starts_rise_of_startFailure (zones : List ZoneEntry) : ∀ (i p : Nat), startFailure i (some p) zones = none →
    (∀ e ∈ zones, p < e.startX) ∧ zones.Pairwise (fun e e' => e.startX < e'.startX) := by
  induction zones with
  | nil => exact fun _ _ _ => ⟨nofun, .nil⟩
  | cons z rest ih =>
    intro i p h
    unfold startFailure at h
    dsimp only at h
    split at h
    · next hgood =>
      obtain ⟨hfirst, -⟩ := Bool.and_eq_true_iff.1 hgood
      have hp : p < z.startX := of_decide_eq_true hfirst
      obtain ⟨habove, hrise⟩ := ih _ _ h
      exact ⟨List.forall_mem_cons.2 ⟨hp, fun e he => Nat.lt_trans hp (habove e he)⟩, .cons habove hrise⟩
    · exact absurd h nofun

/-- Check 7 from the first zone on: the first start is 0 and the starts rise. -/
theorem starts_of_startFailure {zones : List ZoneEntry} (hne : zones ≠ []) (h : startFailure 0 none zones = none) :
    zones[0]?.map (·.startX) = some 0 ∧ zones.Pairwise (fun e e' => e.startX < e'.startX) := by
  cases zones with
  | nil => exact absurd rfl hne
  | cons z rest =>
    unfold startFailure at h
    dsimp only at h
    split at h
    · next hgood =>
      obtain ⟨hzero, -⟩ := Bool.and_eq_true_iff.1 hgood
      obtain ⟨habove, hrise⟩ := starts_rise_of_startFailure rest _ _ h
      exact ⟨congrArg some (eq_of_beq hzero), .cons habove hrise⟩
    · exact absurd h nofun

/-! ## The lookup (R53) -/

/-- Zone z of a list is the last that has started at y. -/
def IsLastStarted (y : Int) (zones : List ZoneEntry) (z : Nat) : Prop :=
  (∃ e, zones[z]? = some e ∧ (e.startX : Int) ≤ y) ∧
  ∀ j e', zones[j]? = some e' → z < j → y < (e'.startX : Int)

/-- The last zone started among the zones after the first is the last started of all. -/
theorem isLastStarted_cons_succ {y : Int} {e : ZoneEntry} {rest : List ZoneEntry} {z : Nat}
    (h : IsLastStarted y rest z) : IsLastStarted y (e :: rest) (z + 1) := by
  obtain ⟨hstarted, hlater⟩ := h
  refine ⟨hstarted, fun j e' he' hj => ?_⟩
  obtain ⟨m, rfl⟩ : ∃ m, j = m + 1 := ⟨j - 1, by omega⟩
  exact hlater m e' he' (by omega)

/-- The scan answers with the last zone started, and with what it was given where none has. -/
theorem lastStarted_spec (y : Int) (zones : List ZoneEntry) : ∀ (i : Nat) (best : Option Nat),
    (∃ z, IsLastStarted y zones z ∧ lastStarted y i best zones = some (i + z)) ∨
    ((∀ e ∈ zones, y < (e.startX : Int)) ∧ lastStarted y i best zones = best) := by
  induction zones with
  | nil => exact fun _ _ => .inr ⟨nofun, rfl⟩
  | cons e rest ih =>
    intro i best
    by_cases hstarted : (e.startX : Int) ≤ y
    · have hscan : lastStarted y i best (e :: rest) = lastStarted y (i + 1) (some i) rest := by
        rw [lastStarted, if_pos hstarted]
      rw [hscan]
      rcases ih (i + 1) (some i) with ⟨z, hlast, heq⟩ | ⟨hnone, heq⟩
      · exact .inl ⟨z + 1, isLastStarted_cons_succ hlast, by rw [heq, Nat.add_assoc, Nat.add_comm 1]⟩
      · refine .inl ⟨0, ⟨⟨e, rfl, hstarted⟩, fun j e' he' hj => ?_⟩, heq⟩
        obtain ⟨m, rfl⟩ : ∃ m, j = m + 1 := ⟨j - 1, by omega⟩
        exact hnone e' (List.mem_of_getElem? he')
    · have hscan : lastStarted y i best (e :: rest) = lastStarted y (i + 1) best rest := by
        rw [lastStarted, if_neg hstarted]
      rw [hscan]
      rcases ih (i + 1) best with ⟨z, hlast, heq⟩ | ⟨hnone, heq⟩
      · exact .inl ⟨z + 1, isLastStarted_cons_succ hlast, by rw [heq, Nat.add_assoc, Nat.add_comm 1]⟩
      · exact .inr ⟨List.forall_mem_cons.2 ⟨Int.not_le.1 hstarted, hnone⟩, heq⟩

/-- Where zone 0 starts at 0, every scan distance from 0 on lies in the last zone that has started there. -/
theorem findZone_of_first_zero {zones : List ZoneEntry} (hzero : zones[0]?.map (·.startX) = some 0) {y : Int}
    (hy : 0 ≤ y) : ∃ z, IsLastStarted y zones z ∧ findZone zones y = some z := by
  unfold findZone
  rw [if_neg (Int.not_lt.2 hy)]
  rcases lastStarted_spec y zones 0 none with ⟨z, hlast, heq⟩ | ⟨hnone, -⟩
  · exact ⟨z, hlast, by rw [heq, Nat.zero_add]⟩
  · obtain ⟨e, he, hstart⟩ := Option.map_eq_some_iff.1 hzero
    have hbefore := hnone e (List.mem_of_getElem? he)
    rw [hstart] at hbefore
    omega

/-- At or beyond the last start, the zone is the last. -/
theorem findZone_last {zones : List ZoneEntry} (hzero : zones[0]?.map (·.startX) = some 0) {e : ZoneEntry}
    (hlast : zones.getLast? = some e) {y : Int} (hy : (e.startX : Int) ≤ y) :
    findZone zones y = some (zones.length - 1) := by
  obtain ⟨z, ⟨⟨f, hf, -⟩, hlater⟩, heq⟩ := findZone_of_first_zero hzero (y := y) (by omega)
  rw [List.getLast?_eq_getElem?] at hlast
  have hz : z < zones.length := (List.getElem?_eq_some_iff.1 hf).1
  have hle : ¬ z < zones.length - 1 := fun hlt => Int.not_lt.2 hy (hlater _ e hlast hlt)
  rw [heq, show z = zones.length - 1 by omega]

/-- Settles O12: the starts that checks 6 and 7 leave, and the scan for the last zone that has started. -/
theorem zoneOfAScanDistance : Obligations.ZoneOfAScanDistance := by
  intro k b y hvalid
  obtain ⟨⟨e, hlast, hend⟩, hstarts⟩ := zoneList_of_layout (layoutFailure_of_validate hvalid)
  have hne : b.zoneList ≠ [] := by
    intro hnil
    rw [hnil] at hlast
    exact absurd hlast nofun
  obtain ⟨hzero, hrise⟩ := starts_of_startFailure hne hstarts
  refine ⟨fun hy => if_pos hy, fun hy => ?_, hzero, hrise, e, hlast, hend, ?_, findZone_last hzero hlast⟩
  · obtain ⟨z, ⟨⟨f, hf, hle⟩, hlater⟩, heq⟩ := findZone_of_first_zero hzero hy
    exact ⟨z, f, heq, hf, hle, hlater⟩
  · rw [zonesEnd, hlast]; rfl

/-! ## The energy per length (R55, R56) -/

/-- In a zone of a kind that is no ramp: its E in HEAT and DWELL, 0 in GAP and END. -/
theorem energyAt_flat {zones : List ZoneEntry} {z : Nat} {e : ZoneEntry} (he : zones[z]? = some e) (y : Int)
    (hkind : e.kind ≠ .ramp) :
    energyAt zones z y = if e.kind = .heat ∨ e.kind = .dwell then e.energy.getD 0 else 0 := by
  unfold energyAt
  rw [he]
  cases hk : e.kind <;> simp_all

/-- In a RAMP zone with a zone after it: the interpolated value, held at 0. -/
theorem energyAt_ramp {zones : List ZoneEntry} {z : Nat} {e n : ZoneEntry} (he : zones[z]? = some e)
    (hn : zones[z + 1]? = some n) (y : Int) (hkind : e.kind = .ramp) :
    energyAt zones z y = (((e.energy.getD 0 : Nat) : Int) +
      (((n.energy.getD 0 : Nat) - (e.energy.getD 0 : Nat) : Int) * (y - (e.startX : Int))).tdiv
        ((n.startX : Int) - (e.startX : Int))).toNat := by
  unfold energyAt
  simp only [he, hkind, hn]

/-- A line between two values that are not negative, its quotient truncated toward zero, is not negative. -/
theorem interpolated_nonneg (a b : Nat) {p q : Int} (hp : 0 ≤ p) (hpq : p < q) :
    0 ≤ (a : Int) + (((b : Int) - a) * p).tdiv q := by
  rcases Int.le_total (a : Int) b with hle | hle
  · exact Int.add_nonneg (Int.natCast_nonneg a)
      (Int.tdiv_nonneg (Int.mul_nonneg (Int.sub_nonneg.2 hle) hp) (by omega))
  · have hfall : ((b : Int) - a) * p = -(((a : Int) - b) * p) := by rw [← Int.neg_mul, Int.neg_sub]
    have hprod : 0 ≤ ((a : Int) - b) * p := Int.mul_nonneg (Int.sub_nonneg.2 hle) hp
    have hbound : ((a : Int) - b) * p ≤ a * q :=
      Int.mul_le_mul (by omega) (by omega) hp (Int.natCast_nonneg a)
    have hquot : (((a : Int) - b) * p).tdiv q ≤ a := by
      rw [Int.tdiv_eq_ediv_of_nonneg hprod]
      exact Int.ediv_le_of_le_mul (by omega) hbound
    rw [hfall, Int.neg_tdiv]
    omega

/-- Settles O13, by the zone's kind; the interpolated value is not negative, so that the model's number is it. -/
theorem energyByZoneKind : Obligations.EnergyByZoneKind := by
  intro zones z y e he
  refine ⟨fun hkind => ?_, fun hkind => ?_, fun n hkind hn hlow hhigh => ?_⟩
  · rw [energyAt_flat he y (by rintro hramp; simp [hramp] at hkind), if_pos hkind]
  · rw [energyAt_flat he y (by rintro hramp; simp [hramp] at hkind), if_neg]
    rcases hkind with hkind | hkind <;> simp [hkind]
  · rw [energyAt_ramp he hn y hkind]
    exact Int.toNat_of_nonneg (interpolated_nonneg _ _ (by omega) (by omega))

end Sys2Proof.Machine
end

section
/-! PROOF. An update at its instant: the set-points in HEATING (O14), in every other state (O15), and those of quench
(O16). -/

namespace Sys2Proof.Machine

/-! ## The update of the timer, before what the sequencer makes of it (R49 to R51) -/

/-- The update timer restarted 250 us on (R49). -/
def restarted (s : State) : State := s.setPe { s.pe with nextUpdate := s.pe.nextUpdate + 250 }

/-- The state after the update of the timer's expiry: the timer restarted, the set-points computed and handed on. -/
def updated (s : State) : State := (restarted s).updateCore

/-- At its instant the expiry is the update, the re-judgement of phase WAIT, and the read of v in phase SETTLING. -/
theorem exec_updateExpiry (s : State) (hdue : s.pe.nextUpdate ≤ s.cu.cellTime) :
    exec .updateExpiry s = .next ((updated s).rejudgeChanged s.pe.spindle).settle :=
  congrArg Host.Outcome.next (if_pos hdue)

theorem computePe_nextUpdate (r : PeInput) (header : Option RecipeHeader) (old : Pe) :
    (computePe r header old).nextUpdate = old.nextUpdate := by
  unfold computePe
  split <;> rfl

theorem computePe_without_header (r : PeInput) (old : Pe) : computePe r none old = Pe.noRecipe r.frontier old := by
  unfold computePe
  cases r.st <;> rfl

section
variable (s : State)

theorem updated_pe : (updated s).pe = computePe s.peInput s.recipe (restarted s).pe := updateCore_pe (restarted s)

theorem updated_nextUpdate : (updated s).pe.nextUpdate = s.pe.nextUpdate + 250 := by
  rw [updated_pe, computePe_nextUpdate]
  rfl

theorem updated_sq : (updated s).sq = { s.sq with
    pressureWatch := if (updated s).pe.latch || (updated s).pe.quenchZone.isSome then s.sq.pressureWatch else none } :=
  updateCore_sq (restarted s)

theorem updated_st : (updated s).sq.st = s.sq.st := updateCore_st (restarted s)

theorem updated_stk : (updated s).stk = if (updated s).pe.powerLimited then limitedStk s.stk else s.stk :=
  updateCore_stk (restarted s)

theorem updated_stk_of_ne (hst : s.sq.st ≠ .heating) : (updated s).stk = s.stk :=
  updateCore_stk_of_ne (restarted s) hst

theorem updated_sent : SetPointsSent s (updated s) :=
  (updateCore_sent (restarted s)).congr rfl rfl (fun _ => rfl) rfl rfl rfl rfl

/-- What an update leaves: every other block, and of the link ports what is no port's. -/
theorem updated_frame : (updated s).cu = s.cu ∧ (updated s).zt = s.zt ∧ (updated s).rs = s.rs ∧
    (updated s).lu = s.lu ∧ SameKept s.lp (updated s).lp ∧ (updated s).lp.acks = s.lp.acks ∧
    (updated s).pending = s.pending := by
  simp [updated, restarted, SameKept]

/-- The set-points that the update finds are those of the state that it reads. -/
theorem updated_points (h : RecipeHeader) (hr : s.zt.activeBank.header = some h) :
    SetPointsOf h s.pe.latch (s.setPe (updated s).pe) := by
  refine computePe_points h (restarted s).pe _ ?_
  rw [State.setPe_pe, updated_pe, show s.recipe = some h from hr]
  rfl

/-- Without an active header everything is off, at the frontier read. -/
theorem updated_off (hr : s.zt.activeBank.header = none) :
    (updated s).pe = offPoints s.cu.frontier { s.pe with nextUpdate := s.pe.nextUpdate + 250 } := by
  rw [updated_pe, show s.recipe = none from hr, computePe_without_header]
  rfl

end

/-! ## What the sequencer makes of an update (R82, R85) -/

theorem rejudgeChanged_of_not_wait (s : State) (n : Nat) (hst : s.sq.st ≠ .approach .wait) :
    s.rejudgeChanged n = s := by
  unfold State.rejudgeChanged State.rejudge
  rw [if_neg hst, ite_self]

theorem settle_of_not_settling {s : State} (hst : s.sq.st ≠ .dwell .settling) : s.settle = s :=
  if_neg fun hsettled => hst hsettled.1

theorem settle_of_moving {s : State} (hv : 100 ≤ s.cu.speed.natAbs) : s.settle = s :=
  if_neg fun hsettled => Nat.not_lt.2 hv hsettled.2

/-- Where v is read below 100 um/s in phase SETTLING, the dwell timer of the dwell zone starts (R85). -/
theorem settle_of_still {s : State} (hst : s.sq.st = .dwell .settling) (hv : s.cu.speed.natAbs < 100) {z : Nat}
    {e : ZoneEntry} (hz : s.sq.dwellZone = some z) (he : s.zones[z]? = some e) :
    s.settle = s.setSq { s.sq with
      st := .dwell .timing, dwellTimer := some (s.cu.cellTime + 1000 * e.dwellTime.getD 0) } := by
  unfold State.settle State.startDwellTimer State.dwellTime
  rw [if_pos ⟨hst, hv⟩, hz, Option.bind_some, he, Option.bind_some]

/-- A second read of v at the same instant finds nothing to do. -/
theorem settle_settle (s : State) : s.settle.settle = s.settle := by
  by_cases hsettled : s.sq.st = .dwell .settling ∧ s.cu.speed.natAbs < 100
  · have hst : s.settle.sq.st = .dwell .timing := by
      unfold State.settle
      rw [if_pos hsettled]
      rfl
    exact settle_of_not_settling (by rw [hst]; nofun)
  · rw [show s.settle = s from if_neg hsettled]
    exact if_neg hsettled

/-- Elsewhere than in WAIT and SETTLING the sequencer makes nothing of the update. -/
theorem exec_updateExpiry_plain {s : State} (hdue : s.pe.nextUpdate ≤ s.cu.cellTime)
    (hsettling : s.sq.st ≠ .dwell .settling) (hwait : s.sq.st ≠ .approach .wait) :
    exec .updateExpiry s = .next (updated s) := by
  rw [exec_updateExpiry s hdue, rejudgeChanged_of_not_wait _ _ (by rwa [updated_st]),
    settle_of_not_settling (by rwa [updated_st])]

/-- In DWELL's phase SETTLING the speed is then read. -/
theorem exec_updateExpiry_settling {s : State} (hdue : s.pe.nextUpdate ≤ s.cu.cellTime)
    (hst : s.sq.st = .dwell .settling) : exec .updateExpiry s = .next (updated s).settle := by
  rw [exec_updateExpiry s hdue, rejudgeChanged_of_not_wait _ _ (by rw [updated_st, hst]; nofun)]

/-! ## No re-judgement leaves a read of v over: an entry to DWELL takes its own (R85) -/

theorem change_st (s : State) (st : SeqState) : (s.change st).sq.st = st := by
  have hentered : (s.enter st none).clearIndications.announce.sq.st = st := by
    rw [State.announce_sq, State.clearIndications_sq]
    rfl
  exact (updateCore_st _).trans hentered

/-- The start of post-quench is judged into RUNOUT or QUENCHOUT, if at all. -/
theorem judgePostQuench_settle {s : State} (hst : s.sq.st ≠ .dwell .settling) :
    s.judgePostQuench.settle = s.judgePostQuench := by
  have hbegun : ∀ st : SeqState, st ≠ .dwell .settling → (s.startPostQuench st).settle = s.startPostQuench st :=
    fun st hne => settle_of_not_settling (by
      show (State.updateCore _).sq.st ≠ _
      rw [updateCore_st]
      exact hne)
  have hsame := settle_of_not_settling hst
  unfold State.judgePostQuench
  split
  · split
    · exact hbegun _ nofun
    · exact hsame
  · split
    · split
      · exact hbegun _ nofun
      · exact hsame
    · exact hsame

theorem arrivalChecks_settle {s : State} (hst : s.sq.st ≠ .dwell .settling) :
    s.arrivalChecks.settle = s.arrivalChecks := by
  unfold State.arrivalChecks
  split
  · split
    · exact settle_settle _
    · split
      · have hrunout : (s.change (.runout .travel)).noticeHeatingEnd.sq.st = .runout .travel := change_st s _
        exact judgePostQuench_settle (by rw [hrunout]; nofun)
      · exact settle_of_not_settling hst
  · exact settle_of_not_settling hst

theorem enterHeating_settle (s : State) : s.enterHeating.settle = s.enterHeating := by
  refine arrivalChecks_settle ?_
  have hmade : ((((s.enter .heating none).startWatches).handOn).noticeHeatingStart).sq.st = .heating :=
    congrArg Sq.st (handOn_sq (s.enter .heating none).startWatches nofun)
  unfold State.reversalCheck
  split
  · rw [show State.reportFault .reversal .sq _ = State.enterFault .reversal .sq _ by
      unfold State.reportFault; rw [hmade]; rfl, (enterFault_entered _ _ _).1]
    nofun
  · rw [hmade]
    nofun

theorem rejudgeChanged_settle {s : State} (n : Nat) (hst : s.sq.st ≠ .dwell .settling) :
    (s.rejudgeChanged n).settle = s.rejudgeChanged n := by
  have hsame := settle_of_not_settling hst
  have hjudged : (s.judgeStart s.sq.startRecord.waitExpired).settle = s.judgeStart s.sq.startRecord.waitExpired :=
    settle_of_not_settling hst
  unfold State.rejudgeChanged State.rejudge State.heatIfMet
  split
  · exact hsame
  · split
    · split
      · exact enterHeating_settle _
      · exact hjudged
    · exact hsame

/-- In APPROACH's phase WAIT the start conditions are judged again where the spindle set-point has changed. -/
theorem exec_updateExpiry_wait {s : State} (hdue : s.pe.nextUpdate ≤ s.cu.cellTime) (hst : s.sq.st = .approach .wait) :
    exec .updateExpiry s = .next ((updated s).rejudgeChanged s.pe.spindle) := by
  rw [exec_updateExpiry s hdue, rejudgeChanged_settle _ (by rw [updated_st, hst]; nofun)]

/-! ## HEATING -/

/-- Settles O14: in HEATING the sequencer makes nothing of the update. -/
theorem updateInHeating : Obligations.UpdateInHeating := by
  intro h s hst hr hdue
  have hpoints := updated_points s h hr
  obtain ⟨hcu, hzt, hrs, hlu, hkept, hacks, hpending⟩ := updated_frame s
  have hexec := exec_updateExpiry_plain hdue (by rw [hst]; nofun) (by rw [hst]; nofun)
  have hwet : ((updated s).pe.latch || (updated s).pe.quenchZone.isSome) = (updated s).pe.latch :=
    wet_of_sprays h _ (s.setPe (updated s).pe) hpoints (.inl (by rw [State.setPe_sq, hst]; rfl))
  have hsq := updated_sq s
  rw [hwet] at hsq
  exact ⟨updated s, hexec, updated_nextUpdate s, hpoints.1 hst, updated_stk s, hsq, updated_sent s, hcu, hzt, hrs, hlu,
    hkept, hacks, hpending⟩

/-! ## Every other state -/

/-- Settles O15: the update itself in every state, and then what phase SETTLING and phase WAIT make of it. -/
theorem updateOutsideHeating : Obligations.UpdateOutsideHeating := by
  refine ⟨fun s hr hdue hsettling hwait => ?_, fun h s hheating hr hdue => ?_⟩
  · obtain ⟨hcu, hzt, hrs, hlu, hkept, hacks, hpending⟩ := updated_frame s
    have hpe := updated_off s hr
    have hsq := updated_sq s
    rw [hpe] at hsq
    have hcold : (updated s).stk = s.stk := by rw [updated_stk, hpe]; rfl
    exact ⟨updated s, exec_updateExpiry_plain hdue hsettling hwait, hpe, hsq, updated_sent s, hcold, hcu, hzt, hrs, hlu,
      hkept, hacks, hpending⟩
  · obtain ⟨-, hother, hspray⟩ := updated_points s h hr
    obtain ⟨hcu, hzt, hrs, hlu, hkept, hacks, hpending⟩ := updated_frame s
    refine ⟨updated s, updated_nextUpdate s, hother hheating, hspray, updated_sq s, updated_sent s,
      updated_stk_of_ne s hheating, hcu, hzt, hrs, hlu, hkept, hacks, hpending, exec_updateExpiry_plain hdue,
      fun hst => ⟨fun hv => ?_, fun z e hv hz he => ?_⟩, fun hst => ?_⟩
    · rw [exec_updateExpiry_settling hdue hst, settle_of_moving (by rwa [hcu])]
    · have hzone : (updated s).sq.dwellZone = some z := (congrArg Sq.dwellZone (updated_sq s)).trans hz
      have hentry : (updated s).zones[z]? = some e := by rw [State.zones, hzt]; exact he
      rw [exec_updateExpiry_settling hdue hst,
        settle_of_still ((updated_st s).trans hst) (by rwa [hcu]) hzone hentry, hcu]
    · exact ⟨_, exec_updateExpiry_wait hdue hst,
        rejudgeChanged_judged h _ _ (by rw [State.recipe, hzt]; exact hr) ((updated_st s).trans hst)⟩

/-! ## Quench -/

/-- The set-points stay where a re-judgement brings no entry. -/
theorem RejudgedIfChanged.pe_of_not_met {h : RecipeHeader} {n : Nat} {s t : State} (hjudged : RejudgedIfChanged h n s t)
    (hnot : s.pe.spindle = n ∨ ¬ AllHold (judgedStart s.sq.startRecord.waitExpired s)) : t.pe = s.pe := by
  obtain ⟨hsame, hchanged⟩ := hjudged
  by_cases hspindle : s.pe.spindle = n
  · rw [hsame hspindle]
  · obtain ⟨hstays, -⟩ := hchanged hspindle
    rw [hstays (hnot.resolve_left hspindle)]
    rfl

/-- The three conditions read the set-point of the spindle, the measured speed, the lines and the latest power report;
the mark of an expired wait is none of them. -/
theorem allHold_judgedStart_congr {s t : State} (a b : Bool) (hspindle : s.pe.spindle = t.pe.spindle)
    (hlu : s.lu = t.lu) (hpower : s.lp.power = t.lp.power) :
    AllHold (judgedStart a s) ↔ AllHold (judgedStart b t) := by
  unfold AllHold judgedStart
  rw [hspindle, hlu, hpower]

/-- In phase WAIT the carriage stands, and the spindle set-point goes with speed 0 (R62, R64). -/
theorem updated_spindle_in_wait {s : State} {h : RecipeHeader} (hr : s.zt.activeBank.header = some h)
    (hst : s.sq.st = .approach .wait) : (updated s).pe.spindle = spindleAt h s 0 := by
  obtain ⟨-, hother, -⟩ := updated_points s h hr
  obtain ⟨-, -, -, -, -, hspeed, hspindle, -⟩ := hother (by rw [State.setPe_sq, hst]; nofun)
  simp only [State.setPe_sq, State.setPe_pe, hst] at hspeed hspindle
  rw [hspeed] at hspindle
  exact hspindle

/-- Settles O16: no phase changes the quench set-points of the update but WAIT, where an entry into HEATING follows. -/
theorem quenchSetPoints : Obligations.QuenchSetPoints := by
  refine ⟨fun s hr hdue hwait => ?_, fun h s hr hdue hwait => ?_⟩
  · have hexec := exec_updateExpiry s hdue
    rw [rejudgeChanged_of_not_wait _ _ (by rwa [updated_st])] at hexec
    refine ⟨_, hexec, ?_⟩
    rw [State.settle_pe, updated_off s hr]
    exact ⟨rfl, rfl, rfl, rfl, rfl⟩
  · refine ⟨_, exec_updateExpiry s hdue, ?_⟩
    have hpe : ((updated s).rejudgeChanged s.pe.spindle).settle.pe = (updated s).pe := by
      rw [State.settle_pe]
      by_cases hst : s.sq.st = .approach .wait
      · have hspindle := updated_spindle_in_wait hr hst
        obtain ⟨-, hzt, -, hlu, ⟨-, hpower, -⟩, -⟩ := updated_frame s
        have hjudged := rejudgeChanged_judged h s.pe.spindle (updated s) (by rw [State.recipe, hzt]; exact hr)
          ((updated_st s).trans hst)
        have hsame (expired : Bool) := allHold_judgedStart_congr (s := updated s)
          (t := s.setPe { s.pe with spindle := spindleAt h s 0 }) expired false hspindle hlu hpower
        exact hjudged.pe_of_not_met ((hwait hst).imp hspindle.trans (mt (hsame _).1))
      · rw [rejudgeChanged_of_not_wait _ _ (by rwa [updated_st])]
    obtain ⟨-, -, hspray⟩ := updated_points s h hr
    rw [hpe]
    exact hspray

end Sys2Proof.Machine
end

section
/-! PROOF. The control word: a whole word, taken field by field (O19), and RUN refused (O22). -/

namespace Sys2Proof.Machine

/-! ## The frame that each CONTROL row is (R183, R184) -/

/-- Each of the six rows is the frame that carries its word. -/
theorem exec_of_carriedWord {c : Instr} {port : Port} {tag : Byte} {w : ControlWord}
    (hc : carriedWord c = some (port, tag, w)) (s : State) : exec c s = .next (s.takeControl port tag w) := by
  unfold carriedWord at hc
  split at hc <;> cases hc <;> rfl

/-- A taken frame on the S-port: its word, and the answer. -/
theorem takeControl_supervised (tag : Byte) (w : ControlWord) {s : State} (htaken : Taken s) :
    s.takeControl .s tag w = (s.arrive .s).superviseWord tag w := by
  obtain ⟨hroom, hnoReset⟩ := htaken
  simp [State.takeControl, State.judgeControl, Config.ackDepth, Nat.not_le.2 hroom, hnoReset]

/-- A taken frame's word is taken field by field, and the answer carries both outcomes. -/
theorem takeControl_word (port : Port) (tag : Byte) (w : ControlWord) (s : State) (htaken : ControlTaken port s) :
    ∃ u clear run, WordTaken port w (s.arrive port) u clear run ∧
      s.takeControl port tag w = controlDone port tag clear run u := by
  refine ⟨_, _, _, word_taken port w (s.arrive port), ?_⟩
  by_cases hport : port = .s
  · subst hport
    rw [takeControl_supervised tag w (htaken rfl)]
    simp [controlDone, State.superviseWord, State.answerControl, controlAnswer_eq]
  · simp [State.takeControl, controlDone, hport]

/-! ## A word that brings one field alone (R91, R183) -/

theorem KeepsFields.hold {port : Port} {w : ControlWord} {c : Control} (hk : KeepsFields port w c) (field : Port)
    (hmay : port.mayHold field = true) : w.hold field = c.hold field := by
  obtain ⟨hs, hp, hm, hq, -⟩ := hk
  cases field with
  | s => exact hs hmay
  | p => exact hp hmay
  | m => exact hm hmay
  | q => exact hq hmay

theorem KeepsFields.keepOn {port : Port} {w : ControlWord} {c : Control} (hk : KeepsFields port w c)
    (hmay : port.mayKeepOn = true) : w.keepOn = c.keepOn := by
  obtain ⟨-, -, -, -, hkeep⟩ := hk
  exact hkeep hmay

theorem ControlWord.hold_setHold (w : ControlWord) (v : Bool) (field : Port) : (w.setHold v field).hold field = v := by
  cases field <;> rfl

theorem ControlWord.hold_setHold_ne (w : ControlWord) (v : Bool) {field other : Port} (hne : other ≠ field) :
    (w.setHold v field).hold other = w.hold other := by
  cases field <;> cases other <;> trivial

theorem Control.hold_setHold_ne (c : Control) (v : Bool) {field other : Port} (hne : other ≠ field) :
    (c.setHold v field).hold other = c.hold other := by
  cases field <;> cases other <;> trivial

theorem Control.keepOn_setHold (c : Control) (v : Bool) (field : Port) : (c.setHold v field).keepOn = c.keepOn := by
  cases field <;> rfl

theorem ControlWord.abort_setHold (w : ControlWord) (v : Bool) (field : Port) :
    (w.setHold v field).abort = w.abort := by cases field <;> rfl

theorem ControlWord.faultClear_setHold (w : ControlWord) (v : Bool) (field : Port) :
    (w.setHold v field).faultClear = w.faultClear := by cases field <;> rfl

theorem ControlWord.run_setHold (w : ControlWord) (v : Bool) (field : Port) : (w.setHold v field).run = w.run := by
  cases field <;> rfl

theorem ControlWord.keepOn_setHold (w : ControlWord) (v : Bool) (field : Port) :
    (w.setHold v field).keepOn = w.keepOn := by cases field <;> rfl

theorem KeepsOtherFields.hold {port field : Port} {w : ControlWord} {c : Control} (hk : KeepsOtherFields port field w c)
    {other : Port} (hne : other ≠ field) (hmay : port.mayHold other = true) : w.hold other = c.hold other := by
  rw [← ControlWord.hold_setHold_ne w (c.hold field) hne]
  exact KeepsFields.hold hk other hmay

theorem KeepsOtherFields.keepOn {port field : Port} {w : ControlWord} {c : Control} (hk : KeepsOtherFields port field w c)
    (hmay : port.mayKeepOn = true) : w.keepOn = c.keepOn := by
  rw [← KeepsFields.keepOn hk hmay, ControlWord.keepOn_setHold]

/-- A hold field carried clear takes its value, and brings no request (R91). -/
theorem takeHold_clear {port field : Port} {w : ControlWord} (s : State) (hmay : port.mayHold field = true)
    (hclear : w.hold field = false) :
    s.takeHold port field w = s.setLp { s.lp with control := s.lp.control.setHold false field } := by
  unfold State.takeHold State.writeHold
  rw [if_pos hmay, hclear]
  rfl

/-- A word that keeps every hold field but one, which it carries clear, brings that field alone. -/
theorem takeHolds_clear {port field : Port} {w : ControlWord} (s : State) (hmay : port.mayHold field = true)
    (hclear : w.hold field = false)
    (hother : ∀ other, other ≠ field → port.mayHold other = true → w.hold other = s.lp.control.hold other) :
    (((s.takeHold port .s w).takeHold port .p w).takeHold port .m w).takeHold port .q w =
      s.setLp { s.lp with control := s.lp.control.setHold false field } := by
  have hcleared := takeHold_clear s hmay hclear
  have hbefore : ∀ other, other ≠ field → s.takeHold port other w = s :=
    fun other hne => takeHold_same s port other w (hother other hne)
  have hafter : ∀ other, other ≠ field → (s.takeHold port field w).takeHold port other w = s.takeHold port field w := by
    intro other hne
    refine takeHold_same _ port other w fun hm => ?_
    rw [hcleared, State.setLp_lp, Control.hold_setHold_ne _ _ hne]
    exact hother other hne hm
  rw [← hcleared]
  cases field with
  | s => rw [hafter .p nofun, hafter .m nofun, hafter .q nofun]
  | p => rw [hbefore .s nofun, hafter .m nofun, hafter .q nofun]
  | m => rw [hbefore .s nofun, hbefore .p nofun, hafter .q nofun]
  | q => rw [hbefore .s nofun, hbefore .p nofun, hbefore .m nofun]

theorem takeAbort_clear (s : State) (port : Port) {w : ControlWord} (habort : w.abort = false) :
    s.takeAbort port w = s := by
  unfold State.takeAbort
  rw [habort]
  rfl

/-- A word that keeps every field and carries no abort changes nothing (R183). -/
theorem takeShared_kept {port : Port} {w : ControlWord} {s : State} (hk : KeepsFields port w s.lp.control)
    (habort : w.abort = false) : s.takeShared port w = s := by
  unfold State.takeShared
  rw [takeHolds_same s port w hk.hold, takeAbort_clear s port habort, takeKeepOn_same s port w hk.keepOn]

/-- A hold field carried clear by a word that keeps every other one. -/
theorem takeShared_holdCleared {port field : Port} {w : ControlWord} {s : State} (hmay : port.mayHold field = true)
    (hk : KeepsOtherFields port field w s.lp.control) (habort : w.abort = false) :
    s.takeShared port (w.setHold false field) =
      s.setLp { s.lp with control := s.lp.control.setHold false field } := by
  have hholds := takeHolds_clear s hmay (ControlWord.hold_setHold w false field) fun other hne hm =>
    (ControlWord.hold_setHold_ne w false hne).trans (hk.hold hne hm)
  unfold State.takeShared
  rw [hholds, takeAbort_clear _ port (by rwa [ControlWord.abort_setHold]), takeKeepOn_same _ port _ fun hm => ?_]
  rw [ControlWord.keepOn_setHold, State.setLp_lp, Control.keepOn_setHold, hk.keepOn hm]

/-- The keep-on field at either level, in a word that keeps every hold field (R91). -/
theorem takeShared_keepOn {port : Port} {w : ControlWord} {s : State} (on : Bool) (hmay : port.mayKeepOn = true)
    (hk : KeepsFields port { w with keepOn := s.lp.control.keepOn } s.lp.control) (habort : w.abort = false) :
    s.takeShared port { w with keepOn := on } =
      s.setLp { s.lp with control := { s.lp.control with keepOn := on } } := by
  have hholds : ∀ field, port.mayHold field = true →
      ({ w with keepOn := on } : ControlWord).hold field = s.lp.control.hold field := by
    intro field hm
    rw [← hk.hold field hm]
    cases field <;> rfl
  unfold State.takeShared
  rw [takeHolds_same s port _ hholds, takeAbort_clear s port (w := { w with keepOn := on }) habort]
  exact if_pos hmay

/-- Settles O19: each row is a frame with its word; a word that brings one field alone passes over the others. -/
theorem controlFieldsAreKept : Obligations.ControlFieldsAreKept := by
  refine ⟨fun c port tag w s hc htaken => ?_, ?_, ?_, fun port field tag on w s htaken hnoEvent => ?_⟩
  · rw [exec_of_carriedWord hc]
    obtain ⟨u, clear, run, hword, hdone⟩ := takeControl_word port tag w s htaken
    exact ⟨u, clear, run, hword, congrArg Host.Outcome.next hdone⟩
  · intro port field
    unfold Port.mayHold
    rw [Bool.or_eq_true, beq_iff_eq, beq_iff_eq]
  · intro port
    unfold Port.mayKeepOn
    rw [Bool.or_eq_true, beq_iff_eq, beq_iff_eq]
  · obtain ⟨habort, hevents⟩ := hnoEvent
    refine ⟨fun hmay hk => congrArg Host.Outcome.next ?_, fun hmay hk => congrArg Host.Outcome.next ?_⟩
    · rw [takeControl_shared port tag _ s htaken fun hport => by
          rw [ControlWord.faultClear_setHold, ControlWord.run_setHold]; exact hevents hport,
        takeShared_holdCleared hmay (by rwa [State.arrive_lp_control]) habort]
    · rw [takeControl_shared port tag { w with keepOn := on } s htaken hevents,
        takeShared_keepOn on hmay (by rwa [State.arrive_lp_control]) habort]

/-! ## RUN in a word that brings nothing else (R75) -/

/-- RUN carried by a word that keeps every field is judged in the state after the arrival. -/
theorem exec_run {tag : Byte} {w : ControlWord} {s : State} (htaken : Taken s) (hk : KeepsFields .s w s.lp.control)
    (habort : w.abort = false) (hclear : w.faultClear = false) :
    exec (.run tag w) s =
      .next (controlDone .s tag .none (s.arrive .s).takeRun.2 (s.arrive .s).takeRun.1) := by
  have hshared : (s.arrive .s).takeShared .s { w with run := true } = s.arrive .s :=
    takeShared_kept (by rw [State.arrive_lp_control]; exact hk) habort
  have hjudged : (s.arrive .s).superviseWord tag { w with run := true } =
      (s.arrive .s).takeRun.1.answerControl tag .none (s.arrive .s).takeRun.2 := by
    unfold State.superviseWord State.takeClearField State.takeRunField
    rw [hshared, hclear]
    rfl
  rw [exec_of_carriedWord rfl, takeControl_supervised tag _ htaken, hjudged]
  unfold State.answerControl
  rw [controlAnswer_eq]
  rfl

/-- An arrival at the S-port leaves the three actuator ports. -/
theorem arrive_s_port (s : State) {port : Port} (hne : port ≠ .s) : (s.arrive .s).lp.port port = s.lp.port port := by
  have hset : ∀ (l : Lp) (v : PortState), (l.setPort v .s).port port = l.port port := by
    intro l v
    cases port <;> trivial
  unfold State.arrive Lp.arrive
  simp only [State.setLp_lp, Port.isActuator]
  split
  · exact hset _ _
  · rw [notify_eq s _ _ _ _ rfl]
    simp only [Bool.false_eq_true, if_false]
    exact (hset _ _).trans (hset _ _)

/-- R76's table reads nothing that the arrival of the request changes. -/
theorem startTable_arrive (h : RecipeHeader) (s : State) : startTable h (s.arrive .s) = startTable h s := by
  have hp : (s.arrive .s).lp.portP = s.lp.portP := arrive_s_port s (port := .p) nofun
  have hm : (s.arrive .s).lp.portM = s.lp.portM := arrive_s_port s (port := .m) nofun
  have hq : (s.arrive .s).lp.portQ = s.lp.portQ := arrive_s_port s (port := .q) nofun
  unfold startTable
  rw [hp, hm, hq]
  simp

/-- Settles O22: RUN is judged on the state after its arrival, which shows every condition of R75, R76 and R126 as
before. -/
theorem runIsRefused : Obligations.RunIsRefused := by
  intro tag w s htaken hk habort hclear refused atStart unread
  have hrefused : ∀ (st : Status) (r : Option BlockReason),
      (s.arrive .s).takeRun.1 = s.arrive .s ∧ (s.arrive .s).takeRun.2 = .refused st r →
      exec (.run tag w) s = .next (refused st r) := by
    rintro st r ⟨hsame, houtcome⟩
    rw [exec_run htaken hk habort hclear, hsame, houtcome]
  have hjudged := takeRun_judged (s.arrive .s)
  simp only [RunJudged, State.arrive_sq, State.arrive_stk, State.arrive_zt, State.arrive_lu, State.arrive_pe,
    State.arrive_lp_control, State.arrive_lp_power, startTable_arrive] at hjudged
  obtain ⟨hidle, hmotion, hpending, hheld, hblocked⟩ := hjudged
  refine ⟨fun hst => hrefused _ _ (hidle hst), fun hst => hrefused _ _ (hmotion hst),
    fun hst hu => hrefused _ _ (hpending hst hu), fun hst hany => hrefused _ _ (hheld hst (by simp [hany])),
    fun h r hst hfree hr hfirst => ?_, fun h brk hst hfree hr hfirst hbrk hheat => ?_⟩
  · obtain ⟨hreason, -⟩ := hblocked h hr
    exact hrefused _ _ (hreason r hst hfree hfirst)
  · obtain ⟨-, -, hresume⟩ := hblocked h hr
    obtain ⟨hspindle, hinverter, -⟩ := hresume brk hst hfree hfirst hbrk
    exact ⟨fun hn => hrefused _ _ (hspindle hheat hn), fun hy hn => hrefused _ _ (hinverter hheat hy hn)⟩

end Sys2Proof.Machine
end

section
/-! PROOF. An accepted RUN (O23): what every entry of a scan keeps, and the entry itself. -/

namespace Sys2Proof.Machine

/-! ## What the entries and arrivals of a scan keep (R77 to R87, R139) -/

/-- What no entry, arrival or fault of a scan that runs touches: the coordinate, the banks, the store, the control word,
the answers that wait, the queue of commands and the scan number. -/
structure ScanKept (s t : State) : Prop where
  cu : t.cu = s.cu
  zt : t.zt = s.zt
  rs : t.rs = s.rs
  control : t.lp.control = s.lp.control
  acks : t.lp.acks = s.lp.acks
  pending : t.pending = s.pending
  scanNumber : t.sq.scanNumber = s.sq.scanNumber

namespace ScanKept

theorem refl (s : State) : ScanKept s s := ⟨rfl, rfl, rfl, rfl, rfl, rfl, rfl⟩

theorem of_eq {s t : State} (h : t = s) : ScanKept s t := h ▸ refl s

theorem trans {s t u : State} (h : ScanKept s t) (k : ScanKept t u) : ScanKept s u :=
  ⟨k.cu.trans h.cu, k.zt.trans h.zt, k.rs.trans h.rs, k.control.trans h.control, k.acks.trans h.acks,
    k.pending.trans h.pending, k.scanNumber.trans h.scanNumber⟩

theorem setStk (s : State) (v : Stk) : ScanKept s (s.setStk v) := ⟨rfl, rfl, rfl, rfl, rfl, rfl, rfl⟩

theorem setSq (s : State) {v : Sq} (hv : v.scanNumber = s.sq.scanNumber) : ScanKept s (s.setSq v) :=
  ⟨rfl, rfl, rfl, rfl, rfl, rfl, hv⟩

end ScanKept

theorem Kept.scanKept {s t : State} (h : Kept s t) (hscan : t.sq.scanNumber = s.sq.scanNumber) : ScanKept s t := by
  obtain ⟨hcu, hzt, hrs, ⟨hcontrol, -⟩, hacks, hpending, -⟩ := h
  exact ⟨hcu, hzt, hrs, hcontrol, hacks, hpending, hscan⟩

theorem Changed.scanKept {h : RecipeHeader} {st : SeqState} {s t : State} (hc : Changed h st s t) : ScanKept s t := by
  obtain ⟨hkept, -, -, -, hsq, -⟩ := hc
  exact hkept.scanKept (by rw [hsq]; rfl)

theorem EnteredFault.scanKept {code : FaultCode} {source : FaultSource} {s t : State}
    (hf : EnteredFault code source s t) : ScanKept s t := by
  obtain ⟨hsq, -, -, -, -, -, -, -, -, -, -, -, -, -, -, -, -, -, hcu, hzt, hrs, ⟨hcontrol, -⟩, hacks, hpending, -⟩ := hf
  exact ⟨hcu, hzt, hrs, hcontrol, hacks, hpending, by rw [hsq]; rfl⟩

theorem TravelJudged.scanKept {s t : State} (hj : TravelJudged s t) : ScanKept s t := by
  obtain ⟨hbeyond, hwithin⟩ := hj
  by_cases hm : s.sq.st.isMotion = true ∧ ¬ WithinLimits s.cu
  · exact (hbeyond hm.1 hm.2).scanKept
  · exact .of_eq (hwithin ((Classical.not_and_iff_not_or_not.1 hm).imp (by simp) Classical.not_not.1))

theorem PostQuenchBegun.scanKept {h : RecipeHeader} {st : SeqState} {s t : State} (hb : PostQuenchBegun h st s t) :
    ScanKept s t := by
  obtain ⟨hkept, -, -, -, -, hsq⟩ := hb
  exact hkept.scanKept (by rw [hsq])

theorem DwellEntered.scanKept {h : RecipeHeader} {z : Nat} {s t : State} (hd : DwellEntered h z s t) : ScanKept s t := by
  obtain ⟨hkept, -, -, -, -, hsq⟩ := hd
  exact hkept.scanKept (by rw [hsq]; rfl)

theorem RunoutEntered.scanKept {h : RecipeHeader} {s t : State} (he : RunoutEntered h s t) : ScanKept s t := by
  obtain ⟨c, hchanged, hdrained, hrunning⟩ := he
  have hc := hchanged.scanKept.trans (.setStk c (endedStk (trackRecipe s.zt.activeBank) s.cu.cellTime s.stk))
  by_cases hd : ((zonesEnd s.zones + h.offsetD : Nat) : Int) ≤ s.cu.frontier ∧ s.stk.track = []
  · exact hc.trans (hdrained hd).scanKept
  · exact hc.trans (.of_eq (hrunning hd))

theorem ArrivalsJudged.scanKept {h : RecipeHeader} {s t : State} (hj : ArrivalsJudged h s t) : ScanKept s t := by
  obtain ⟨hdwell, hpast⟩ := hj
  by_cases hz : ∃ z, s.sq.nextDwell = some z ∧
      ((((s.zones[z]?.map (·.startX)).getD 0 : Nat) : Int)) ≤ s.cu.frontier
  · obtain ⟨z, hz, hreached⟩ := hz
    exact (hdwell z hz hreached).scanKept
  · obtain ⟨hend, hshort⟩ := hpast fun z hn hreached => hz ⟨z, hn, hreached⟩
    rcases Int.lt_or_le s.cu.frontier ((zonesEnd s.zones : Nat) : Int) with hx | hx
    · exact .of_eq (hshort hx)
    · exact (hend hx).scanKept

theorem HeatingMade.scanKept {h : RecipeHeader} {s t : State} (hm : HeatingMade h s t) : ScanKept s t := by
  obtain ⟨hkept, -, -, -, -, hsq⟩ := hm
  exact hkept.scanKept (by rw [hsq]; rfl)

theorem HeatingBegun.scanKept {h : RecipeHeader} {s t : State} (hb : HeatingBegun h s t) : ScanKept s t := by
  obtain ⟨e, hmade, hreversed, hjudged⟩ := hb
  rcases Int.lt_or_le (h.reversalTol : Int) (s.cu.frontier - s.cu.x) with hx | hx
  · exact hmade.scanKept.trans (hreversed hx).scanKept
  · exact hmade.scanKept.trans (hjudged hx).scanKept

theorem Rejudged.scanKept {h : RecipeHeader} {s t : State} (hj : Rejudged h s t) : ScanKept s t := by
  obtain ⟨hstays, hheats⟩ := hj
  have hrecord : ScanKept s (s.setSq { s.sq with startRecord := judgedStart s.sq.startRecord.waitExpired s }) :=
    .setSq s rfl
  by_cases hall : AllHold (judgedStart s.sq.startRecord.waitExpired s)
  · exact hrecord.trans (hheats hall).scanKept
  · exact hrecord.trans (.of_eq (hstays hall))

theorem WaitBegun.scanKept {h : RecipeHeader} {s t : State} (hw : WaitBegun h s t) : ScanKept s t := by
  obtain ⟨w, hkept, -, -, -, -, hsq, hsame, hchanged⟩ := hw
  have hwait : ScanKept s w := hkept.scanKept (by rw [hsq])
  by_cases hspindle : w.pe.spindle = s.pe.spindle
  · exact hwait.trans (.of_eq (hsame hspindle))
  · exact hwait.trans (hchanged hspindle).scanKept

theorem ArrivedAtRunIn.scanKept {h : RecipeHeader} {s t : State} (ha : ArrivedAtRunIn h s t) : ScanKept s t := by
  obtain ⟨hlate, hearly⟩ := ha
  have hrecord : ScanKept s (s.setSq { s.sq with startRecord := judgedStart false s }) := .setSq s rfl
  rcases Int.lt_or_le s.cu.frontier 0 with hf | hf
  · obtain ⟨hheats, hwaits⟩ := hearly hf
    by_cases hall : AllHold (judgedStart false s)
    · exact hrecord.trans (hheats hall).scanKept
    · exact hrecord.trans (hwaits hall).scanKept
  · exact (hlate hf).scanKept

theorem RunInJudged.scanKept {h : RecipeHeader} {s t : State} (hj : RunInJudged h s t) : ScanKept s t := by
  obtain ⟨hother, happroach⟩ := hj
  by_cases hst : s.sq.st = .approach .travel
  · obtain ⟨hbeyond, hon, hshort⟩ := happroach hst
    rcases Int.lt_trichotomy s.cu.frontier (-(h.runIn : Int)) with hf | hf | hf
    · exact .of_eq (hshort hf)
    · exact (hon hf).scanKept
    · exact (hbeyond hf).scanKept
  · exact .of_eq (hother hst)

/-! ## The entry of an accepted RUN (R77, R79, R80) -/

/-- An accepted RUN keeps what the opening of the scan has set. -/
theorem RunStarted.scanKept {h : RecipeHeader} {s t : State} (hr : RunStarted h s t) : ScanKept (scanOpened h s) t := by
  obtain ⟨hprobe, hnone⟩ := hr
  by_cases hmode : h.datumModeCode = 1
  · obtain ⟨v, hchanged, htravel⟩ := hprobe hmode
    refine ScanKept.trans ?_ (hchanged.scanKept.trans htravel.scanKept)
    exact .setSq _ rfl
  · obtain ⟨v, e, hchanged, htravel, hrunIn⟩ := hnone hmode
    exact hchanged.scanKept.trans (htravel.scanKept.trans hrunIn.scanKept)

/-- The opening of a scan moves neither the carriage nor its limits (R15, R77). -/
theorem scanOpened_withinLimits (h : RecipeHeader) (s : State) :
    WithinLimits (scanOpened h s).cu ↔ WithinLimits s.cu := Iff.rfl

theorem TravelJudged.eq_of_within {s t : State} (hj : TravelJudged s t) (hw : WithinLimits s.cu) : t = s := hj.2 (.inr hw)

/-- Within the limits SEEK is entered at a RUN with datum mode PROBE, and stays. -/
theorem RunStarted.seeks {h : RecipeHeader} {s t : State} (hr : RunStarted h s t) (hw : WithinLimits s.cu)
    (hmode : h.datumModeCode = 1) :
    Changed h .seek ((scanOpened h s).setSq { (scanOpened h s).sq with seekStart := some s.cu.x }) t := by
  obtain ⟨v, hchanged, htravel⟩ := hr.1 hmode
  have hv : WithinLimits v.cu := by rw [hchanged.scanKept.cu]; exact (scanOpened_withinLimits h s).2 hw
  rw [htravel.eq_of_within hv]
  exact hchanged

/-- Within the limits and short of the run-in point APPROACH is entered at a RUN with datum mode NONE, and stays. -/
theorem RunStarted.approaches {h : RecipeHeader} {s t : State} (hr : RunStarted h s t) (hw : WithinLimits s.cu)
    (hmode : h.datumModeCode ≠ 1) (hshort : s.cu.x < -(h.runIn : Int)) :
    Changed h (.approach .travel) (scanOpened h s) t := by
  obtain ⟨v, e, hchanged, htravel, -, hjudged⟩ := hr.2 hmode
  have hcu := hchanged.scanKept.cu
  have hv : WithinLimits v.cu := by rw [hcu]; exact (scanOpened_withinLimits h s).2 hw
  have hst : v.sq.st = .approach .travel := by
    obtain ⟨-, -, -, -, hsq, -⟩ := hchanged
    rw [hsq]; rfl
  rw [htravel.eq_of_within hv] at hjudged
  obtain ⟨-, -, hstays⟩ := hjudged hst
  rw [hstays (by rw [hcu]; exact hshort)]
  exact hchanged

/-- Within the limits and, with datum mode NONE, short of the run-in point, the state entered at a RUN stays. -/
theorem RunStarted.stays {h : RecipeHeader} {s t : State} (hr : RunStarted h s t) (hw : WithinLimits s.cu)
    (hshort : h.datumModeCode = 1 ∨ s.cu.x < -(h.runIn : Int)) : ∃ st start, st.isHeat = false ∧
      Changed h st ((scanOpened h s).setSq { (scanOpened h s).sq with seekStart := start }) t := by
  by_cases hmode : h.datumModeCode = 1
  · exact ⟨_, _, rfl, hr.seeks hw hmode⟩
  · exact ⟨.approach .travel, none, rfl, hr.approaches hw hmode (hshort.resolve_left hmode)⟩

/-- A fault taken while a scan runs floods (R139, R142). -/
theorem EnteredFault.flooded {code : FaultCode} {source : FaultSource} {s t : State} (hf : EnteredFault code source s t)
    (hscan : s.sq.st.inScan = true) : t.sq.st = .fault .flood ∧ t.sq.faultRecord.map (·.code) = some code := by
  rw [hf.1]
  exact ⟨by simp [faultedSq, hscan], rfl⟩

/-- Beyond the limits either entry is fault OVERTRAVEL, and beyond the run-in point that to APPROACH (R17, R80). -/
theorem RunStarted.overtravels {h : RecipeHeader} {s t : State} (hr : RunStarted h s t)
    (hbeyond : ¬ WithinLimits s.cu ∨ h.datumModeCode ≠ 1 ∧ -(h.runIn : Int) < s.cu.x) :
    t.sq.st = .fault .flood ∧ t.sq.faultRecord.map (·.code) = some .overtravel := by
  by_cases hmode : h.datumModeCode = 1
  · obtain ⟨v, hchanged, hlimits, -⟩ := hr.1 hmode
    have hcu := hchanged.scanKept.cu
    obtain ⟨-, -, -, -, hsq, -⟩ := hchanged
    have hst : v.sq.st = .seek := by rw [hsq]; rfl
    have hw : ¬ WithinLimits v.cu := by
      rw [hcu]
      exact hbeyond.resolve_right fun hn => hn.1 hmode
    exact (hlimits (by rw [hst]; rfl) hw).flooded (by rw [hst]; rfl)
  · obtain ⟨v, e, hchanged, htravel, hother, hjudged⟩ := hr.2 hmode
    have hcu := hchanged.scanKept.cu
    obtain ⟨-, -, -, -, hsq, -⟩ := hchanged
    have hst : v.sq.st = .approach .travel := by rw [hsq]; rfl
    by_cases hw : WithinLimits s.cu
    · rw [htravel.eq_of_within (by rw [hcu]; exact hw)] at hjudged
      obtain ⟨hpast, -⟩ := hjudged hst
      have hx : -(h.runIn : Int) < v.cu.frontier := by
        rw [hcu]
        exact (hbeyond.resolve_left fun hn => hn hw).2
      exact (hpast hx).flooded (by rw [hst]; rfl)
    · have hfault : e.sq.st = .fault .flood ∧ e.sq.faultRecord.map (·.code) = some .overtravel :=
        (htravel.1 (by rw [hst]; rfl) (by rw [hcu]; exact hw)).flooded (by rw [hst]; rfl)
      rw [hother (by rw [hfault.1]; nofun)]
      exact hfault

/-- The scan record after an entry that stays: the opening's, with the state entered. -/
theorem Changed.scanRecord {h : RecipeHeader} {st : SeqState} {s t : State} (hc : Changed h st s t) :
    t.sq.st = st ∧ t.sq.faultRecord = none ∧ t.sq.heldFrom = s.sq.heldFrom ∧ t.sq.dwellZone = s.sq.dwellZone ∧
    t.sq.startRecord = s.sq.startRecord ∧ t.sq.nextDwell = s.sq.nextDwell ∧ t.sq.seekStart = s.sq.seekStart ∧
    t.stk = s.stk := by
  obtain ⟨-, -, hstk, -, hsq, -⟩ := hc
  rw [hsq]
  exact ⟨rfl, rfl, rfl, rfl, rfl, rfl, rfl, hstk⟩

/-- A change leaves the set-points of the state entered (R54 to R64). -/
theorem Changed.points {h : RecipeHeader} {st : SeqState} {s t : State} (hc : Changed h st s t) (hne : st ≠ .heating) :
    OtherPoints h t t.pe := by
  have hst := hc.scanRecord.1
  obtain ⟨-, -, -, ⟨-, hother, -⟩, -⟩ := hc
  exact hother (by rw [hst]; exact hne)

/-- Settles O23: RUN is judged on the state after its arrival, and accepted; the entry is what the datum mode makes it. -/
theorem runStartsAScan : Obligations.RunStartsAScan := by
  intro tag w h s htaken hk habort hclear hst hr hread hfree hfirst
  have hjudged := takeRun_judged (s.arrive .s)
  simp only [RunJudged, State.arrive_sq, State.arrive_stk, State.arrive_zt, State.arrive_lp_control,
    startTable_arrive] at hjudged
  obtain ⟨-, -, -, -, hstarts⟩ := hjudged
  obtain ⟨-, hstart, -⟩ := hstarts h hr
  have hnotPending : ¬ ∃ u, s.stk.summary = some u ∧ u.status ≠ .opened ∧ u.read = false := by
    rintro ⟨u, hu, hclosed, hunread⟩
    rcases hread u hu with ho | hy
    · exact hclosed ho
    · rw [hunread] at hy; exact Bool.false_ne_true hy
  obtain ⟨hstarted, haccepted⟩ := hstart ⟨hst, hnotPending⟩ hfree hfirst
  obtain ⟨hcu, hzt, hrs, hcontrol, hacks, hpending, hscan⟩ := hstarted.scanKept
  refine ⟨(s.arrive .s).takeRun.1, ?_, hstarted, ?_, ?_, ?_, ?_, ?_, ?_, ?_, fun hw hshort => ?_, fun hw hmode => ?_,
    fun hw hmode hshort => ?_, fun hbeyond => ?_⟩
  · rw [exec_run htaken hk habort hclear, haccepted]
  · simpa [scanOpened] using hscan
  · simpa [scanOpened] using hcu
  · exact hzt.trans (State.arrive_zt s .s)
  · exact hrs.trans (State.arrive_rs s .s)
  · exact hcontrol.trans (State.arrive_lp_control s .s)
  · exact hacks.trans (State.arrive_lp_acks s .s)
  · exact hpending.trans (State.arrive_pending s .s)
  · obtain ⟨st, start, hcold, hchanged⟩ := hstarted.stays (by simpa using hw) (by simpa using hshort)
    obtain ⟨hentered, hfault, hheld, hdwell, hrecord, hnext, -, hstk⟩ := hchanged.scanRecord
    obtain ⟨-, -, -, -, hpower, -⟩ := hchanged.points (by rintro rfl; exact Bool.noConfusion hcold)
    exact ⟨hfault, hheld, hdwell, hrecord, by simpa [scanOpened, State.zones] using hnext,
      by simpa [scanOpened] using hstk, hpower (by rw [hentered]; exact hcold)⟩
  · have hchanged := hstarted.seeks (by simpa using hw) hmode
    obtain ⟨hentered, -, -, -, -, -, hseek, -⟩ := hchanged.scanRecord
    obtain ⟨-, -, -, -, -, hspeed, hspindle, -⟩ := hchanged.points nofun
    rw [hentered] at hspeed hspindle
    exact ⟨hentered, by simpa using hseek, hspeed, hspindle⟩
  · have hchanged := hstarted.approaches (by simpa using hw) hmode (by simpa using hshort)
    obtain ⟨hentered, -⟩ := hchanged.scanRecord
    obtain ⟨-, -, -, -, -, hspeed, -⟩ := hchanged.points nofun
    rw [hentered] at hspeed
    exact ⟨hentered, hspeed⟩
  · exact hstarted.overtravels (by simpa using hbeyond)

end Sys2Proof.Machine
end

section
/-! PROOF. DISARM (O32), and the expiries of the scan's timers (O51). -/

namespace Sys2Proof.Machine

/-! ## DISARM (R74) -/

/-- What IDLE shows of its entry: the set-points off, the indications clear, no fault, and what stays (R72, R90, R160). -/
theorem IdleEntered.shown {s t : State} (hi : IdleEntered s t) :
    t.sq.st = .idle ∧ t.sq.faultRecord = none ∧ t.sq.scanNumber = s.sq.scanNumber ∧ t.sq.heldFrom = s.sq.heldFrom ∧
    t.stk = s.stk ∧ (t.pe.power = 0 ∧ t.pe.speed = 0 ∧ t.pe.spindle = 0 ∧ t.pe.flow = 0 ∧ t.pe.mask = 0) ∧
    t.lp.pressureLow = false ∧ t.lp.quenchantOut = false ∧ t.lp.control = s.lp.control ∧
    t.lu = { s.lu with heatEnable := false } ∧ t.cu = s.cu ∧ t.zt = s.zt ∧ t.rs = s.rs ∧ t.lp.acks = s.lp.acks ∧
    t.pending = s.pending := by
  obtain ⟨hcu, hzt, hrs, hstk, hlu, ⟨hcontrol, -, -, -, hlow, hout, -⟩, hacks, hpe, hsq, -, hpending, -⟩ := hi
  rw [hsq, hpe]
  exact ⟨rfl, rfl, rfl, rfl, hstk, ⟨rfl, rfl, rfl, rfl, rfl⟩, hlow, hout, hcontrol, hlu, hcu, hzt, hrs, hacks, hpending⟩

/-- The state that a taken DISARM leaves for IDLE: from HELD with the scan abandoned, else as it is (R74). -/
theorem disarm_accepted {s : State} (hst : s.sq.st = .armed ∨ s.sq.st = .done ∨ s.sq.st = .held) :
    State.disarm () s = ((if s.sq.st = .held then s.abandon else s).change .idle, Answer.ok []) := by
  unfold State.disarm
  rcases hst with hst | hst | hst <;> simp [hst]

/-- In every other state DISARM is refused (R74). -/
theorem disarm_refused {s : State} (hst : s.sq.st.isMotion = true ∨ s.sq.st = .idle ∨ s.sq.st.isFault = true) :
    State.disarm () s = (s, Answer.refuse .scanning) := by
  unfold State.disarm
  cases hs : s.sq.st <;> simp [hs, SeqState.isMotion, SeqState.isFault] at hst ⊢

/-- An arrival brings nothing to a scan. -/
theorem arrive_scanKept (s : State) (port : Port) : ScanKept s (s.arrive port) :=
  ⟨s.arrive_cu port, s.arrive_zt port, s.arrive_rs port, s.arrive_lp_control port, s.arrive_lp_acks port,
    s.arrive_pending port, congrArg Sq.scanNumber (s.arrive_sq port)⟩

theorem exec_disarm {tag : Byte} {s : State} (htaken : Taken s) :
    exec (.disarm tag (.fields ())) s =
      .next ((State.disarm () (s.arrive .s)).1.answer tag (State.disarm () (s.arrive .s)).2) :=
  congrArg Host.Outcome.next (takeRequest_taken tag () State.disarm s htaken)

/-- Settles O32: from HELD the scan is abandoned first, then IDLE is entered as from ARMED and DONE. -/
theorem disarmReturnsToIdle : Obligations.DisarmReturnsToIdle := by
  intro tag s htaken
  refine ⟨fun hst => ?_, fun hst => ?_⟩
  · intro r closed
    have hclosed : r.abandon = closed := by
      unfold State.abandon Stk.closeSummary
      rw [State.arrive_stk, State.arrive_sq]
    let u : State := if s.sq.st = .held then closed else r
    have hexec : exec (.disarm tag (.fields ())) s = .next ((u.change .idle).answer tag (Answer.ok [])) := by
      rw [exec_disarm htaken, disarm_accepted (by rwa [State.arrive_sq]), State.arrive_sq, hclosed]
    have hentered : IdleEntered u (u.change .idle) := change_idle u
    obtain ⟨hidle, hfault, hscan, hheld, hstk, ⟨hpower, hspeed, hspindle, hflow, hmask⟩, hlow, hout, hcontrol, hlu, hcu,
      hzt, hrs, hacks, hpending⟩ := hentered.shown
    have hleft : ScanKept s u ∧ u.lu = s.lu := by
      have hr : ScanKept s r ∧ r.lu = s.lu := ⟨arrive_scanKept s .s, State.arrive_lu s .s⟩
      by_cases hs : s.sq.st = .held
      · simp only [u, if_pos hs]
        exact ⟨hr.1.trans ⟨rfl, rfl, rfl, rfl, rfl, rfl, by simp [closed, r]⟩, hr.2⟩
      · simp only [u, if_neg hs]
        exact hr
    obtain ⟨hkept, hlu'⟩ := hleft
    have hrecord : u.sq.heldFrom = (if s.sq.st = .held then none else s.sq.heldFrom) := by
      by_cases hs : s.sq.st = .held <;> simp [u, hs, closed, r]
    have htracked : u.stk = (if s.sq.st = .held then
        { s.stk with summary := s.stk.summary.map (fun v => { v with status := .abandoned, faultCode := none }) }
        else s.stk) := by
      by_cases hs : s.sq.st = .held <;> simp [u, hs, closed, r]
    exact ⟨u.change .idle, hexec, hidle, hentered, hfault, hscan.trans hkept.scanNumber, hheld.trans hrecord,
      hstk.trans htracked, hpower, hspeed, hspindle, hflow, hmask, hlow, hout, hcontrol.trans hkept.control,
      by rw [hlu, hlu'], hcu.trans hkept.cu, hzt.trans hkept.zt, hrs.trans hkept.rs, hacks.trans hkept.acks,
      hpending.trans hkept.pending⟩
  · rw [exec_disarm htaken, disarm_refused (by rwa [State.arrive_sq])]
    rfl

/-! ## The approach wait (R82) -/

theorem spindleReady_iff (u : Lu) (setPoint : Nat) : u.spindleReady setPoint = true ↔ SpindleReady u setPoint := by
  unfold Lu.spindleReady SpindleReady
  cases u.rpm <;> simp

theorem inverterReady_iff (s : State) : s.inverterReady = true ↔ s.lp.power.map (·.state) = some .ready := by
  unfold State.inverterReady
  cases s.lp.power <;> simp

/-- A timer at or past its instant has been reached (R9). -/
theorem reached_of_some {timer : Option Nat} {x : Nat} {s : State} (htimer : timer = some x) (hdue : x ≤ s.cu.cellTime) :
    reached timer s.now = true := (reached_iff timer s).2 ⟨x, htimer, hdue⟩

/-- The approach wait's expiry at its instant (R82). -/
theorem waitExpiry_due {s : State} {x : Nat} (hst : s.sq.st = .approach .wait) (htimer : s.sq.approachWait = some x)
    (hdue : x ≤ s.cu.cellTime) : s.waitExpiry =
      if !s.lu.spindleReady s.pe.spindle then s.reportFault .spiral .sq
      else if !s.inverterReady then s.reportFault .inverter .sq
      else s.setSq { s.sq with
        approachWait := none, startRecord := { s.sq.startRecord with waitExpired := true } } :=
  if_pos ⟨hst, reached_of_some htimer hdue⟩

theorem waitExpiry_judged {s : State} {x : Nat} (hst : s.sq.st = .approach .wait) (htimer : s.sq.approachWait = some x)
    (hdue : x ≤ s.cu.cellTime) :
    (¬ SpindleReady s.lu s.pe.spindle → EnteredFault .spiral .sq s s.waitExpiry) ∧
    (SpindleReady s.lu s.pe.spindle → s.lp.power.map (·.state) ≠ some .ready →
      EnteredFault .inverter .sq s s.waitExpiry) ∧
    (SpindleReady s.lu s.pe.spindle → s.lp.power.map (·.state) = some .ready → s.waitExpiry = s.setSq { s.sq with
      approachWait := none, startRecord := { s.sq.startRecord with waitExpired := true } }) := by
  rw [waitExpiry_due hst htimer hdue, ← spindleReady_iff, ← inverterReady_iff]
  refine ⟨fun hspindle => ?_, fun hspindle hinverter => ?_, fun hspindle hinverter => ?_⟩
  · rw [if_pos (by simpa using hspindle)]
    exact reportFault_enters _ _ _ (by rw [hst]; rfl)
  · rw [if_neg (by simpa using hspindle), if_pos (by simpa using mt (inverterReady_iff s).1 hinverter)]
    exact reportFault_enters _ _ _ (by rw [hst]; rfl)
  · rw [if_neg (by simpa using hspindle), if_neg (by simpa using hinverter)]

/-! ## The dwell timer (R83, R86, R100) -/

/-- HEATING stays where no check of its entry bites (R84, R131). -/
theorem HeatingBegun.stays {h : RecipeHeader} {s t : State} (hb : HeatingBegun h s t)
    (hreverse : s.cu.frontier - s.cu.x ≤ h.reversalTol) (hend : s.cu.frontier < zonesEnd s.zones)
    (hdwell : ∀ z, s.sq.nextDwell = some z → s.cu.frontier < s.zoneStart z) : HeatingMade h s t := by
  obtain ⟨e, hmade, -, hjudged⟩ := hb
  obtain ⟨-, hpast⟩ := hjudged hreverse
  have hcu := hmade.scanKept.cu
  have hzones : e.zones = s.zones := congrArg (·.activeBank.zoneList) hmade.scanKept.zt
  have hnext : e.sq.nextDwell = s.sq.nextDwell := by
    obtain ⟨-, -, -, -, -, hsq⟩ := hmade
    rw [hsq]; rfl
  rw [hcu, hzones, hnext] at hpast
  obtain ⟨-, hstays⟩ := hpast fun z hz => Int.not_le.2 (hdwell z hz)
  rw [hstays hend]
  exact hmade

/-- An opening of a slice leaves heating noted (R99). -/
theorem openedStk_heating (c : TrackRecipe) (f : Int) (k : Stk) : (openedStk c f k).heating = k.heating := by
  unfold openedStk
  dsimp only
  split <;> rfl

/-- The heating-start notice leaves heating noted, whether or not a slice opens (R100). -/
theorem heatingStarted_heating (c : TrackRecipe) (f : Int) (k : Stk) :
    (if k.heating then k else openedStk c f { k with heating := true }).heating = true := by
  split
  · assumption
  · exact openedStk_heating c f _

/-- What HEATING shows of its entry (R83, R90, R100, R133). -/
theorem HeatingMade.shown {h : RecipeHeader} {s t : State} (hm : HeatingMade h s t) :
    t.sq.st = .heating ∧ t.sq.dwellZone = s.sq.dwellZone ∧ t.sq.dwellTimer = none ∧
    t.sq.indexWatch = some (s.cu.cellTime + 240000000 / s.pe.spindle) ∧ t.lu.heatEnable = true ∧
    t.pe.enable = true ∧ t.stk.heating = true := by
  obtain ⟨-, hlu, ⟨hheating, -⟩, -, hstk, hsq⟩ := hm
  have hst : t.sq.st = .heating := by rw [hsq]; rfl
  obtain ⟨-, henable, -⟩ := hheating hst
  refine ⟨hst, by rw [hsq]; rfl, by rw [hsq]; rfl, by rw [hsq], by rw [hlu], henable, ?_⟩
  rw [hstk]
  exact heatingStarted_heating _ _ _

/-! ## Post-quench and the flood (R88, R125, R142) -/

theorem postQuenchExpiry_runout {s : State} {x : Nat} (hst : s.sq.st = .runout .postQuench)
    (htimer : s.sq.postQuench = some x) (hdue : x ≤ s.cu.cellTime) : s.postQuenchExpiry = s.enterDone := by
  unfold State.postQuenchExpiry
  rw [if_pos (reached_of_some htimer hdue), if_pos hst]

theorem postQuenchExpiry_quenchout {s : State} {x : Nat} (hst : s.sq.st = .quenchout .postQuench)
    (htimer : s.sq.postQuench = some x) (hdue : x ≤ s.cu.cellTime) : s.postQuenchExpiry = s.change .held := by
  unfold State.postQuenchExpiry
  rw [if_pos (reached_of_some htimer hdue), if_neg (by rw [hst]; nofun), if_pos hst]

theorem not_sprays_of_cold {st : SeqState} (hst : st.sprays = false) : ¬ Sprays st := by
  rw [← sprays_iff, hst]
  exact Bool.false_ne_true

/-- An update keeps what no change of state touches. -/
theorem updateCore_kept (s : State) : Kept s s.updateCore := by
  refine ⟨by simp, by simp, by simp, by simp [SameKept], by simp, by simp, by simp, ?_⟩
  rw [updateCore_pe, computePe_nextUpdate]

/-- The state in which the flood's last update is read: the summary closed, phase STANDING (R142). -/
def floodOver (s : State) : State :=
  (s.closeSummary (State.floodStatus (s.sq.faultRecord.map (·.code))) (s.sq.faultRecord.map (·.code))).endFlood

/-- The flood's end at its instant (R142): an update, of which FAULT makes nothing else. -/
theorem floodExpiry_due {s : State} {x : Nat} (hst : s.sq.st = .fault .flood) (htimer : s.sq.floodTimer = some x)
    (hdue : x ≤ s.cu.cellTime) : s.floodExpiry = (floodOver s).updateCore := by
  have hexpired : s.floodExpiry = (floodOver s).update := if_pos ⟨hst, reached_of_some htimer hdue⟩
  rw [hexpired]
  exact rejudgeChanged_of_not_wait _ _ (by rw [updateCore_st]; nofun)

/-- At the flood's end power and spray are off (R59, R65, R68, R142). -/
theorem floodOver_points {h : RecipeHeader} {s : State} (hr : s.zt.activeBank.header = some h) :
    let t := (floodOver s).updateCore
    SetPointsOf h s.pe.latch t ∧ t.pe.flood = false ∧ t.pe.mask = 0 ∧ t.pe.flow = 0 ∧ t.pe.power = 0 ∧
    t.pe.latch = false ∧ t.pe.quenchZone = none := by
  intro t
  have hst : t.sq.st = .fault .standing := updateCore_st (floodOver s)
  have hpoints : SetPointsOf h s.pe.latch t := updateCore_points h (floodOver s) hr
  obtain ⟨-, hother, -, hdry, -, -, hoff⟩ := id hpoints
  obtain ⟨-, -, -, -, hpower, -⟩ := hother (by rw [hst]; nofun)
  have hnot : ¬ Sprays t.sq.st := not_sprays_of_cold (by rw [hst]; rfl)
  obtain ⟨hmask, hflow, hflood, hzone⟩ := hoff hnot (by rw [hst]; nofun) (by rw [hst]; nofun)
  exact ⟨hpoints, hflood, hmask, hflow, hpower (by rw [hst]; rfl), hdry hnot, hzone⟩

/-! ## The pressure watch (R134) -/

theorem pressureWatchExpiry_due {s : State} {x : Nat} (htimer : s.sq.pressureWatch = some x)
    (hdue : x ≤ s.cu.cellTime) : s.pressureWatchExpiry =
      (s.setSq { s.sq with pressureWatch := none }).reportFault .quenchPressure (.port .q) :=
  if_pos (reached_of_some htimer hdue)

/-! ## The expiries at their instant -/

/-- Settles O51, timer by timer. -/
theorem scanTimerExpiries : Obligations.ScanTimerExpiries := by
  intro h x s hr hdue
  refine ⟨fun hst htimer => ?_, fun hst htimer => ?_, fun hst htimer => ?_, fun hst htimer => ?_, fun hst htimer => ?_,
    fun hst htimer => ?_, fun htimer => ?_⟩
  · obtain ⟨hspiral, hinverter, hwaits⟩ := waitExpiry_judged hst htimer hdue
    exact ⟨fun hs => ⟨_, rfl, hspiral hs⟩, fun hs hi => ⟨_, rfl, hinverter hs hi⟩,
      fun hs hi => congrArg Host.Outcome.next (hwaits hs hi)⟩
  · have hbegun := enterHeating_begun h (s.setSq { s.sq with dwellZone := none }) hr
    have hkept := hbegun.scanKept
    refine ⟨_, congrArg Host.Outcome.next (if_pos ⟨hst, reached_of_some htimer hdue⟩), hbegun, hkept.cu, hkept.zt, hkept.rs,
      fun hreverse hend hdwell => ?_⟩
    exact (hbegun.stays hreverse hend hdwell).shown
  · have hchanged := change_changed h .done s hr nofun nofun rfl
    have hkept := hchanged.scanKept
    obtain ⟨hentered, -, -, -, -, -, -, hstk⟩ := hchanged.scanRecord
    obtain ⟨-, -, -, -, hpower, hspeed, hspindle, -⟩ := hchanged.points nofun
    rw [hentered] at hpower hspeed hspindle
    obtain ⟨-, -, -, ⟨-, -, -, hdry, -⟩, hsq, -⟩ := id hchanged
    refine ⟨s.change .done, _, congrArg Host.Outcome.next (postQuenchExpiry_runout hst htimer hdue), hchanged, rfl, hentered,
      ?_, ?_, hpower rfl, hspeed, hspindle, hdry (not_sprays_of_cold (by rw [hentered]; rfl)), hkept.cu, hkept.zt, hkept.rs⟩
    · exact congrArg Sq.postQuench hsq
    · show (s.change .done).stk.closeSummary .complete none = _
      rw [hstk]
      rfl
  · have hchanged := change_changed h .held s hr nofun nofun rfl
    obtain ⟨hentered, -, hheld, -, -, -, -, hstk⟩ := hchanged.scanRecord
    obtain ⟨-, -, -, -, hpower, -, hspindle, -⟩ := hchanged.points nofun
    rw [hentered] at hpower hspindle
    obtain ⟨-, -, -, -, hsq, -⟩ := id hchanged
    exact ⟨_, congrArg Host.Outcome.next (postQuenchExpiry_quenchout hst htimer hdue), hchanged, hentered,
      congrArg Sq.postQuench hsq, hheld, hpower rfl, hspindle, hstk, hchanged.scanKept.cu⟩
  · intro code
    obtain ⟨hpoints, hflood, hmask, hflow, hpower, hlatch, hzone⟩ := floodOver_points hr
    obtain ⟨hcu, hzt, hrs, hlinks, hacks, hpending, hfree, hupdate⟩ := updateCore_kept (floodOver s)
    refine ⟨_, congrArg Host.Outcome.next (floodExpiry_due hst htimer hdue), ?_, ?_, ?_, hpoints,
      ⟨hcu, hzt, hrs, hlinks, hacks, hpending, hfree, hupdate⟩, hflood, hmask, hflow, hpower, hcu, ?_⟩
    · rw [updateCore_sq, hlatch, hzone]
      rfl
    · rw [updateCore_stk_of_ne _ (by nofun)]
      rfl
    · exact (updateCore_sent (floodOver s)).congr rfl (by rw [hst]; rfl) (fun _ => rfl) rfl rfl rfl rfl
    · simp [floodOver]
  · have hexec : exec .indexWatchExpiry s = .next (s.reportFault .spiral .sq) :=
      congrArg Host.Outcome.next (if_pos ⟨hst, reached_of_some htimer hdue⟩)
    exact ⟨_, hexec, reportFault_enters _ _ _ (by rw [hst]; rfl)⟩
  · intro stopped
    have hexec : exec .pressureWatchExpiry s = .next (stopped.reportFault .quenchPressure (.port .q)) :=
      congrArg Host.Outcome.next (pressureWatchExpiry_due htimer hdue)
    have htaking : State.faultTaking .quenchPressure stopped.sq.st stopped.pe.quenchOn =
        State.takenIf ((s.pe.latch || s.pe.quenchZone.isSome) && s.sq.st != .idle && !s.sq.st.isFault) := rfl
    refine ⟨fun hwet hidle hfault => ⟨_, hexec, reportFault_enters _ _ _ ?_⟩, fun hnot => ?_⟩
    · rw [htaking]
      simp [hwet, hidle, hfault, State.takenIf]
    · rw [hexec, reportFault_ignored]
      rw [htaking]
      rcases hnot with hdry | hidle | hfault
      · simp [hdry, State.takenIf]
      · simp [hidle, State.takenIf]
      · simp [hfault, State.takenIf]

end Sys2Proof.Machine
end

section
/-! PROOF. A frontier advance with slices on the track (O25). -/

namespace Sys2Proof.Machine

/-! ## The slice track at an advance (R98, R99, R108) -/

/-- Departures leave heating noted or not, as it was. -/
theorem departs_heating (c : TrackRecipe) (q : QuenchCondition) (now : Nat) (b : Bool) (l : List SliceRecord)
    (k : Stk) : (l.foldl (fun v r => v.depart c q now b r) k).heating = k.heating := by
  induction l generalizing k with
  | nil => rfl
  | cons r rest ih => rw [List.foldl_cons, ih, depart_eq]

theorem passedStk_heating (c : TrackRecipe) (q : QuenchCondition) (f : Int) (now : Nat) (k : Stk) :
    (passedStk c q f now k).heating = k.heating :=
  departs_heating c q now false _ _

/-- Without heating noted no slice opens (R99). -/
theorem openedStk_cold (c : TrackRecipe) (f : Int) (k : Stk) (hk : k.heating = false) : openedStk c f k = k := by
  unfold openedStk opensAt
  rw [hk]
  rfl

theorem openAtFrontier_eq (s : State) : s.openAtFrontier = s.setStk (openedStk s.trackCtx s.cu.frontier s.stk) :=
  congrArg s.setStk (tryOpen_eq _ _ _)

theorem openAtFrontier_cold (s : State) (hs : s.stk.heating = false) : s.openAtFrontier = s := by
  rw [openAtFrontier_eq, openedStk_cold _ _ _ hs]
  rfl

/-- The close and the departures of an advance, with at most the youngest record open. -/
theorem passFrontier_eq (s : State) (hopen : ∀ r ∈ s.stk.track.dropLast, r.closeTime ≠ none) :
    s.passFrontier = s.setStk (passedStk s.trackCtx s.quenchCondition s.cu.frontier s.cu.cellTime s.stk) :=
  congrArg s.setStk (advance_eq _ _ _ _ _ hopen)

/-- Post-quench leaves the slices as they are: nothing but HEATING is power limited (R58, R105). -/
theorem startPostQuench_stk (st : SeqState) (s : State) (hst : st ≠ .heating) : (s.startPostQuench st).stk = s.stk :=
  updateCore_stk_of_ne _ hst

/-- In HEATING and DWELL no post-quench is judged, so that an emptied track brings nothing (R87, R123). -/
theorem noticeEmpty_heat (before : List SliceRecord) (s : State) (hs : s.sq.st.isHeat = true) :
    s.noticeEmpty before = s := by
  unfold State.noticeEmpty State.judgePostQuench
  have hrunout : s.sq.st ≠ .runout .travel := fun e => by rw [e] at hs; cases hs
  have hquenchout : s.sq.st ≠ .quenchout .travel := fun e => by rw [e] at hs; cases hs
  rw [if_neg hrunout, if_neg hquenchout, ite_self]

/-- The slice tracker's taking of an advance in HEATING and DWELL. -/
theorem trackAdvance_heat (s : State) (hopen : ∀ r ∈ s.stk.track.dropLast, r.closeTime ≠ none)
    (hs : s.sq.st.isHeat = true) :
    s.trackAdvance = s.setStk (openedStk s.trackCtx s.cu.frontier
      (passedStk s.trackCtx s.quenchCondition s.cu.frontier s.cu.cellTime s.stk)) := by
  unfold State.trackAdvance
  rw [passFrontier_eq s hopen, noticeEmpty_heat _ _ (by exact hs), openAtFrontier_eq]
  rfl

theorem noticeEmpty_stk (before : List SliceRecord) (s : State) : (s.noticeEmpty before).stk = s.stk := by
  unfold State.noticeEmpty State.judgePostQuench
  (repeat' split)
  · exact startPostQuench_stk _ _ nofun
  · rfl
  · exact startPostQuench_stk _ _ nofun
  · rfl
  · rfl
  · rfl

/-- The slice tracker's taking of an advance where heating is not noted: nothing opens. -/
theorem trackAdvance_cold (s : State) (hopen : ∀ r ∈ s.stk.track.dropLast, r.closeTime ≠ none)
    (hs : s.stk.heating = false) :
    s.trackAdvance = (s.setStk (passedStk s.trackCtx s.quenchCondition s.cu.frontier s.cu.cellTime s.stk)).noticeEmpty
      s.stk.track := by
  unfold State.trackAdvance
  rw [passFrontier_eq s hopen, openAtFrontier_cold]
  rw [noticeEmpty_stk]
  exact (passedStk_heating _ _ _ _ _).trans hs

/-! ## Post-quench begun before the marks or after them (R87, R123, R171) -/

/-- What the marks of an advance change: the line unit, and the capture queue with its overrun (R21, R171). -/
def lineUnitTook (u : Lu) (captures : List CaptureStamp) (overrun : Bool) (s : State) : State :=
  (s.setLu u).setCu { s.cu with captures := captures, overrun := overrun }

theorem markAdvance_took (old : Int) (k : MarkNo) (s : State) : s.markAdvance old k =
    lineUnitTook (s.lu.setMark k (markAfter old s k))
      (s.cu.captures ++ (firingStamps old [k] s).take (16 - s.cu.captures.length))
      (s.cu.overrun || decide (16 - s.cu.captures.length < (firingStamps old [k] s).length)) s := by
  rw [markAdvance_eq, captures_foldl]
  rfl

/-- A change that none of an update's hand-offs reads or makes may be made before them or after them. -/
theorem handUpdate_comm (f : State → State) (hpe : ∀ v, (f v).pe = v.pe)
    (hstk : ∀ v, (f v).setStk (f v).stk.powerLimited = f (v.setStk v.stk.powerLimited))
    (hsq : ∀ v, (f v).setSq { (f v).sq with pressureWatch := none } = f (v.setSq { v.sq with pressureWatch := none }))
    (hlp : ∀ v, (f v).sendUpdate = f v.sendUpdate) (s : State) : (f s).handUpdate = f s.handUpdate := by
  have hlimited : (f s).noticeLimited = f s.noticeLimited := by
    unfold State.noticeLimited
    rw [hpe, hstk, apply_ite f]
  have hdry (v : State) : (f v).stopDryWatch = f v.stopDryWatch := by
    unfold State.stopDryWatch
    rw [hpe, hsq, apply_ite f]
  unfold State.handUpdate
  rw [hlimited, hdry, hlp]

/-- Post-quench begun reads nothing that the marks of an advance change. -/
theorem startPostQuench_took (st : SeqState) (u : Lu) (l : List CaptureStamp) (b : Bool) (s : State) :
    (lineUnitTook u l b s).startPostQuench st = lineUnitTook u l b (s.startPostQuench st) :=
  let v := (s.setPhase st).startPostTimer
  handUpdate_comm (lineUnitTook u l b) (fun _ => rfl) (fun _ => rfl) (fun _ => rfl) (fun _ => rfl)
    (v.setPe (computePe v.peInput v.recipe v.pe))

theorem markAdvance_startPostQuench (old : Int) (k : MarkNo) (st : SeqState) (s : State) :
    (s.startPostQuench st).markAdvance old k = (s.markAdvance old k).startPostQuench st := by
  have hcu : (s.startPostQuench st).cu = s.cu := by simp
  have hlu : (s.startPostQuench st).lu = s.lu := by simp
  have hstamps : firingStamps old [k] (s.startPostQuench st) = firingStamps old [k] s := by
    unfold firingStamps firingStamp
    rw [hcu, hlu]
  have hmark : markAfter old (s.startPostQuench st) k = markAfter old s k := by
    unfold markAfter
    rw [hcu, hlu]
  rw [markAdvance_took, markAdvance_took, startPostQuench_took, hcu, hlu, hstamps, hmark]

/-- Post-quench begun within a motion state before the marks of an advance is post-quench begun after them. -/
theorem marksAdvance_startPostQuench (old : Int) (st : SeqState) (s : State) (hst : st.isMotion = true)
    (hs : s.sq.st.isMotion = true) :
    (s.startPostQuench st).marksAdvance old = (s.marksAdvance old).startPostQuench st := by
  have hbegun : (s.startPostQuench st).sq.st = st := updateCore_st _
  unfold State.marksAdvance
  rw [hbegun, if_pos hst, if_pos hs]
  simp only [markAdvance_startPostQuench]

/-- The next-dwell pointer set (R84). -/
def repointed (z : Option Nat) (s : State) : State := s.setSq { s.sq with nextDwell := z }

/-- The next-dwell pointer moves alike before post-quench begins and after it (R84, R123). -/
theorem pointedPast_startPostQuench (st : SeqState) (s : State) :
    pointedPast (s.startPostQuench st) = (pointedPast s).startPostQuench st := by
  let v := (s.setPhase st).startPostTimer
  have hnext (z : Option Nat) : repointed z (s.startPostQuench st) = (repointed z s).startPostQuench st :=
    (handUpdate_comm (repointed z) (fun _ => rfl) (fun _ => rfl) (fun _ => rfl) (fun _ => rfl)
      (v.setPe (computePe v.peInput v.recipe v.pe))).symm
  have hzones : (s.startPostQuench st).zones = s.zones := by simp [State.zones]
  have hpointer : (s.startPostQuench st).sq.nextDwell = s.sq.nextDwell := by
    unfold State.startPostQuench
    rw [updateCore_sq]
    rfl
  refine Eq.trans ?_ (hnext _)
  unfold pointedPast
  rw [hzones, hpointer, State.startPostQuench_cu]
  rfl

/-! ## The sequencer's judgement once the track has moved (R84, R85, R87, R123) -/

/-- A track that has not drained by its limit is fault OVERTRAVEL in a motion state (R87, R123). -/
theorem drainCheck_judged (limit : Int) (s : State) (hm : s.sq.st.isMotion = true) :
    (limit ≤ s.cu.frontier ∧ s.stk.track ≠ [] → EnteredFault .overtravel .sq s (s.drainCheck limit)) ∧
    (¬ (limit ≤ s.cu.frontier ∧ s.stk.track ≠ []) → s.drainCheck limit = s) := by
  unfold State.drainCheck
  refine ⟨fun hlate => ?_, fun hnot => if_neg hnot⟩
  rw [if_pos hlate]
  exact reportFault_enters _ _ _ (by simp [State.faultTaking, hm, State.takenIf])

theorem drainedAt_eq (h : RecipeHeader) (s : State) (hr : s.recipe = some h) :
    s.drainedAt = ((zonesEnd s.zones + h.offsetD : Nat) : Int) := by
  unfold State.drainedAt State.hdr
  rw [hr]
  rfl

theorem breakDrainedAt_eq (h : RecipeHeader) (s : State) (hr : s.recipe = some h) :
    s.breakDrainedAt = ((s.sq.heldFrom.bind HeldFrom.brk).getD 0) + (h.offsetD : Int) := by
  unfold State.breakDrainedAt State.hdr
  rw [hr]
  rfl

/-- In RUNOUT post-quench begins once the frontier is at x_end + D and the track is empty, whether this advance's
departures have emptied it or it was empty before; else the track's draining is judged (R87). -/
theorem advance_runout (h : RecipeHeader) (old : Int) (before : List SliceRecord) (m : State) (hr : m.recipe = some h)
    (hst : m.sq.st = .runout .travel) :
    let v := m.marksAdvance old
    let t := ((m.noticeEmpty before).marksAdvance old).seqAdvance
    let drained : Int := ((zonesEnd m.zones + h.offsetD : Nat) : Int)
    (drained ≤ m.cu.frontier ∧ m.stk.track = [] → t = v.startPostQuench (.runout .postQuench)) ∧
    (¬ (drained ≤ m.cu.frontier ∧ m.stk.track = []) → t = v.drainCheck (drained + 50000)) := by
  intro v t drained
  have hvst : v.sq.st = .runout .travel := by rw [State.marksAdvance_sq, hst]
  have hvr : v.recipe = some h := by unfold State.recipe; rw [State.marksAdvance_zt]; exact hr
  have hvdrained : v.drainedAt = drained := by
    rw [drainedAt_eq h v hvr]; simp [drained, State.zones, v]
  have hjudge (s : State) (hs : s.sq.st = .runout .travel) : s.judgePostQuench =
      if s.drainedAt ≤ s.cu.frontier ∧ s.stk.track = [] then s.startPostQuench (.runout .postQuench) else s := if_pos hs
  have hvjudge := hjudge v hvst
  rw [hvdrained, marksAdvance_frontier, State.marksAdvance_stk] at hvjudge
  have hmjudge := hjudge m hst
  rw [drainedAt_eq h m hr] at hmjudge
  have hseq : v.seqAdvance = v.judgePostQuench.drainCheck (v.drainedAt + 50000) := by
    unfold State.seqAdvance
    rw [hvst]
    rfl
  rw [hvjudge, hvdrained] at hseq
  refine ⟨fun hd => ?_, fun hd => ?_⟩
  · rw [if_pos hd] at hseq hmjudge
    by_cases hempty : before ≠ [] ∧ m.stk.track = []
    · have hmarks := marksAdvance_startPostQuench old (.runout .postQuench) m rfl (by rw [hst]; rfl)
      have hbegun : (v.startPostQuench (.runout .postQuench)).sq.st = .runout .postQuench := updateCore_st _
      simp only [t, State.noticeEmpty, if_pos hempty, hmjudge, hmarks]
      unfold State.seqAdvance
      rw [hbegun]
    · have hkept : (v.startPostQuench (.runout .postQuench)).stk.track = [] := by
        rw [startPostQuench_stk _ v (by nofun), State.marksAdvance_stk]
        exact hd.2
      simp only [t, State.noticeEmpty, if_neg hempty]
      exact hseq.trans (if_neg fun hlate => hlate.2 hkept)
  · rw [if_neg hd] at hseq hmjudge
    simp only [t, State.noticeEmpty, hmjudge, ite_self]
    exact hseq

/-- In QUENCHOUT the pointer moves on, an emptied track begins post-quench, and a track that is left is judged for its
draining (R84, R123). -/
theorem advance_quenchout (h : RecipeHeader) (old : Int) (before : List SliceRecord) (m : State)
    (hr : m.recipe = some h) (hst : m.sq.st = .quenchout .travel) (hbefore : before ≠ []) :
    let v := pointedPast (m.marksAdvance old)
    let t := ((m.noticeEmpty before).marksAdvance old).seqAdvance
    (m.stk.track = [] → t = v.startPostQuench (.quenchout .postQuench)) ∧
    (m.stk.track ≠ [] → t = v.drainCheck (((m.sq.heldFrom.bind HeldFrom.brk).getD 0) + (h.offsetD : Int) + 50000)) := by
  intro v t
  refine ⟨fun hempty => ?_, fun hleft => ?_⟩
  · have hjudge : m.judgePostQuench = m.startPostQuench (.quenchout .postQuench) := by
      unfold State.judgePostQuench
      rw [if_neg (by rw [hst]; nofun), if_pos hst, if_pos hempty]
    have hmarks := marksAdvance_startPostQuench old (.quenchout .postQuench) m rfl (by rw [hst]; rfl)
    have hbegun : ((m.marksAdvance old).startPostQuench (.quenchout .postQuench)).sq.st = .quenchout .postQuench :=
      updateCore_st _
    simp only [t, State.noticeEmpty, if_pos (And.intro hbefore hempty), hjudge, hmarks]
    unfold State.seqAdvance
    rw [hbegun]
    exact (movePointer_eq _).trans (pointedPast_startPostQuench _ _)
  · have hvst : (m.marksAdvance old).sq.st = .quenchout .travel := by rw [State.marksAdvance_sq, hst]
    have hvr : (m.marksAdvance old).recipe = some h := by unfold State.recipe; rw [State.marksAdvance_zt]; exact hr
    simp only [t, State.noticeEmpty, if_neg (fun e : _ ∧ _ => hleft e.2)]
    unfold State.seqAdvance
    rw [hvst]
    simp only [movePointer_eq, breakDrainedAt_eq h _ hvr, State.marksAdvance_sq]
    rfl

/-- In DWELL the start of the zone that follows is fault DRIVE (R85). -/
theorem seqAdvance_dwell (z : Nat) (v : State) (hheat : v.sq.st.isHeat = true) (hst : v.sq.st ≠ .heating)
    (hz : v.sq.dwellZone = some z) :
    (v.zoneStart (z + 1) ≤ v.cu.frontier → EnteredFault .drive .sq v v.seqAdvance) ∧
    (v.cu.frontier < v.zoneStart (z + 1) → v.seqAdvance = v) := by
  obtain ⟨ph, hph⟩ : ∃ ph, v.sq.st = .dwell ph := by
    cases hs : v.sq.st with
    | dwell ph => exact ⟨ph, rfl⟩
    | heating => exact absurd hs hst
    | idle | armed | seek | approach ph | runout ph | done | quenchout ph | held | fault ph =>
      rw [hs] at hheat; cases hheat
  unfold State.seqAdvance
  simp only [hph, hz]
  refine ⟨fun hreached => ?_, fun hshort => ?_⟩
  · rw [if_pos hreached]
    exact reportFault_enters _ _ _ (by rw [hph]; rfl)
  · rw [if_neg (Int.not_le.2 hshort)]

/-- In HEATING the arrivals are judged (R84). -/
theorem seqAdvance_heating (h : RecipeHeader) (v : State) (hr : v.recipe = some h) (hst : v.sq.st = .heating) :
    ArrivalsJudged h v v.seqAdvance := by
  have hseq : v.seqAdvance = v.arrivalChecks := by
    unfold State.seqAdvance
    rw [hst]
  rw [hseq]
  exact arrivalChecks_judged h v hr hst

/-! ## The edge -/

/-- A counted edge that advances the frontier within the limits, the range not acting: no check bites, and the advance
is handed on (R16, R17, R131). -/
theorem takeLevels_advance (a b : Bool) (s : State) :
    let up := (EncPhase.ofLevels a b == s.cu.phase.next) != s.cu.invert
    let c := edgeTaken up (EncPhase.ofLevels a b) s.cu
    (EncPhase.ofLevels a b = s.cu.phase.next ∨ s.cu.phase = (EncPhase.ofLevels a b).next) →
    CountedBoundary s.cu.edgeMode s.cu.phase (EncPhase.ofLevels a b) → s.cu.frontier < c.frontier → WithinLimits c →
    c.coord = (if up then s.cu.coord + stepMagnitude s.cu else s.cu.coord - stepMagnitude s.cu) →
    s.takeLevels a b = (s.setCu c).advance s.cu.frontier := by
  intro up c hlegal hcounted hadvance hwithin hfree
  have htaken := takeLevels_counted a b s hlegal hcounted
  have hat : c.frontier = max s.cu.frontier c.x := rfl
  have hnear : ¬ (((s.setCu c).hdr (·.reversalTol) : Nat) : Int) < c.frontier - c.x := by omega
  dsimp only at htaken
  rw [decide_eq_false (fun hne => hne hfree), travelCheck_within false (s.setCu c) (fun _ => by simpa using hwithin),
    reversalCheck_kept (s.setCu c) (fun _ => hnear)] at htaken
  rw [htaken]
  exact if_pos hadvance

/-- Settles O25: an advance closes, retires and opens slices, fires the marks, and is then judged in its state; where
the departures have emptied the track, the post-quench they begin is one begun after the marks. -/
theorem heatingAdvanceMovesTheTrack : Obligations.HeatingAdvanceMovesTheTrack := by
  intro a b h s new up c f k q passed moved startOf undrained breakEnd drained hlegal hcounted hadvance hheader hwithin
    hfree hopen hheating hstate
  let u : State := s.setCu c
  let v : State := moved.marksAdvance s.cu.frontier
  have hexec : exec (.encoderTransition a b) s = .next (u.advance s.cu.frontier) :=
    congrArg Host.Outcome.next (takeLevels_advance a b s hlegal hcounted hadvance hwithin hfree)
  have hmotion : s.sq.st.isMotion = true := by
    rcases hstate with hheat | hrunout | ⟨hquenchout, -⟩
    · exact isMotion_of_isHeat hheat
    · rw [hrunout]; rfl
    · rw [hquenchout]; rfl
  have hvr : v.recipe = some h := by unfold State.recipe; rw [State.marksAdvance_zt]; exact hheader
  have hvsq : v.sq = s.sq := State.marksAdvance_sq _ _
  have hvf : v.cu.frontier = f := marksAdvance_frontier _ _
  have hvstart (z : Nat) : v.zoneStart z = startOf z := by
    unfold State.zoneStart State.zones
    rw [State.marksAdvance_zt]
    rfl
  have hhot (hheat : s.sq.st.isHeat = true) : u.advance s.cu.frontier = v.seqAdvance := by
    unfold State.advance
    rw [trackAdvance_heat u hopen hheat]
    rfl
  have hcold (hheat : s.sq.st.isHeat = false) : moved.stk = passed ∧
      u.advance s.cu.frontier = ((moved.noticeEmpty s.stk.track).marksAdvance s.cu.frontier).seqAdvance := by
    have hoff : s.stk.heating = false := by
      rw [← Bool.not_eq_true]
      exact fun hon => by rw [hheating hon] at hheat; cases hheat
    have hstk : moved.stk = passed := openedStk_cold _ _ _ ((passedStk_heating _ _ _ _ _).trans hoff)
    have hmoved : moved = u.setStk passed := congrArg u.setStk hstk
    refine ⟨hstk, ?_⟩
    unfold State.advance
    rw [trackAdvance_cold u hopen hoff, hmoved]
    rfl
  refine ⟨v, _, hexec, marksAdvance_taken s.cu.frontier moved hmotion, fun hst => ?_, fun z hheat hst hz => ?_,
    fun hst => ?_, fun hst => ?_⟩
  · rw [hhot (by rw [hst]; rfl)]
    exact seqAdvance_heating h v hvr (by rw [hvsq, hst])
  · have hdwell := seqAdvance_dwell z v (by rw [hvsq]; exact hheat) (by rw [hvsq]; exact hst) (by rw [hvsq]; exact hz)
    rw [hvstart, hvf] at hdwell
    rw [hhot hheat]
    exact hdwell
  · obtain ⟨hstk, htaken⟩ := hcold (by rw [hst]; rfl)
    obtain ⟨hbegins, hjudged⟩ := advance_runout h s.cu.frontier s.stk.track moved hheader hst
    rw [← htaken, hstk] at hbegins hjudged
    obtain ⟨hlate, hintime⟩ := drainCheck_judged (drained + 50000) v (by rw [hvsq]; exact hmotion)
    rw [hvf, State.marksAdvance_stk, hstk] at hlate hintime
    refine ⟨fun hd he => ?_, fun hu => ?_, fun hu hd => ?_⟩
    · rw [hbegins ⟨hd, he⟩]
      exact startPostQuench_begun h _ v hvr nofun (by simp [Sprays])
    · rw [hjudged fun hd => hu.2 hd.2]
      exact hlate hu
    · rw [hjudged hd]
      exact hintime hu
  · obtain ⟨hstk, htaken⟩ := hcold (by rw [hst]; rfl)
    have hbefore : s.stk.track ≠ [] := by
      rcases hstate with hheat | hrunout | ⟨-, hbefore⟩
      · rw [hst] at hheat; cases hheat
      · rw [hst] at hrunout; cases hrunout
      · exact hbefore
    obtain ⟨hbegins, hjudged⟩ := advance_quenchout h s.cu.frontier s.stk.track moved hheader hst hbefore
    rw [← htaken, hstk] at hbegins hjudged
    have hpointed : (pointedPast v).cu.frontier = f ∧ (pointedPast v).stk = passed :=
      ⟨hvf, (State.marksAdvance_stk _ _).trans hstk⟩
    have hmoves : (pointedPast v).sq.st.isMotion = true := (congrArg (·.st.isMotion) hvsq).trans hmotion
    obtain ⟨hlate, hintime⟩ := drainCheck_judged (breakEnd + 50000) (pointedPast v) hmoves
    rw [hpointed.1, hpointed.2] at hlate hintime
    refine ⟨fun he => ?_, fun hu => ?_, fun hu hleft => ?_⟩
    · rw [hbegins he]
      exact startPostQuench_begun h _ (pointedPast v) hvr nofun (by simp [Sprays])
    · rw [hjudged hu.2]
      exact hlate hu
    · rw [hjudged hleft]
      exact hintime hu

end Sys2Proof.Machine
end

section
/-! PROOF. The verdicts of a departing slice (O26), and what a departure enters in the summary and the exceptions
(O27). -/

namespace Sys2Proof.Machine

/-! ## Verdicts (R107, R109) -/

/-- The distance of an energy from its target, in a tolerance's terms: below it by as much, or above it by as much. -/
theorem missed_iff (bound energy target : Nat) :
    bound < ((energy : Int) - (target : Int)).natAbs * 1000 ↔
      bound < (target - energy) * 1000 ∨ bound < (energy - target) * 1000 := by
  omega

/-- A HEATED slice with a target above 0 misses it below or above by more than the tolerance (R107). -/
theorem reasonsOf_energy (c : TrackRecipe) (r : SliceRecord) (interval : Option Nat) (flooded : Bool) (target : Nat)
    (hkind : r.kind = .heated) (htarget : r.target = some target) (hpos : 0 < target) :
    ((reasonsOf c r interval flooded).underEnergy = true ↔ c.energyTol * target < (target - r.energy) * 1000) ∧
    ((reasonsOf c r interval flooded).overEnergy = true ↔ c.energyTol * target < (r.energy - target) * 1000) := by
  have hmissed : energyMissed c.energyTol r = decide (c.energyTol * target < (target - r.energy) * 1000 ∨
      c.energyTol * target < (r.energy - target) * 1000) := by
    unfold energyMissed
    rw [hkind, htarget]
    simp only [Option.getD_some, Nat.ne_of_gt hpos, if_false, missed_iff]
  unfold reasonsOf
  simp only [hmissed, htarget, Option.getD_some, Bool.and_eq_true, decide_eq_true_eq]
  generalize c.energyTol * target = bound
  omega

/-- The reasons of a slice whose zone has a window: below it EARLY_QUENCH, above it LATE_QUENCH (R109). -/
theorem reasonsOf_interval (c : TrackRecipe) (r : SliceRecord) (flooded : Bool) (z : ZoneEntry) (low high i : Nat)
    (hzone : c.zones[r.zone]? = some z) (hlow : z.windowMin = some low) (hhigh : z.windowMax = some high) :
    ((reasonsOf c r (some i) flooded).earlyQuench = true ↔ i < low) ∧
    ((reasonsOf c r (some i) flooded).lateQuench = true ↔ high < i) := by
  unfold reasonsOf
  simp [hzone, hlow, hhigh]

/-- Settles O26: each clause reads the definitions at its kind of slice, its target and its interval. -/
theorem sliceVerdicts : Obligations.SliceVerdicts := by
  intro c r now flooded interval reasons
  refine ⟨fun target hkind htarget hpos => ⟨?_, reasonsOf_energy c r interval flooded target hkind htarget hpos⟩,
    fun hkind htarget => ?_, fun hkind => ?_, fun closed hkind hclosed => ?_, fun hkind => ?_, ?_, fun hnone => ?_,
    fun z low high i hzone hlow hhigh hi => ?_⟩
  · unfold energyRatio
    rw [hkind, htarget]
    exact if_neg (Nat.ne_of_gt hpos)
  · have hmissed : energyMissed c.energyTol r = decide (0 < r.energy) := by
      unfold energyMissed
      rw [hkind, htarget]
      rfl
    have hratio : energyRatio r = none := by
      unfold energyRatio
      rw [hkind, htarget]
      rfl
    refine ⟨hratio, ?_⟩
    simp [reasons, reasonsOf, hmissed, htarget]
  · have hmissed : energyMissed c.energyTol r = false := by
      unfold energyMissed
      rw [hkind]
    have hratio : energyRatio r = none := by
      unfold energyRatio
      rw [hkind]
    refine ⟨hratio, ?_⟩
    simp [reasons, reasonsOf, hmissed]
  · unfold judgedInterval
    rw [hkind, hclosed]
    rfl
  · unfold judgedInterval
    rw [hkind]
  · unfold judgedInterval
    cases r.kind <;> rfl
  · simp [reasons, reasonsOf, hnone]
  · subst hi
    exact reasonsOf_interval c r flooded z low high i hzone hlow hhigh

/-! ## What a departure enters (R110, R112, R115) -/

/-- A count that takes one more, or none, held at 2^32 - 1 (R115). -/
theorem addCount_toNat (n : Nat) (b : Bool) : addCount n b.toNat = min (n + if b then 1 else 0) (2 ^ 32 - 1) := by
  cases b <;> rfl

/-- The record of a departing slice, with the flags of the quench conditions that are set (R110). -/
def conditioned (q : QuenchCondition) (r : SliceRecord) : SliceRecord :=
  { r with flags := { r.flags with
      quenchLow := r.flags.quenchLow || q.pressureLow, quenchant := r.flags.quenchant || q.quenchantOut } }

/-- The exception record of a departing slice (R112). -/
def exceptionOf (r : SliceRecord) (reasons : Reasons) (interval : Option Nat) : ExceptionRecord :=
  { index := r.index, zone := r.zone, reasons := reasons, energy := r.energy, target := r.target, interval := interval
    closeTime := r.closeTime.getD 0 }

/-- A departure under an open summary: the slice is counted, and one with a reason takes a place among the exceptions
while there is one, or marks the detail incomplete. -/
theorem depart_counted (c : TrackRecipe) (q : QuenchCondition) (now : Nat) (flooded : Bool) (r : SliceRecord) (k : Stk)
    (u : Summary) (hsummary : k.summary = some u) (hopen : u.status = .opened) :
    let i := judgedInterval r now flooded
    let reasons := reasonsOf c (conditioned q r) i flooded
    let t := k.depart c q now flooded r
    ∃ incomplete, t.summary = some { u.count (conditioned q r) reasons i with detailIncomplete := incomplete } ∧
      (reasons.any = false → t.exceptions = k.exceptions) ∧
      (reasons.any = true →
        (k.exceptions.length < 32 → t.exceptions = k.exceptions ++ [exceptionOf r reasons i] ∧
          incomplete = u.detailIncomplete) ∧
        (32 ≤ k.exceptions.length → t.exceptions = k.exceptions ∧ incomplete = true)) := by
  intro i reasons t
  let counted : Stk := { k with summary := some (u.count (conditioned q r) reasons i) }
  have hcounted : k.onOpenSummary (Summary.count (conditioned q r) reasons i) = counted := by
    unfold Stk.onOpenSummary
    rw [hsummary]
    exact if_pos (by rw [hopen]; rfl)
  have hdepart : t = if reasons.any then counted.except (exceptionOf r reasons i) else counted := by
    rw [← hcounted]
    rfl
  by_cases hany : reasons.any = true
  · rw [if_pos hany] at hdepart
    unfold Stk.except Config.exceptionDepth at hdepart
    by_cases hroom : k.exceptions.length < 32
    · rw [if_pos hroom] at hdepart
      rw [hdepart]
      exact ⟨u.detailIncomplete, rfl, fun h => absurd hany (by simp [h]),
        fun _ => ⟨fun _ => ⟨rfl, rfl⟩, fun h => absurd hroom (Nat.not_lt.2 h)⟩⟩
    · rw [if_neg hroom] at hdepart
      have hmarked : t = { counted with
          summary := some { u.count (conditioned q r) reasons i with detailIncomplete := true } } :=
        hdepart.trans (if_pos (by rw [beq_iff_eq]; exact hopen))
      rw [hmarked]
      exact ⟨true, rfl, fun h => absurd hany (by simp [h]), fun _ => ⟨fun h => absurd h hroom, fun _ => ⟨rfl, rfl⟩⟩⟩
  · rw [if_neg hany] at hdepart
    rw [hdepart]
    exact ⟨u.detailIncomplete, rfl, fun _ => rfl, fun h => absurd h hany⟩

/-- A minimum and maximum take a value into account, from the first one on (R115). -/
theorem widen_spec (v : Option Nat) (old : Option (Nat × Nat)) :
    (v = none → widen v old = old) ∧
    ∀ n, v = some n → (old = none → widen v old = some (n, n)) ∧
      ∀ lo hi, old = some (lo, hi) → widen v old = some (min lo n, max hi n) := by
  refine ⟨?_, fun n hn => ⟨?_, fun lo hi => ?_⟩⟩
  · rintro rfl; rfl
  · rintro rfl; subst hn; rfl
  · rintro rfl; subst hn; rfl

/-- Settles O27: the summary counts the slice with its flags, and the exceptions take it where it has a reason. -/
theorem departureIsCounted : Obligations.DepartureIsCounted := by
  intro c q now flooded r k u hsummary hopen f i reasons more entry
  obtain ⟨incomplete, hcounted, hconforming, hexcepted⟩ := depart_counted c q now flooded r k u hsummary hopen
  obtain ⟨hratioNone, hratioSome⟩ := widen_spec (energyRatio r) u.ratio
  obtain ⟨hintervalNone, hintervalSome⟩ := widen_spec i u.interval
  refine ⟨rfl, rfl, rfl, rfl, rfl, rfl, _, hcounted, hopen, rfl, fun hany => ?_, fun hany => ?_, ?_, hratioNone,
    hratioSome, hintervalNone, hintervalSome⟩
  · have hnot : ¬ reasons.any = true := by rw [hany]; nofun
    refine ⟨if_neg hnot, if_neg hnot, if_neg ?_, hconforming hany⟩
    rw [Bool.and_eq_true]
    exact fun h => hnot h.1
  · refine ⟨if_pos hany, if_pos hany, ?_, hexcepted hany⟩
    show (if reasons.any && u.firstNonconforming.isNone then some r.index else u.firstNonconforming) = _
    rw [hany]
    cases u.firstNonconforming <;> rfl
  · show u.counts.add reasons r.flags.dwell = _
    unfold ReasonCounts.add
    simp only [addCount_toNat]
    rfl

end Sys2Proof.Machine
end

section
/-! PROOF. The requests that read the shaft's results: READ_SUMMARY (O37), READ_EXCEPTION and READ_FAULT (O38). -/

namespace Sys2Proof.Machine

/-! ## Fields as bytes (R190) -/

@[simp] theorem beBytes_length (n v : Nat) : (beBytes n v).length = n := by
  induction n with
  | zero => rfl
  | succ n ih => rw [beBytes, List.length_cons, ih]

@[simp] theorem beOpt_length (n : Nat) (v : Option Nat) : (beOpt n v).length = n := by
  cases v with
  | none => exact List.length_replicate
  | some v => exact beBytes_length n v

theorem beBytes_one (v : Nat) : beBytes 1 v = [codeByte v] := by
  simp [beBytes, codeByte]

theorem beFlag_eq (b : Bool) : beFlag b = [flagByte [b]] := by cases b <;> rfl

theorem beFlag_bit (b : Bool) : beFlag b = [if b then 1 else 0] := by cases b <;> rfl

theorem beCount_eq (n : Nat) : beCount n = countField n := rfl

theorem beMeasure_eq (v : Option Nat) : beMeasure v = measureField v := by
  unfold beMeasure measureField
  exact congrArg (beOpt 2) (congrArg (v.map ·) (funext fun n => Nat.min_comm 65534 n))

theorem bitsToNat_append (l m : List Bool) : bitsToNat (l ++ m) = bitsToNat l + 2 ^ l.length * bitsToNat m := by
  induction l with
  | nil => simp [bitsToNat]
  | cons b l ih =>
    rw [List.cons_append, bitsToNat, bitsToNat, ih, List.length_cons, Nat.pow_succ, Nat.mul_add, Nat.add_assoc,
      Nat.mul_comm (2 ^ l.length) 2, Nat.mul_assoc]

theorem bitsToNat_lt (l : List Bool) : bitsToNat l < 2 ^ l.length := by
  induction l with
  | nil => exact Nat.one_pos
  | cons b l ih =>
    rw [bitsToNat, List.length_cons, Nat.pow_succ]
    have hb : b.toNat ≤ 1 := Bool.toNat_le b
    omega

/-- A common factor of 2 taken out of a sum. -/
theorem sum_map_double {α : Type} (f : α → Nat) (l : List α) : (l.map (fun k => 2 * f k)).sum = 2 * (l.map f).sum := by
  induction l with
  | nil => rfl
  | cons k l ih => rw [List.map_cons, List.sum_cons, ih, List.map_cons, List.sum_cons, Nat.mul_add]

/-- Bits as a number are the powers of two of those that are set. -/
theorem bitsToNat_eq_sum (l : List Bool) :
    bitsToNat l = ((List.range l.length).map (fun k => if l[k]? = some true then 2 ^ k else 0)).sum := by
  induction l with
  | nil => rfl
  | cons b l ih =>
    have hstep (k : Nat) : (if l[k]? = some true then 2 ^ (k + 1) else 0) =
        2 * (if l[k]? = some true then 2 ^ k else 0) := by
      split
      · rw [Nat.pow_succ, Nat.mul_comm]
      · rfl
    rw [bitsToNat, ih, List.length_cons, List.range_succ_eq_map, List.map_cons, List.sum_cons, List.map_map,
      ← sum_map_double]
    congr 1
    · cases b <;> rfl
    · exact congrArg List.sum (List.map_congr_left fun k _ => (hstep k).symm)

theorem flagByte_eq (l : List Bool) : flagByte l = BitVec.ofNat 8 (bitsToNat l) := by
  rw [bitsToNat_eq_sum]
  rfl

theorem beBytes_two (low high : Nat) (hlow : low < 256) :
    beBytes 2 (low + 256 * high) = [codeByte high, codeByte low] := by
  have hhigh : (low + 256 * high) / 256 ^ 1 = high := by omega
  have hrest : codeByte (low + 256 * high) = codeByte low := by
    unfold codeByte
    rw [BitVec.ofNat_add, BitVec.ofNat_mul]
    simp
  rw [beBytes, hhigh, beBytes_one, hrest]
  rfl

/-- A reason set in two bytes, reason k at bit k (R190). -/
theorem reasonsWord_bytes (r : Reasons) : beBytes 2 r.word = [flagByte [r.quenchLow, r.flooded],
    flagByte [r.underEnergy, r.overEnergy, r.earlyQuench, r.lateQuench, r.powerLimited, r.holdBreak, r.seam,
      r.quenchant]] := by
  let low : List Bool :=
    [r.underEnergy, r.overEnergy, r.earlyQuench, r.lateQuench, r.powerLimited, r.holdBreak, r.seam, r.quenchant]
  have hword : r.word = bitsToNat (low ++ [r.quenchLow, r.flooded]) := rfl
  have hwidth : 2 ^ low.length = 256 := by simp [low]
  have hlow : bitsToNat low < 256 := Nat.lt_of_lt_of_eq (bitsToNat_lt low) hwidth
  rw [flagByte_eq, flagByte_eq, hword, bitsToNat_append, hwidth, beBytes_two _ _ hlow]
  rfl

/-! ## The answer buffer (R186) -/

/-- The delivery of a part of two: its number, the number of parts, its fields. -/
theorem partData_two (d1 d2 : List Byte) :
    State.partData 1 [d1, d2] = [1, 2] ++ d1 ∧ State.partData 2 [d1, d2] = [2, 2] ++ d2 := by
  unfold State.partData
  simp only [beBytes_one]
  exact ⟨rfl, rfl⟩

/-- A part after the first, from a buffer that holds it. -/
theorem deliverLater_held (kind : BufferKind) (n : Nat) (parts : List (List Byte)) (s : State)
    (hbuffer : s.lp.buffer = some { kind := kind, parts := parts }) (hfirst : 1 < n) (hlast : n ≤ parts.length) :
    s.deliverLater kind n = (s, Answer.ok (State.partData n parts)) := by
  unfold State.deliverLater
  rw [hbuffer]
  exact if_pos ⟨rfl, hfirst, hlast⟩

/-- A part number that the buffer does not hold is INVALID. -/
theorem deliverLater_missing (kind : BufferKind) (n : Nat) (s : State)
    (hbuffer : ∀ b, s.lp.buffer = some b → b.kind ≠ kind ∨ n = 0 ∨ b.parts.length < n) :
    s.deliverLater kind n = (s, Answer.invalid 53 none) := by
  unfold State.deliverLater
  cases hb : s.lp.buffer with
  | none => rfl
  | some b =>
    refine if_neg fun ⟨hkind, hfirst, hlast⟩ => ?_
    rcases hbuffer b hb with h | h | h
    · exact h hkind
    · omega
    · omega

/-! ## READ_SUMMARY (R118) -/

theorem summaryPart1_eq (u : Summary) : State.summaryPart1 u = summaryLayout1 u := by
  unfold State.summaryPart1 State.countBytes summaryLayout1
  simp only [beBytes_one, beCount_eq, List.flatMap_cons, List.flatMap_nil, List.append_nil, List.append_assoc]

theorem summaryPart2_eq (u : Summary) : State.summaryPart2 u = summaryLayout2 u := by
  unfold State.summaryPart2 summaryLayout2
  simp only [beMeasure_eq, beCount_eq, beFlag_eq]

theorem summaryPart1_length (u : Summary) : (State.summaryPart1 u).length = 37 := by
  simp [State.summaryPart1, State.countBytes, beCount]

theorem summaryPart2_length (u : Summary) : (State.summaryPart2 u).length = 24 := by
  simp [State.summaryPart2, beCount, beMeasure, beFlag]

theorem exec_readSummary {tag : Byte} {n : Nat} {s : State} (htaken : Taken s) :
    exec (.readSummary tag (.fields n)) s =
      .next ((State.readSummary n (s.arrive .s)).1.answer tag (State.readSummary n (s.arrive .s)).2) :=
  congrArg Host.Outcome.next (takeRequest_taken tag n State.readSummary s htaken)

/-- A part after the first is the buffer's alone. -/
theorem readSummary_later (n : Nat) (s : State) (hn : n ≠ 1) :
    State.readSummary n s = s.deliverLater .summary n := if_neg hn

/-- READ_SUMMARY's mark: a closed summary is read (R118). -/
theorem markRead_eq (k : Stk) (u : Summary) (hsummary : k.summary = some u) :
    k.markRead = { k with summary := some (if u.status = .opened then u else { u with read := true }) } := by
  unfold Stk.markRead
  rw [hsummary]
  simp only [Option.map_some, beq_iff_eq]

/-- Settles O37: part 1 forms the buffer and marks the summary, the other parts read the buffer. -/
theorem readSummaryDeliversAndMarks : Obligations.ReadSummaryDeliversAndMarks := by
  intro tag u d1 d2 s htaken r
  refine ⟨fun hnone => ?_, fun hsome => ?_, fun hbuffer => ?_, fun n hn hbuffer => ?_, summaryPart1_eq u,
    summaryPart2_eq u, summaryPart1_length u, summaryPart2_length u, rfl⟩
  · have hread : State.readSummary 1 r = (r, Answer.refuse .empty) := by
      simp [State.readSummary, r, hnone]
    rw [exec_readSummary htaken, hread]
    rfl
  · have hmarked := markRead_eq r.stk u ((congrArg Stk.summary (s.arrive_stk .s)).trans hsome)
    have hread : State.readSummary 1 r =
        (let f := r.deliverFirst .summary [State.summaryPart1 u, State.summaryPart2 u]
         (f.1.setStk f.1.stk.markRead, f.2)) := by
      simp [State.readSummary, r, hsome]
    rw [exec_readSummary htaken, hread]
    unfold State.deliverFirst
    simp only [State.setLp_stk, hmarked]
    simp only [r, State.arrive_stk, (partData_two _ _).1]
  · rw [exec_readSummary htaken, readSummary_later 2 _ (by decide),
      deliverLater_held .summary 2 [d1, d2] _ ((s.arrive_lp_buffer .s).trans hbuffer) (by decide) (by simp),
      (partData_two d1 d2).2]
    rfl
  · rw [exec_readSummary htaken, readSummary_later n _ hn,
      deliverLater_missing .summary n _ (by rwa [State.arrive_lp_buffer])]
    rfl

/-! ## READ_EXCEPTION (R113) and READ_FAULT (R140) -/

theorem exceptionBytes_eq (e : ExceptionRecord) : State.exceptionBytes e = exceptionLayout e := by
  unfold State.exceptionBytes exceptionLayout
  rw [beBytes_one, reasonsWord_bytes, beMeasure_eq]
  simp only [List.append_assoc, List.cons_append, List.nil_append]

theorem faultBytes_eq (f : FaultRecord) : State.faultBytes f = faultLayout f := by
  unfold State.faultBytes faultLayout
  simp only [beBytes_one, List.append_assoc, List.cons_append, List.nil_append]

theorem secondaryBytes_eq (f : Option SecondaryFault) : State.secondaryBytes f = secondaryLayout f := by
  cases f with
  | none => rfl
  | some f =>
    unfold State.secondaryBytes secondaryLayout
    simp only [Option.map_some, beOpt, beBytes_one, List.cons_append, List.nil_append]

/-- READ_EXCEPTION with a record held: the oldest removed and counted as delivered (R113). -/
theorem readException_cons (e : ExceptionRecord) (rest : List ExceptionRecord) (u : Summary) (s : State)
    (hheld : s.stk.exceptions = e :: rest) (hsummary : s.stk.summary = some u) : State.readException () s =
      (s.setStk { s.stk with
        exceptions := rest, summary := some { u with delivered := min (u.delivered + 1) (2 ^ 32 - 1) } },
        Answer.ok (State.exceptionBytes e ++ [BitVec.ofNat 8 rest.length, if u.detailIncomplete then 1 else 0])) := by
  have hbytes : beBytes 1 rest.length ++ beFlag u.detailIncomplete =
      [BitVec.ofNat 8 rest.length, if u.detailIncomplete then 1 else 0] := by
    rw [beBytes_one, beFlag_bit]
    rfl
  have hdropped : s.stk.dropException = { s.stk with
      exceptions := rest, summary := some { u with delivered := min (u.delivered + 1) (2 ^ 32 - 1) } } := by
    unfold Stk.dropException
    rw [hheld, hsummary]
    rfl
  unfold State.readException
  simp only [hheld, hsummary, hdropped, Option.map_some, Option.getD_some, List.append_assoc, hbytes]

/-- READ_FAULT with a record held (R140). -/
theorem readFault_some (f : FaultRecord) (s : State) (hrecord : s.sq.faultRecord = some f) : State.readFault () s =
    (s, Answer.ok (State.faultBytes f ++ [BitVec.ofNat 8 s.sq.secondaryCount] ++
      State.secondaryBytes s.sq.latestSecondary)) := by
  unfold State.readFault
  simp only [hrecord, beBytes_one]
  rfl

/-- Settles O38: both are read on the state after the arrival, which leaves the slices and the sequencer. -/
theorem readExceptionAndReadFault : Obligations.ReadExceptionAndReadFault := by
  intro tag e rest u f s htaken
  have hexception : exec (.readException tag (.fields ())) s = .next
      ((State.readException () (s.arrive .s)).1.answer tag (State.readException () (s.arrive .s)).2) :=
    congrArg Host.Outcome.next (takeRequest_taken tag () State.readException s htaken)
  have hfault : exec (.readFault tag (.fields ())) s = .next
      ((State.readFault () (s.arrive .s)).1.answer tag (State.readFault () (s.arrive .s)).2) :=
    congrArg Host.Outcome.next (takeRequest_taken tag () State.readFault s htaken)
  refine ⟨fun hempty => ?_, fun hheld hsummary => ?_, fun hnone => ?_, fun hsome => ?_, exceptionBytes_eq e,
    faultBytes_eq f, secondaryBytes_eq _, rfl, rfl⟩
  · have hread : State.readException () (s.arrive .s) = (s.arrive .s, Answer.refuse .empty) := by
      simp [State.readException, hempty]
    rw [hexception, hread]
    rfl
  · rw [hexception, readException_cons e rest u (s.arrive .s) (by rwa [State.arrive_stk]) (by rwa [State.arrive_stk]),
      State.arrive_stk]
  · have hread : State.readFault () (s.arrive .s) = (s.arrive .s, Answer.refuse .empty) := by
      simp [State.readFault, hnone]
    rw [hfault, hread]
    rfl
  · rw [hfault, readFault_some f (s.arrive .s) (by rwa [State.arrive_sq]), State.arrive_sq]
    rfl

end Sys2Proof.Machine
end

section
/-! PROOF. POWER_REPORT (O43). -/

namespace Sys2Proof.Machine

/-- The code of a state is read back as that state (R190). -/
theorem inverterState_ofCode (st : InverterState) : InverterState.ofCode st.code = some st := by cases st <;> rfl

/-- Only the code of a state is read back as one (R190). -/
theorem inverterState_code {n : Nat} {st : InverterState} (h : InverterState.ofCode n = some st) : n = st.code := by
  unfold InverterState.ofCode at h
  split at h
  · cases h; assumption
  split at h
  · cases h; assumption
  split at h
  · cases h; assumption
  split at h
  · cases h; assumption
  · cases h

/-- A report trips where TRIPPED follows another state or no report (R136). -/
theorem trips_iff (st : InverterState) (s : State) :
    s.trips st = true ↔ st = .tripped ∧ s.lp.power.map (·.state) ≠ some .tripped := by
  unfold State.trips
  cases s.lp.power <;> simp

/-- The report kept, with its power held at 800,000 (R156). -/
def keptReport (r : PowerReport) (st : InverterState) (s : State) : State :=
  s.setLp { s.lp with
    power := some { power := min r.power 800000, interval := r.interval, state := st, time := s.cu.cellTime } }

/-- The energy of a report, in the statements' words (R104, R156). -/
theorem creditPower_eq (r : PowerReport) (s : State) :
    s.creditPower r = s.setStk (creditedStk (min r.power 800000 * min r.interval 5000 / 1000) s.stk) :=
  congrArg s.setStk (credit_eq _ _)

/-- The credit of a report, and the power-limited notice of one whose state is LIMITING (R104, R105). -/
theorem noteLimiting_creditPower (r : PowerReport) (st : InverterState) (s : State) :
    (s.creditPower r).noteLimiting st =
      let credited := creditedStk (min r.power 800000 * min r.interval 5000 / 1000) s.stk
      s.setStk (if st = .limiting then limitedStk credited else credited) := by
  rw [creditPower_eq]
  unfold State.noteLimiting
  split
  · exact congrArg s.setStk (powerLimited_eq _)
  · rfl

/-- A report with a defined state (R156). -/
theorem exec_powerReport {r : PowerReport} {st : InverterState} (s : State) (hcode : r.stateCode = st.code) :
    exec (.powerReport (.fields r)) s = .next ((s.arrive .p).takePower r st) := by
  show Host.Outcome.next (s.powerReport (.fields r)) = _
  unfold State.powerReport
  simp only [hcode, inverterState_ofCode]

/-- A report that does not trip: kept, credited, and the start conditions judged again in phase WAIT (R82, R156). -/
theorem takePower_quiet (r : PowerReport) (st : InverterState) (s : State)
    (h : ¬ (st = .tripped ∧ s.lp.power.map (·.state) ≠ some .tripped)) :
    let credited := creditedStk (min r.power 800000 * min r.interval 5000 / 1000) s.stk
    s.takePower r st =
      ((keptReport r st s).setStk (if st = .limiting then limitedStk credited else credited)).rejudge := by
  intro credited
  unfold State.takePower
  rw [if_neg (mt (trips_iff st s).1 h), noteLimiting_creditPower]
  rfl

/-- A report that trips: the fault and the credit, in one order or the other (R136, R156; assumption 9). -/
theorem takePower_trips (r : PowerReport) (st : InverterState) (s : State)
    (h : st = .tripped ∧ s.lp.power.map (·.state) ≠ some .tripped) :
    let energy := min r.power 800000 * min r.interval 5000 / 1000
    let drawn : State := { keptReport r st s with freeCount := s.freeCount + 1 }
    (∃ u, FaultOrSecondary .inverter (.port .p) drawn u ∧ s.takePower r st = u.setStk (creditedStk energy u.stk)) ∨
    FaultOrSecondary .inverter (.port .p) (drawn.setStk (creditedStk energy s.stk)) (s.takePower r st) := by
  intro energy drawn
  have htaken : s.takePower r st = (s.keepPower r st).takeTrip r := if_pos ((trips_iff st s).2 h)
  rw [htaken]
  unfold State.takeTrip
  split
  · exact .inl ⟨_, reportFault_faultOrSecondary .inverter (.port .p) drawn rfl, creditPower_eq r _⟩
  · refine .inr ?_
    rw [creditPower_eq]
    exact reportFault_faultOrSecondary .inverter (.port .p) (drawn.setStk (creditedStk energy s.stk)) rfl

/-- Settles O43: the arrival leaves what the report is judged against. -/
theorem powerReportCreditsEnergy : Obligations.PowerReportCreditsEnergy := by
  intro r st s a power kept energy trips
  have hkept : keptReport r st a = kept := by
    unfold keptReport
    rw [State.arrive_cu]
  have hstk : a.stk = s.stk := s.arrive_stk .p
  have htrips : trips ↔ st = .tripped ∧ a.lp.power.map (·.state) ≠ some .tripped := by
    rw [State.arrive_lp_power]
  refine ⟨rfl, fun hnone => ?_, ?_⟩
  · show Host.Outcome.next (s.powerReport (.fields r)) = _
    have hread : InverterState.ofCode r.stateCode = none :=
      Option.eq_none_iff_forall_ne_some.2 fun v hv => hnone v (inverterState_code hv)
    unfold State.powerReport
    simp only [hread]
    rfl
  intro credited
  have hquiet (hcode : r.stateCode = st.code) (hnot : ¬ trips) :
      exec (.powerReport (.fields r)) s = .next credited.rejudge := by
    have htaken := takePower_quiet r st a (mt htrips.2 hnot)
    rw [hkept, hstk] at htaken
    rw [exec_powerReport s hcode]
    exact congrArg Host.Outcome.next htaken
  refine ⟨fun hcode hnot hst => ?_, fun h hcode hnot hst hr => ?_, fun hcode htrip => ?_⟩
  · rw [hquiet hcode hnot]
    refine congrArg Host.Outcome.next (if_neg ?_)
    show a.sq.st ≠ .approach .wait
    rwa [State.arrive_sq]
  · have hrecipe : credited.recipe = some h := (congrArg (·.activeBank.header) (s.arrive_zt .p)).trans hr
    have hwait : credited.sq.st = .approach .wait := (congrArg Sq.st (s.arrive_sq .p)).trans hst
    exact ⟨_, hquiet hcode hnot, rejudge_rejudged h credited hrecipe hwait⟩
  · have htaken := takePower_trips r st a (htrips.1 htrip)
    rw [hkept, hstk, State.arrive_freeCount] at htaken
    exact ⟨_, exec_powerReport s hcode, htaken⟩

end Sys2Proof.Machine
end

section
/-! PROOF. What a hold request does (O18): what it keeps in every state, and what HELD and QUENCHOUT show of their
entry. -/

namespace Sys2Proof.Machine

/-! ## What a hold request keeps (R121) -/

theorem Kept.refl (s : State) : Kept s s :=
  ⟨rfl, rfl, rfl, ⟨rfl, rfl, rfl, rfl, rfl, rfl, rfl, rfl, rfl⟩, rfl, rfl, rfl, rfl⟩

theorem SameKept.trans {a b c : Lp} (h : SameKept a b) (k : SameKept b c) : SameKept a c := by
  obtain ⟨h1, h2, h3, h4, h5, h6, h7, h8, h9⟩ := h
  obtain ⟨k1, k2, k3, k4, k5, k6, k7, k8, k9⟩ := k
  exact ⟨k1.trans h1, k2.trans h2, k3.trans h3, k4.trans h4, k5.trans h5, k6.trans h6, k7.trans h7, k8.trans h8,
    k9.trans h9⟩

theorem Kept.trans {s t u : State} (h : Kept s t) (k : Kept t u) : Kept s u := by
  obtain ⟨hcu, hzt, hrs, hlinks, hacks, hpending, hfree, hupdate⟩ := h
  obtain ⟨kcu, kzt, krs, klinks, kacks, kpending, kfree, kupdate⟩ := k
  exact ⟨kcu.trans hcu, kzt.trans hzt, krs.trans hrs, hlinks.trans klinks, kacks.trans hacks, kpending.trans hpending,
    kfree.trans hfree, kupdate.trans hupdate⟩

/-- What a hold request leaves in every state: all that a change of state keeps, and with it what a reset reads of the
sequencer and of the pins. -/
structure HoldKept (s t : State) : Prop where
  kept : Kept s t
  scanNumber : t.sq.scanNumber = s.sq.scanNumber
  railMv : t.sq.railMv = s.sq.railMv
  lines : t.lu.lines = s.lu.lines

namespace HoldKept

theorem refl (s : State) : HoldKept s s := ⟨.refl s, rfl, rfl, rfl⟩

theorem trans {s t u : State} (h : HoldKept s t) (k : HoldKept t u) : HoldKept s u :=
  ⟨h.kept.trans k.kept, k.scanNumber.trans h.scanNumber, k.railMv.trans h.railMv, k.lines.trans h.lines⟩

theorem setSq (s : State) {v : Sq} (hscan : v.scanNumber = s.sq.scanNumber) (hrail : v.railMv = s.sq.railMv) :
    HoldKept s (s.setSq v) := ⟨.refl s, hscan, hrail, rfl⟩

theorem setStk (s : State) (v : Stk) : HoldKept s (s.setStk v) := ⟨.refl s, rfl, rfl, rfl⟩

theorem updateCore (s : State) : HoldKept s s.updateCore :=
  ⟨updateCore_kept s, by rw [updateCore_sq], by rw [updateCore_sq], by rw [State.updateCore_lu]⟩

end HoldKept

/-- The sequencer's record of a change, with or without an active header (R72, R90). -/
theorem change_sq (s : State) {st : SeqState} (hst : st ≠ .idle) : (s.change st).sq =
    changedSq st ((s.change st).pe.latch || (s.change st).pe.quenchZone.isSome) s.sq := handOn_sq (s.enter st none) hst

theorem change_holdKept (s : State) {st : SeqState} (hst : st ≠ .idle) : HoldKept s (s.change st) :=
  ⟨handOn_kept (s.enter st none) hst, by rw [change_sq s hst]; rfl, by rw [change_sq s hst]; rfl,
    by rw [show (s.change st).lu = _ from State.handOn_lu (s.enter st none)]; rfl⟩

/-- Nothing but HEATING is power limited, so that a change to another state leaves the slices (R58, R105). -/
theorem change_stk (s : State) {st : SeqState} (hidle : st ≠ .idle) (hheating : st ≠ .heating) :
    (s.change st).stk = s.stk := by
  have hentered : (s.enter st none).announce.sq.st ≠ .heating := by rw [State.announce_sq]; exact hheating
  have hhanded : (s.change st).stk = (s.enter st none).announce.stk :=
    (congrArg State.stk (handOn_eq (s.enter st none) hidle)).trans (updateCore_stk_of_ne _ hentered)
  exact hhanded.trans (State.announce_stk _)

theorem startPostQuench_sq (st : SeqState) (s : State) : (s.startPostQuench st).sq = { s.sq with
    st := st
    postQuench := (s.startPostQuench st).sq.postQuench
    pressureWatch := (s.startPostQuench st).sq.pressureWatch } := by
  have hupdated : (s.startPostQuench st).sq = _ := updateCore_sq (s.setPhase st).startPostTimer
  rw [hupdated]
  rfl

theorem startPostQuench_holdKept (st : SeqState) (s : State) : HoldKept s (s.startPostQuench st) :=
  HoldKept.trans (t := (s.setPhase st).startPostTimer) (.setSq s rfl rfl) (.updateCore _)

/-! ## HELD and QUENCHOUT entered by a hold (R122, R123, R125) -/

theorem enterHeld_holdKept (s : State) (brk : HeldFrom) : HoldKept s (s.enterHeld brk) :=
  have hrecord : HoldKept s (s.setSq { s.sq with heldFrom := some brk, startRecord := StartRecord.cleared }) :=
    .setSq s rfl rfl
  hrecord.trans (change_holdKept _ (st := .held) nofun)

/-- What HELD shows of its entry (R125). -/
theorem enterHeld_shown (s : State) (brk : HeldFrom) :
    let t := s.enterHeld brk
    t.sq.st = .held ∧ t.sq.heldFrom = some brk ∧ t.sq.startRecord = StartRecord.cleared ∧ t.sq.approachWait = none ∧
    t.stk = s.stk := by
  intro t
  have hsq : t.sq = _ :=
    change_sq (s.setSq { s.sq with heldFrom := some brk, startRecord := StartRecord.cleared }) nofun
  rw [hsq]
  exact ⟨rfl, rfl, rfl, rfl, change_stk _ nofun nofun⟩

/-- QUENCHOUT entered, before post-quench is judged: the change and the hold-break notice (R102, R122). -/
def quenchoutMade (brk : HeldFrom) (s : State) : State :=
  ((s.setSq { s.sq with heldFrom := some brk, dwellZone := none }).change (.quenchout .travel)).noticeHoldBreak

theorem quenchoutMade_sq (brk : HeldFrom) (s : State) : (quenchoutMade brk s).sq =
    changedSq (.quenchout .travel) ((quenchoutMade brk s).pe.latch || (quenchoutMade brk s).pe.quenchZone.isSome)
      { s.sq with heldFrom := some brk, dwellZone := none } :=
  change_sq (s.setSq { s.sq with heldFrom := some brk, dwellZone := none }) nofun

theorem quenchoutMade_holdKept (brk : HeldFrom) (s : State) : HoldKept s (quenchoutMade brk s) :=
  have hrecord : HoldKept s (s.setSq { s.sq with heldFrom := some brk, dwellZone := none }) := .setSq s rfl rfl
  hrecord.trans ((change_holdKept _ (st := .quenchout .travel) nofun).trans (.setStk _ _))

theorem quenchoutMade_stk (brk : HeldFrom) (s : State) :
    (quenchoutMade brk s).stk = brokenStk (trackRecipe s.zt.activeBank) s.cu.cellTime s.stk := by
  let v : State := s.setSq { s.sq with heldFrom := some brk, dwellZone := none }
  have hstk : (v.change (.quenchout .travel)).stk = s.stk := change_stk v nofun nofun
  have htrack : (v.change (.quenchout .travel)).trackCtx = trackRecipe s.zt.activeBank :=
    congrArg (fun z : Zt => trackRecipe z.activeBank) (State.change_zt v _)
  have hnow : (v.change (.quenchout .travel)).now = s.cu.cellTime := congrArg Cu.cellTime (State.change_cu v _)
  show (v.change (.quenchout .travel)).stk.holdBreak (v.change (.quenchout .travel)).trackCtx
    (v.change (.quenchout .travel)).now = _
  rw [hstk, htrack, hnow, holdBreak_eq]

/-- In QUENCHOUT post-quench begins once no slice is left on the track (R123). -/
theorem judgePostQuench_quenchout {s : State} (hst : s.sq.st = .quenchout .travel) :
    s.judgePostQuench = if s.stk.track = [] then s.startPostQuench (.quenchout .postQuench) else s := by
  unfold State.judgePostQuench
  rw [if_neg (by rw [hst]; nofun), if_pos hst]

theorem enterQuenchout_eq (s : State) (brk : HeldFrom) : s.enterQuenchout brk =
    if s.stk.track = [] then (quenchoutMade brk s).startPostQuench (.quenchout .postQuench)
    else quenchoutMade brk s := by
  have hst : (quenchoutMade brk s).sq.st = .quenchout .travel := by rw [quenchoutMade_sq]; rfl
  have hempty : (quenchoutMade brk s).stk.track = [] ↔ s.stk.track = [] := by
    rw [quenchoutMade_stk]
    exact List.map_eq_nil_iff
  have hjudged : s.enterQuenchout brk = (quenchoutMade brk s).judgePostQuench := rfl
  rw [hjudged, judgePostQuench_quenchout hst]
  simp only [hempty]

theorem enterQuenchout_holdKept (s : State) (brk : HeldFrom) : HoldKept s (s.enterQuenchout brk) := by
  rw [enterQuenchout_eq]
  split
  · exact (quenchoutMade_holdKept brk s).trans (startPostQuench_holdKept _ _)
  · exact quenchoutMade_holdKept brk s

/-- What QUENCHOUT shows of its entry (R102, R122, R123). -/
theorem enterQuenchout_shown (s : State) (brk : HeldFrom) :
    let t := s.enterQuenchout brk
    t.sq.st = (if s.stk.track = [] then .quenchout .postQuench else .quenchout .travel) ∧
    t.sq.heldFrom = some brk ∧ t.sq.dwellZone = none ∧ t.sq.dwellTimer = none ∧ t.sq.indexWatch = none ∧
    t.stk = brokenStk (trackRecipe s.zt.activeBank) s.cu.cellTime s.stk := by
  intro t
  have hmade := quenchoutMade_sq brk s
  simp only [t, enterQuenchout_eq]
  split
  · rw [startPostQuench_stk (.quenchout .postQuench) _ nofun, startPostQuench_sq, hmade]
    exact ⟨rfl, rfl, rfl, rfl, rfl, quenchoutMade_stk brk s⟩
  · rw [hmade]
    exact ⟨rfl, rfl, rfl, rfl, rfl, quenchoutMade_stk brk s⟩

/-- In QUENCHOUT power is off and heat-enable is clear (R59, R90). -/
theorem enterQuenchout_cold (s : State) (brk : HeldFrom) :
    let t := s.enterQuenchout brk
    t.lu.heatEnable = false ∧ t.pe.power = 0 ∧ t.pe.enable = false := by
  intro t
  obtain ⟨hst, -⟩ := enterQuenchout_shown s brk
  have hcold : t.sq.st.isHeat = false := by
    rw [show t.sq.st = _ from hst]
    split <;> rfl
  have hagrees : Agrees t := Agrees.enterQuenchout s brk
  exact ⟨hagrees.heat.trans hcold, hagrees.points.cold hcold⟩

/-- The hold-break notice on each record: an open one is closed with HOLD_BREAK, its index and energy kept (R102). -/
theorem brokenStk_record (c : TrackRecipe) (now : Nat) (k : Stk) (i : Nat) (r v : SliceRecord)
    (hr : k.track[i]? = some r) (hv : (brokenStk c now k).track[i]? = some v) :
    (r.closeTime ≠ none → v = r) ∧
    (r.closeTime = none → v.closeTime = some now ∧ v.flags = { r.flags with holdBreak := true } ∧ v.index = r.index ∧
      v.energy = r.energy) := by
  unfold brokenStk at hv
  rw [List.getElem?_map, hr] at hv
  obtain rfl := Option.some.inj hv
  refine ⟨fun hclosed => if_neg hclosed, fun hopen => ?_⟩
  dsimp only
  rw [if_pos hopen]
  unfold closedNow
  rw [hopen]
  exact ⟨rfl, rfl, rfl, rfl⟩

/-! ## The request in each state (R121) -/

/-- A hold request has no effect but in SEEK, APPROACH, HEATING and DWELL. -/
theorem holdRequest_elsewhere {s : State} (hseek : s.sq.st ≠ .seek) (happroach : ∀ ph, s.sq.st ≠ .approach ph)
    (hheat : s.sq.st.isHeat = false) : s.holdRequest = s := by
  unfold State.holdRequest
  cases hst : s.sq.st with
  | seek => exact absurd hst hseek
  | approach ph => exact absurd hst (happroach ph)
  | heating | dwell ph => rw [hst] at hheat; cases hheat
  | idle | armed | runout ph | done | quenchout ph | held | fault ph => rfl

/-- From SEEK and APPROACH the request enters HELD (R125). -/
theorem holdRequest_held {s : State} (hst : s.sq.st = .seek ∨ ∃ ph, s.sq.st = .approach ph) :
    s.holdRequest = s.enterHeld (if s.sq.st = .seek then .seek else .approach) := by
  unfold State.holdRequest
  rcases hst with hst | ⟨ph, hst⟩ <;> rw [hst] <;> rfl

/-- From HEATING and DWELL the request enters QUENCHOUT with the break frontier (R122). -/
theorem holdRequest_quenchout {s : State} (hst : s.sq.st.isHeat = true) :
    s.holdRequest =
      s.enterQuenchout (if s.sq.st = .heating then .heating s.cu.frontier else .dwell s.cu.frontier) := by
  unfold State.holdRequest
  cases hs : s.sq.st with
  | heating | dwell ph => rfl
  | seek | approach ph | idle | armed | runout ph | done | quenchout ph | held | fault ph => rw [hs] at hst; cases hst

theorem holdRequest_holdKept (s : State) : HoldKept s s.holdRequest := by
  by_cases hheat : s.sq.st.isHeat = true
  · rw [holdRequest_quenchout hheat]
    exact enterQuenchout_holdKept _ _
  · by_cases hheld : s.sq.st = .seek ∨ ∃ ph, s.sq.st = .approach ph
    · rw [holdRequest_held hheld]
      exact enterHeld_holdKept _ _
    · obtain ⟨hseek, happroach⟩ := not_or.1 hheld
      rw [holdRequest_elsewhere hseek (not_exists.1 happroach) (by simpa using hheat)]
      exact .refl s

/-! ## The word that carries the request (R183, R184) -/

/-- A hold field that passes from clear to set is one hold request (R121). -/
theorem takeHold_rise {port field : Port} {w : ControlWord} {s : State} (hmay : port.mayHold field = true)
    (hset : w.hold field = true) (hclear : s.lp.control.hold field = false) :
    s.takeHold port field w =
      (s.setLp { s.lp with control := s.lp.control.setHold true field }).holdRequest := by
  unfold State.takeHold State.writeHold
  rw [if_pos hmay, hset, hclear]
  rfl

/-- A word that keeps every hold field but one brings that field alone. -/
theorem takeHolds_one {port field : Port} {v : Bool} {w : ControlWord} (s : State)
    (htaken : (s.takeHold port field w).lp.control = s.lp.control.setHold v field)
    (hother : ∀ other, other ≠ field → port.mayHold other = true → w.hold other = s.lp.control.hold other) :
    (((s.takeHold port .s w).takeHold port .p w).takeHold port .m w).takeHold port .q w =
      s.takeHold port field w := by
  have hbefore : ∀ other, other ≠ field → s.takeHold port other w = s :=
    fun other hne => takeHold_same s port other w (hother other hne)
  have hafter : ∀ other, other ≠ field → (s.takeHold port field w).takeHold port other w = s.takeHold port field w :=
    fun other hne => takeHold_same _ port other w fun hm => by
      rw [htaken, Control.hold_setHold_ne _ _ hne]
      exact hother other hne hm
  cases field with
  | s => rw [hafter .p nofun, hafter .m nofun, hafter .q nofun]
  | p => rw [hbefore .s nofun, hafter .m nofun, hafter .q nofun]
  | m => rw [hbefore .s nofun, hbefore .p nofun, hafter .q nofun]
  | q => rw [hbefore .s nofun, hbefore .p nofun, hbefore .m nofun]

/-- A hold field carried set, where it is clear, by a word that keeps every other one: the request alone. -/
theorem takeShared_holdSet {port field : Port} {w : ControlWord} {s : State} (hmay : port.mayHold field = true)
    (hk : KeepsOtherFields port field w s.lp.control) (habort : w.abort = false)
    (hclear : s.lp.control.hold field = false) :
    s.takeShared port (w.setHold true field) =
      (s.setLp { s.lp with control := s.lp.control.setHold true field }).holdRequest := by
  let set : State := s.setLp { s.lp with control := s.lp.control.setHold true field }
  have htaken : s.takeHold port field (w.setHold true field) = set.holdRequest :=
    takeHold_rise hmay (ControlWord.hold_setHold w true field) hclear
  have hcontrol : set.holdRequest.lp.control = s.lp.control.setHold true field := by
    obtain ⟨-, -, -, ⟨hcontrol, -⟩, -⟩ := (holdRequest_holdKept set).kept
    exact hcontrol
  have hholds := takeHolds_one s (w := w.setHold true field) (by rw [htaken, hcontrol]) fun other hne hm =>
    (ControlWord.hold_setHold_ne w true hne).trans (hk.hold hne hm)
  unfold State.takeShared
  rw [hholds, htaken, takeAbort_clear _ port (by rwa [ControlWord.abort_setHold]),
    takeKeepOn_same _ port _ fun hm => ?_]
  rw [ControlWord.keepOn_setHold, hcontrol, Control.keepOn_setHold, hk.keepOn hm]

/-- Settles O18: the word brings the one request, which meets the state that the arrival left. -/
theorem holdRequestByState : Obligations.HoldRequestByState := by
  intro port field tag w s hmay htaken hk hnoEvent hclear r set
  obtain ⟨habort, hevents⟩ := hnoEvent
  have hcontrol : r.lp.control = s.lp.control := State.arrive_lp_control s port
  have hsq : set.sq = s.sq := State.arrive_sq s port
  have hstk : set.stk = s.stk := State.arrive_stk s port
  have hcu : set.cu = s.cu := State.arrive_cu s port
  obtain ⟨kcu, kzt, krs, ⟨kcontrol, kpower, kdrive, kquench, -⟩, kacks, kpending, -⟩ := (holdRequest_holdKept set).kept
  refine ⟨set.holdRequest, congrArg Host.Outcome.next ?_, holdRequest_met set, ?_, fun hst => ?_, fun hst => ?_,
    fun hst => ?_, kcu.trans hcu, ?_, ?_, ?_, ?_, ?_, ?_, ?_⟩
  · have hshared : r.takeShared port (w.setHold true field) = set.holdRequest :=
      takeShared_holdSet hmay (by rwa [hcontrol]) habort (by rwa [hcontrol])
    rw [← hshared]
    exact takeControl_shared port tag _ s htaken fun hport => by
      rw [ControlWord.faultClear_setHold, ControlWord.run_setHold]; exact hevents hport
  · exact kcontrol.trans (congrArg (·.setHold true field) hcontrol)
  · exact (holdRequest_met set).1 (by rwa [hsq])
  · rw [holdRequest_held (by rwa [hsq]), hsq, ← hstk]
    exact enterHeld_shown set _
  · have hquenchout := holdRequest_quenchout (s := set) (by rwa [hsq])
    rw [hsq, hcu] at hquenchout
    rw [hquenchout]
    obtain ⟨hst', hheld, hdwell, htimer, hindex, hbroken⟩ := enterQuenchout_shown set
      (if s.sq.st = .heating then .heating s.cu.frontier else .dwell s.cu.frontier)
    obtain ⟨hheat, hpower, henable⟩ := enterQuenchout_cold set
      (if s.sq.st = .heating then .heating s.cu.frontier else .dwell s.cu.frontier)
    rw [hstk] at hst'
    rw [hstk, hcu] at hbroken
    refine ⟨hst', hheld, hdwell, htimer, hindex, hheat, hpower, henable, ?_⟩
    rw [hbroken]
    exact ⟨rfl, rfl, List.length_map _, rfl, fun i r v hr hv => brokenStk_record _ _ _ i r v hr hv⟩
  · exact kzt.trans (State.arrive_zt s port)
  · exact krs.trans (State.arrive_rs s port)
  · exact kpower.trans (State.arrive_lp_power s port)
  · exact kdrive.trans (State.arrive_lp_drive s port)
  · exact kquench.trans (State.arrive_lp_quench s port)
  · exact kacks.trans (State.arrive_lp_acks s port)
  · exact kpending.trans (State.arrive_pending s port)

end Sys2Proof.Machine
end

section
/-! PROOF. ABORT (O20) and FAULT_CLEAR (O21), each carried by a word that brings nothing else. -/

namespace Sys2Proof.Machine

/-! ## ABORT (R137) -/

/-- A fault report leaves the control word (R183). -/
theorem reportFault_control (code : FaultCode) (source : FaultSource) (s : State) :
    (s.reportFault code source).lp.control = s.lp.control := by
  unfold State.reportFault
  split
  · exact State.enterFault_lp_control s code source
  · rfl
  · rfl

/-- Abort carried by a word that keeps every field is the one report (R137). -/
theorem takeShared_abort {port : Port} {w : ControlWord} {s : State} (hk : KeepsFields port w s.lp.control) :
    s.takeShared port { w with abort := true } = s.reportFault .aborted (.port port) := by
  have hfields : KeepsFields port { w with abort := true } s.lp.control := hk
  unfold State.takeShared
  rw [takeHolds_same s port _ hfields.hold]
  refine takeKeepOn_same (s.reportFault .aborted (.port port)) port _ fun hm => ?_
  rw [reportFault_control]
  exact hfields.keepOn hm

/-- Settles O20. -/
theorem abortBringsTheFault : Obligations.AbortBringsTheFault := by
  intro port tag w s htaken hk hevents
  have hshared : (s.arrive port).takeShared port { w with abort := true } =
      (s.arrive port).reportFault .aborted (.port port) :=
    takeShared_abort (by rwa [State.arrive_lp_control])
  refine ⟨_, congrArg Host.Outcome.next ?_, reportFault_faultOrSecondary .aborted (.port port) (s.arrive port) rfl⟩
  rw [← hshared]
  exact takeControl_shared port tag { w with abort := true } s htaken hevents

/-! ## FAULT_CLEAR (R143) -/

/-- Fault clear carried by a word that keeps every field is judged in the state after the arrival. -/
theorem exec_faultClear {tag : Byte} {w : ControlWord} {s : State} (htaken : Taken s)
    (hk : KeepsFields .s w s.lp.control) (habort : w.abort = false) (hrun : w.run = false) :
    exec (.faultClear tag w) s =
      .next (controlDone .s tag (s.arrive .s).judgeClear.2 .none (s.arrive .s).judgeClear.1) := by
  have hshared : (s.arrive .s).takeShared .s { w with faultClear := true } = s.arrive .s :=
    takeShared_kept (by rw [State.arrive_lp_control]; exact hk) habort
  have hjudged : (s.arrive .s).superviseWord tag { w with faultClear := true } =
      (s.arrive .s).judgeClear.1.answerControl tag (s.arrive .s).judgeClear.2 .none := by
    unfold State.superviseWord State.takeClearField State.takeRunField
    rw [hshared, hrun]
    rfl
  rw [exec_of_carriedWord rfl, takeControl_supervised tag _ htaken, hjudged]
  unfold State.answerControl
  rw [controlAnswer_eq]
  rfl

/-- R143's table reads nothing that the arrival of the request changes. -/
theorem clearTable_arrive (s : State) : clearTable (s.arrive .s) = clearTable s := by
  have hp : (s.arrive .s).lp.portP = s.lp.portP := arrive_s_port s (port := .p) nofun
  have hm : (s.arrive .s).lp.portM = s.lp.portM := arrive_s_port s (port := .m) nofun
  have hq : (s.arrive .s).lp.portQ = s.lp.portQ := arrive_s_port s (port := .q) nofun
  unfold clearTable
  rw [hp, hm, hq]
  simp

/-- Settles O21: the field is judged on the state after the arrival, which shows every condition of R143 as before. -/
theorem faultClearJudged : Obligations.FaultClearJudged := by
  intro tag w s htaken hk habort hrun
  have hexec := exec_faultClear (tag := tag) htaken hk habort hrun
  have hjudged := judgeClear_judged (s.arrive .s)
  simp only [ClearJudged, State.arrive_sq, clearTable_arrive] at hjudged
  obtain ⟨helsewhere, hflood, hblocked, haccepted⟩ := hjudged
  have houtcome : ∀ outcome : FieldResult, (s.arrive .s).judgeClear.1 = s.arrive .s ∧
      (s.arrive .s).judgeClear.2 = outcome →
      exec (.faultClear tag w) s = .next (controlDone .s tag outcome .none (s.arrive .s)) := by
    rintro outcome ⟨hsame, hresult⟩
    rw [hexec, hsame, hresult]
  refine ⟨fun hst => houtcome _ (helsewhere hst), fun hst => houtcome _ (hflood hst),
    fun r hst hr => houtcome _ (hblocked r hst hr), fun hst hr => ?_⟩
  obtain ⟨hcleared, hresult⟩ := haccepted hst hr
  rw [hresult] at hexec
  refine ⟨_, hexec, hcleared, ?_⟩
  obtain ⟨hcu, hzt, hrs, hstk, -, ⟨hcontrol, -, -, -, hlow, hout, -⟩, hacks, hpe, hsq, -, hpending, -⟩ := hcleared
  rw [hsq, hpe, hcu, hzt, hrs, hstk, hcontrol, hacks, hpending, hlow, hout]
  simp [changedSq, offPoints]

end Sys2Proof.Machine
end

section
/-! PROOF. A resume (O24): the held-from record through the entries of a scan, and the entry itself. -/

namespace Sys2Proof.Machine

/-! ## The held-from record through the entries and arrivals of a scan (R127, R128, R139) -/

/-- An empty held-from record stays empty. -/
def StaysUnheld (s t : State) : Prop := s.sq.heldFrom = none → t.sq.heldFrom = none

namespace StaysUnheld

theorem of_eq {s t : State} (h : t.sq.heldFrom = s.sq.heldFrom) : StaysUnheld s t := fun hs => h.trans hs

theorem of_same {s t : State} (h : t = s) : StaysUnheld s t := of_eq (by rw [h])

theorem trans {s t u : State} (h : StaysUnheld s t) (k : StaysUnheld t u) : StaysUnheld s u := fun hs => k (h hs)

end StaysUnheld

theorem Changed.staysUnheld {h : RecipeHeader} {st : SeqState} {s t : State} (hc : Changed h st s t) :
    StaysUnheld s t := by
  obtain ⟨-, -, hheld, -⟩ := hc.scanRecord
  exact .of_eq hheld

/-- FAULT empties the record (R139). -/
theorem EnteredFault.staysUnheld {code : FaultCode} {source : FaultSource} {s t : State}
    (hf : EnteredFault code source s t) : StaysUnheld s t := fun _ => congrArg Sq.heldFrom hf.1

theorem TravelJudged.staysUnheld {s t : State} (hj : TravelJudged s t) : StaysUnheld s t := by
  obtain ⟨hbeyond, hwithin⟩ := hj
  by_cases hm : s.sq.st.isMotion = true ∧ ¬ WithinLimits s.cu
  · exact (hbeyond hm.1 hm.2).staysUnheld
  · exact .of_same (hwithin ((Classical.not_and_iff_not_or_not.1 hm).imp (by simp) Classical.not_not.1))

theorem PostQuenchBegun.staysUnheld {h : RecipeHeader} {st : SeqState} {s t : State} (hb : PostQuenchBegun h st s t) :
    StaysUnheld s t := by
  obtain ⟨-, -, -, -, -, hsq⟩ := hb
  exact .of_eq (by rw [hsq])

theorem DwellEntered.staysUnheld {h : RecipeHeader} {z : Nat} {s t : State} (hd : DwellEntered h z s t) :
    StaysUnheld s t := by
  obtain ⟨-, -, -, -, -, hsq⟩ := hd
  exact .of_eq (by rw [hsq]; rfl)

theorem RunoutEntered.staysUnheld {h : RecipeHeader} {s t : State} (he : RunoutEntered h s t) : StaysUnheld s t := by
  obtain ⟨c, hchanged, hdrained, hrunning⟩ := he
  have hc : StaysUnheld s (c.setStk (endedStk (trackRecipe s.zt.activeBank) s.cu.cellTime s.stk)) :=
    hchanged.staysUnheld
  by_cases hd : ((zonesEnd s.zones + h.offsetD : Nat) : Int) ≤ s.cu.frontier ∧ s.stk.track = []
  · exact hc.trans (hdrained hd).staysUnheld
  · exact hc.trans (.of_same (hrunning hd))

theorem ArrivalsJudged.staysUnheld {h : RecipeHeader} {s t : State} (hj : ArrivalsJudged h s t) : StaysUnheld s t := by
  obtain ⟨hdwell, hpast⟩ := hj
  by_cases hz : ∃ z, s.sq.nextDwell = some z ∧
      ((((s.zones[z]?.map (·.startX)).getD 0 : Nat) : Int)) ≤ s.cu.frontier
  · obtain ⟨z, hz, hreached⟩ := hz
    exact (hdwell z hz hreached).staysUnheld
  · obtain ⟨hend, hshort⟩ := hpast fun z hn hreached => hz ⟨z, hn, hreached⟩
    rcases Int.lt_or_le s.cu.frontier ((zonesEnd s.zones : Nat) : Int) with hx | hx
    · exact .of_same (hshort hx)
    · exact (hend hx).staysUnheld

theorem HeatingMade.staysUnheld {h : RecipeHeader} {s t : State} (hm : HeatingMade h s t) : StaysUnheld s t := by
  obtain ⟨-, -, -, -, -, hsq⟩ := hm
  exact .of_eq (by rw [hsq]; rfl)

theorem HeatingBegun.staysUnheld {h : RecipeHeader} {s t : State} (hb : HeatingBegun h s t) : StaysUnheld s t := by
  obtain ⟨e, hmade, hreversed, hjudged⟩ := hb
  rcases Int.lt_or_le (h.reversalTol : Int) (s.cu.frontier - s.cu.x) with hx | hx
  · exact hmade.staysUnheld.trans (hreversed hx).staysUnheld
  · exact hmade.staysUnheld.trans (hjudged hx).staysUnheld

theorem Rejudged.staysUnheld {h : RecipeHeader} {s t : State} (hj : Rejudged h s t) : StaysUnheld s t := by
  obtain ⟨hstays, hheats⟩ := hj
  by_cases hall : AllHold (judgedStart s.sq.startRecord.waitExpired s)
  · exact (hheats hall).staysUnheld
  · exact .of_eq (by rw [hstays hall]; rfl)

theorem WaitBegun.staysUnheld {h : RecipeHeader} {s t : State} (hw : WaitBegun h s t) : StaysUnheld s t := by
  obtain ⟨w, -, -, -, -, -, hsq, hsame, hchanged⟩ := hw
  have hwait : StaysUnheld s w := .of_eq (by rw [hsq])
  by_cases hspindle : w.pe.spindle = s.pe.spindle
  · exact hwait.trans (.of_same (hsame hspindle))
  · exact hwait.trans (hchanged hspindle).staysUnheld

theorem ArrivedAtRunIn.staysUnheld {h : RecipeHeader} {s t : State} (ha : ArrivedAtRunIn h s t) : StaysUnheld s t := by
  obtain ⟨hlate, hearly⟩ := ha
  rcases Int.lt_or_le s.cu.frontier 0 with hf | hf
  · obtain ⟨hheats, hwaits⟩ := hearly hf
    by_cases hall : AllHold (judgedStart false s)
    · exact (hheats hall).staysUnheld
    · exact (hwaits hall).staysUnheld
  · exact (hlate hf).staysUnheld

/-! ## The entry of an accepted resume (R126 to R128) -/

/-- The state with its held-from record emptied, as a resume enters from it (R127, R128). -/
def unheld (s : State) : State := s.setSq { s.sq with heldFrom := none }

/-- What an accepted resume keeps, and that its held-from record stays empty. -/
theorem Resumed.kept {h : RecipeHeader} {brk : HeldFrom} {s t : State} (hr : Resumed h brk s t) :
    ScanKept s t ∧ t.sq.heldFrom = none := by
  have hemptied : ScanKept s (unheld s) := .setSq s rfl
  obtain ⟨hseek, happroach, hheat⟩ := hr
  by_cases hbrk : brk.brk = none
  · cases brk with
    | seek =>
      obtain ⟨v, hchanged, htravel⟩ := hseek rfl
      exact ⟨hemptied.trans (hchanged.scanKept.trans htravel.scanKept),
        hchanged.staysUnheld.trans htravel.staysUnheld rfl⟩
    | approach =>
      obtain ⟨v, e, hchanged, htravel, harrived, hshort⟩ := happroach rfl
      have hentered : ScanKept s e := hemptied.trans (hchanged.scanKept.trans htravel.scanKept)
      have hunheld : e.sq.heldFrom = none := hchanged.staysUnheld.trans htravel.staysUnheld rfl
      by_cases hreached : e.sq.st = .approach .travel ∧ -(h.runIn : Int) ≤ s.cu.frontier
      · have ha := harrived hreached.1 hreached.2
        exact ⟨hentered.trans ha.scanKept, ha.staysUnheld hunheld⟩
      · rw [hshort ((Classical.not_and_iff_not_or_not.1 hreached).imp id Int.not_le.1)]
        exact ⟨hentered, hunheld⟩
    | heating f | dwell f => cases hbrk
  · obtain ⟨v, hbegun, htravel⟩ := hheat hbrk
    exact ⟨hemptied.trans (hbegun.scanKept.trans htravel.scanKept),
      hbegun.staysUnheld.trans htravel.staysUnheld rfl⟩

/-- Within the limits SEEK is entered again, and stays (R127). -/
theorem Resumed.seeks {h : RecipeHeader} {s t : State} (hr : Resumed h .seek s t) (hw : WithinLimits s.cu) :
    Changed h .seek (unheld s) t := by
  obtain ⟨v, hchanged, htravel⟩ := hr.1 rfl
  have hv : WithinLimits v.cu := by rw [hchanged.scanKept.cu]; exact hw
  rw [htravel.eq_of_within hv]
  exact hchanged

/-- Within the limits and short of the run-in point APPROACH is entered again, and stays (R127). -/
theorem Resumed.approaches {h : RecipeHeader} {s t : State} (hr : Resumed h .approach s t) (hw : WithinLimits s.cu)
    (hshort : s.cu.frontier < -(h.runIn : Int)) : Changed h (.approach .travel) (unheld s) t := by
  obtain ⟨-, happroach, -⟩ := hr
  obtain ⟨v, e, hchanged, htravel, -, hstays⟩ := happroach rfl
  have hv : WithinLimits v.cu := by rw [hchanged.scanKept.cu]; exact hw
  rw [hstays (.inr hshort), htravel.eq_of_within hv]
  exact hchanged

/-- Within the limits HEATING is entered again, and stays where no check of the entry bites (R128, R131). -/
theorem Resumed.heats {h : RecipeHeader} {brk : HeldFrom} {s t : State} (hr : Resumed h brk s t)
    (hbrk : brk.brk ≠ none) (hw : WithinLimits s.cu) (hreverse : s.cu.frontier - s.cu.x ≤ h.reversalTol)
    (hend : s.cu.frontier < zonesEnd s.zones)
    (hdwell : ∀ z, s.sq.nextDwell = some z → s.cu.frontier < s.zoneStart z) : HeatingMade h (unheld s) t := by
  obtain ⟨-, -, hheat⟩ := hr
  obtain ⟨v, hbegun, htravel⟩ := hheat hbrk
  have hv : WithinLimits v.cu := by rw [hbegun.scanKept.cu]; exact hw
  rw [htravel.eq_of_within hv]
  exact hbegun.stays hreverse hend hdwell

/-- The watches of an entry to HEATING, and the dwell pointer, which it leaves (R84, R133). -/
theorem HeatingMade.watches {h : RecipeHeader} {s t : State} (hm : HeatingMade h s t) :
    t.sq.nextDwell = s.sq.nextDwell ∧ t.sq.overPitch = 0 ∧ t.sq.firstRevolution = true := by
  obtain ⟨-, -, -, -, -, hsq⟩ := hm
  rw [hsq]
  exact ⟨rfl, rfl, rfl⟩

/-- Short of every check of its entry the dwell pointer stays, whichever state is entered again. -/
theorem Resumed.nextDwell {h : RecipeHeader} {brk : HeldFrom} {s t : State} (hr : Resumed h brk s t)
    (hw : WithinLimits s.cu) (hshort : brk = .approach → s.cu.frontier < -(h.runIn : Int))
    (hchecks : brk.brk ≠ none → s.cu.frontier - s.cu.x ≤ h.reversalTol ∧ s.cu.frontier < zonesEnd s.zones ∧
      ∀ z, s.sq.nextDwell = some z → s.cu.frontier < s.zoneStart z) : t.sq.nextDwell = s.sq.nextDwell := by
  by_cases hbrk : brk.brk = none
  · cases brk with
    | seek =>
      obtain ⟨-, -, -, -, -, hnext, -⟩ := (hr.seeks hw).scanRecord
      exact hnext
    | approach =>
      obtain ⟨-, -, -, -, -, hnext, -⟩ := (hr.approaches hw (hshort rfl)).scanRecord
      exact hnext
    | heating f | dwell f => cases hbrk
  · obtain ⟨hreverse, hend, hdwell⟩ := hchecks hbrk
    exact (hr.heats hbrk hw hreverse hend hdwell).watches.1

/-- RUN in HELD with nothing against it is accepted (R126). -/
theorem takeRun_resumes {h : RecipeHeader} {brk : HeldFrom} {s : State} (hst : s.sq.st = .held)
    (hheld : s.sq.heldFrom = some brk) (hr : s.zt.activeBank.header = some h) (hfree : s.lp.control.anyHold = false)
    (hfirst : firstOf (startTable h s) = none)
    (hready : brk.brk ≠ none → SpindleReady s.lu s.pe.spindle ∧ s.lp.power.map (·.state) = some .ready) :
    Resumed h brk s s.takeRun.1 ∧ s.takeRun.2 = .ok := by
  obtain ⟨-, -, -, -, hjudged⟩ := takeRun_judged s
  obtain ⟨-, -, hresume⟩ := hjudged h hr
  obtain ⟨-, -, haccepted⟩ := hresume brk hst hfree hfirst hheld
  exact haccepted ((Classical.em (brk.brk = none)).imp id hready)

/-- Settles O24: RUN is judged on the state after its arrival, and accepted; the state held from is entered again. -/
theorem resumeEntersTheStateHeldFrom : Obligations.ResumeEntersTheStateHeldFrom := by
  intro tag w h brk s htaken hk habort hclear hst hheld hr hfree hfirst hready
  let r : State := s.arrive .s
  have hsq : r.sq = s.sq := State.arrive_sq s .s
  have hcu : r.cu = s.cu := State.arrive_cu s .s
  have hpe : r.pe = s.pe := State.arrive_pe s .s
  have hzones : r.zones = s.zones := congrArg (·.activeBank.zoneList) (State.arrive_zt s .s)
  obtain ⟨hresumed, haccepted⟩ : Resumed h brk r r.takeRun.1 ∧ r.takeRun.2 = .ok :=
    takeRun_resumes (by rwa [hsq]) (by rwa [hsq]) (by rwa [State.arrive_zt]) (by rwa [State.arrive_lp_control])
      (by rwa [startTable_arrive]) fun hbrk => by
        rw [State.arrive_lu, State.arrive_pe, State.arrive_lp_power]; exact hready hbrk
  obtain ⟨⟨kcu, kzt, krs, -, kacks, kpending, kscan⟩, hunheld⟩ := hresumed.kept
  refine ⟨r.takeRun.1, ?_, hresumed, hunheld, kscan.trans (congrArg Sq.scanNumber hsq), kcu.trans hcu,
    kzt.trans (State.arrive_zt s .s), krs.trans (State.arrive_rs s .s), kacks.trans (State.arrive_lp_acks s .s),
    kpending.trans (State.arrive_pending s .s), fun hw hshort hchecks => ?_⟩
  · rw [exec_run htaken hk habort hclear, haccepted]
  have hwr : WithinLimits r.cu := by rwa [hcu]
  have hstart : ∀ z, r.zoneStart z = s.zoneStart z := fun z => by unfold State.zoneStart; rw [hzones]
  have hchecksr : brk.brk ≠ none → r.cu.frontier - r.cu.x ≤ h.reversalTol ∧ r.cu.frontier < zonesEnd r.zones ∧
      ∀ z, r.sq.nextDwell = some z → r.cu.frontier < r.zoneStart z := by
    simp only [hcu, hsq, hzones, hstart]
    exact hchecks
  refine ⟨?_, fun hbrk => ?_, fun hbrk => ?_, fun hbrk => ?_⟩
  · exact (hresumed.nextDwell hwr (by rwa [hcu]) hchecksr).trans (congrArg Sq.nextDwell hsq)
  · subst hbrk
    have hchanged := hresumed.seeks hwr
    obtain ⟨hentered, -, -, -, -, -, -, hstk⟩ := hchanged.scanRecord
    obtain ⟨-, -, -, -, -, hspeed, -⟩ := hchanged.points nofun
    rw [hentered] at hspeed
    exact ⟨hentered, hspeed, hstk.trans (State.arrive_stk s .s)⟩
  · subst hbrk
    have hchanged := hresumed.approaches hwr (by rw [hcu]; exact hshort rfl)
    obtain ⟨hentered, -, -, -, -, -, -, hstk⟩ := hchanged.scanRecord
    obtain ⟨-, -, -, -, -, hspeed, -⟩ := hchanged.points nofun
    rw [hentered] at hspeed
    exact ⟨hentered, hspeed, hstk.trans (State.arrive_stk s .s)⟩
  · obtain ⟨hreverse, hend, hdwell⟩ := hchecksr hbrk
    have hmade := hresumed.heats hbrk hwr hreverse hend hdwell
    obtain ⟨hentered, -, -, hindex, hheat, henable, hheating⟩ := hmade.shown
    obtain ⟨-, hpitch, hfirstRevolution⟩ := hmade.watches
    refine ⟨hentered, hheat, henable, hheating, hpitch, hfirstRevolution, ?_⟩
    rw [hindex]
    show some (r.cu.cellTime + 240000000 / r.pe.spindle) = _
    rw [hcu, hpe]

end Sys2Proof.Machine
end

section
/-! PROOF. The reports of the drive and of the quench (O44, O45), and the supply monitor (O49). -/

namespace Sys2Proof.Machine

/-! ## DRIVE_STATUS (R136, R158) -/

theorem driveState_ofCode (st : DriveState) : DriveState.ofCode st.code = some st := by cases st <;> rfl

/-- Only the code of a state is read back as one (R190). -/
theorem driveState_code {n : Nat} {st : DriveState} (h : DriveState.ofCode n = some st) : n = st.code := by
  unfold DriveState.ofCode at h
  (repeat' split at h) <;> cases h <;> assumption

/-- A status with a defined state (R158). -/
theorem exec_driveStatus (st : DriveState) (s : State) :
    exec (.driveStatus (.fields st.code)) s = .next ((s.arrive .m).takeDrive st) := by
  show Host.Outcome.next (s.driveStatus (.fields st.code)) = _
  unfold State.driveStatus
  simp only [driveState_ofCode]

/-- Settles O44: the arrival leaves the state kept before, against which the change into FAULTED is judged. -/
theorem driveStatusIsKept : Obligations.DriveStatusIsKept := by
  intro n st s a kept
  have hdrive : a.lp.drive = s.lp.drive := s.arrive_lp_drive .m
  refine ⟨rfl, fun hnone => ?_, fun hcode hsame => ?_, fun hcode hfaulted hchange => ?_⟩
  · have hread : DriveState.ofCode n = none :=
      Option.eq_none_iff_forall_ne_some.2 fun v hv => hnone v (driveState_code hv)
    show Host.Outcome.next (s.driveStatus (.fields n)) = _
    unfold State.driveStatus
    simp only [hread]
    rfl
  · subst hcode
    rw [exec_driveStatus]
    refine congrArg Host.Outcome.next (if_neg ?_)
    rintro ⟨hfaulted, hchange⟩
    exact hchange (hdrive.trans (hsame hfaulted))
  · subst hcode
    refine ⟨kept.reportFault .drive (.port .m), ?_, reportFault_faultOrSecondary .drive (.port .m) kept rfl⟩
    rw [exec_driveStatus]
    exact congrArg Host.Outcome.next (if_pos ⟨hfaulted, fun hd => hchange (hdrive.symm.trans hd)⟩)

/-! ## QUENCH_REPORT (R134, R159, R160) -/

/-- Without an active header the report is kept, and nothing is judged from it (R160). -/
theorem judgeQuench_without_header {s : State} (hr : s.recipe = none) (b : QuenchReport) :
    s.judgeIndications.watchPressure b = s := by
  have hsame : s.judgeIndications = s := by
    unfold State.judgeIndications State.rejudgeQuench
    rw [hr]
    exact ite_self s
  rw [hsame]
  unfold State.watchPressure
  rw [hr]

/-- Quenchant out, as the statements write it (R160). -/
theorem quenchantOutside_eq (h : RecipeHeader) (b : QuenchReport) :
    quenchantOutside h b = decide (b.temperature < h.windowLow ∨ h.windowHigh < b.temperature) :=
  (Bool.decide_or _ _).symm

/-- The indications judged from a report just kept; in IDLE they stay (R160). -/
theorem judgeIndications_eq {h : RecipeHeader} {s : State} (hr : s.recipe = some h) {b : QuenchReport}
    (hkept : s.lp.quench = some b) : s.judgeIndications = s.setLp { s.lp with
      pressureLow := if s.sq.st == .idle then s.lp.pressureLow else pressureBelow h b
      quenchantOut := if s.sq.st == .idle then s.lp.quenchantOut else quenchantOutside h b } := by
  unfold State.judgeIndications
  by_cases hidle : s.sq.st = .idle
  · rw [if_pos hidle, hidle]
    rfl
  · have hrun : (s.sq.st == .idle) = false := beq_eq_false_iff_ne.2 hidle
    unfold State.rejudgeQuench Lp.judgeQuench
    rw [if_neg hidle, hr, hrun]
    dsimp only
    rw [hkept]
    rfl

/-- The pressure watch at a report (R134). -/
theorem watchPressure_eq {h : RecipeHeader} {s : State} (hr : s.recipe = some h) (b : QuenchReport) :
    s.watchPressure b = s.setSq { s.sq with
      pressureWatch :=
        if pressureBelow h b then
          if s.pe.quenchOn && s.sq.pressureWatch.isNone then some (s.cu.cellTime + 50000) else s.sq.pressureWatch
        else none } := by
  unfold State.watchPressure
  rw [hr]
  dsimp only
  split
  · split <;> rfl
  · rfl

/-- Settles O45: the report is kept, then the indications and the watch are judged from it. -/
theorem quenchReportIsJudged : Obligations.QuenchReportIsJudged := by
  intro r h s a b low out idle
  let kept := a.setLp { a.lp with quench := some b }
  have hexec : exec (.quenchReport (.fields r)) s = .next (kept.judgeIndications.watchPressure b) := rfl
  have hrecipe : kept.recipe = s.zt.activeBank.header := congrArg (·.activeBank.header) (s.arrive_zt .q)
  refine ⟨rfl, fun hnone => ?_, fun hr => ?_⟩
  · rw [hexec, judgeQuench_without_header (hrecipe.trans hnone)]
  · have hjudged := judgeIndications_eq (s := kept) (hrecipe.trans hr) rfl
    have hrecipe' : kept.judgeIndications.recipe = some h := by rw [hjudged]; exact hrecipe.trans hr
    rw [hexec, watchPressure_eq hrecipe', hjudged, quenchantOutside_eq]
    simp only [kept, a, State.setLp_lp, State.setLp_sq, State.setLp_pe, State.setLp_cu, State.arrive_sq,
      State.arrive_pe, State.arrive_cu, State.arrive_lp_pressureLow, State.arrive_lp_quenchantOut]
    rfl

/-! ## The supply monitor (R138) -/

/-- The indication after a rail level (R138). -/
theorem supplyAfter_eq (mv : Nat) (before : Bool) : State.supplyAfter mv before =
    if mv < 4500 then true else if 4600 ≤ mv then false else before := by
  unfold State.supplyAfter State.supplyFound Config.supplyLowBelow Config.supplyGoodFrom
  (repeat' split) <;> rfl

/-- A level at which the indication is not newly set (R138). -/
theorem takeRail_kept {mv : Nat} {low : Bool} {s : State} (hlow : State.supplyAfter mv s.sq.supplyLow = low)
    (hset : low = true → s.sq.supplyLow = true) :
    s.takeRail mv = s.setSq { s.sq with railMv := mv, supplyLow := low } := by
  unfold State.takeRail State.setRail
  rw [hlow, if_neg]
  simpa using hset

/-- Settles O49: a level's indication first, then whether it is newly set. -/
theorem supplyMonitor : Obligations.SupplyMonitor := by
  intro mv s railed
  refine ⟨fun hmv hlow => ?_, fun hmv hgood => ?_, fun hmv => ?_, fun hbelow habove => ?_⟩
  · exact congrArg Host.Outcome.next
      (takeRail_kept (by rw [supplyAfter_eq, if_pos hmv]) fun _ => hlow)
  · refine ⟨(railed true).reportFault .supply .sq, ?_, reportFault_faultOrSecondary .supply .sq (railed true) rfl⟩
    have hafter : State.supplyAfter mv s.sq.supplyLow = true := by rw [supplyAfter_eq, if_pos hmv]
    show Host.Outcome.next (s.takeRail mv) = _
    unfold State.takeRail State.setRail
    rw [hafter, hgood]
    rfl
  · exact congrArg Host.Outcome.next
      (takeRail_kept (by rw [supplyAfter_eq, if_neg (by omega), if_pos hmv]) nofun)
  · have hkept : s.takeRail mv = railed s.sq.supplyLow :=
      takeRail_kept (by rw [supplyAfter_eq, if_neg (by omega), if_neg (by omega)]) id
    exact ⟨congrArg Host.Outcome.next hkept, congrArg Host.Outcome.next hkept⟩

end Sys2Proof.Machine
end

section
/-! PROOF. The expiry of a port's liveness (O46). -/

namespace Sys2Proof.Machine

/-! ## The loss of an actuator's link (R136, R147, R148, R160) -/

/-- The report of a lost link is taken while a scan is in progress, in FAULT as a secondary fault, and else in no state
(R136). -/
theorem reportFault_linkLoss (code : FaultCode) (source : FaultSource) (g : State)
    (htaking : State.faultTaking code g.sq.st g.pe.quenchOn = State.takenOrSecondary g.sq.st g.sq.st.inScan) :
    (g.sq.st.isFault = true → g.reportFault code source = secondaryTaken code source g) ∧
    (g.sq.st.inScan = true → EnteredFault code source g (g.reportFault code source)) ∧
    (g.sq.st = .idle ∨ g.sq.st = .armed ∨ g.sq.st = .done → g.reportFault code source = g) := by
  refine ⟨fun hfault => ?_, fun hscan => ?_, fun hrest => ?_⟩
  · unfold State.reportFault
    rw [htaking, State.takenOrSecondary, if_pos hfault]
    rfl
  · have hnot : ¬ g.sq.st.isFault = true := fun hfault => by
      have hresting := inScan_resting (.inr (.inr (.inr hfault)))
      rw [hscan] at hresting
      cases hresting
    refine reportFault_enters code source g ?_
    rw [htaking, State.takenOrSecondary, if_neg hnot, State.takenIf, if_pos hscan]
  · refine reportFault_ignored code source g ?_
    rw [htaking]
    rcases hrest with hst | hst | hst <;> rw [hst] <;> rfl

theorem livenessDue_of {port : Port} {s : State} (honline : (s.lp.port port).link = .online)
    (hsilent : (s.lp.port port).lastArrival + livenessTime s.sq.st port ≤ s.cu.cellTime) :
    s.livenessDue port = true :=
  (livenessDue_iff port s).2 ⟨honline, livenessTime_eq s.sq.st port ▸ hsilent⟩

/-- When the loss of the Q-port sets pressure low: outside IDLE, with a report kept and a minimum above 0 (R160,
assumption 21). -/
theorem losesPressure_iff (s : State) :
    (s.sq.st ≠ .idle ∧ s.lp.quench.isSome ∧ 0 < s.hdr (·.pressureMin)) ↔
    (s.sq.st ≠ .idle ∧ s.lp.quench ≠ none ∧ ∃ h, s.zt.activeBank.header = some h ∧ 0 < h.pressureMin) := by
  have hmin : 0 < s.hdr (·.pressureMin) ↔ ∃ h, s.zt.activeBank.header = some h ∧ 0 < h.pressureMin := by
    unfold State.hdr State.recipe
    cases s.zt.activeBank.header <;> simp
  rw [hmin, Option.isSome_iff_ne_none]

/-! ## The loss of the supervisor's link (R121, R148, R188) -/

/-- The S-link loss policy (R148): with HOLD, and hold.S clear, it is one hold request. -/
theorem applyLossPolicy_eq (s : State) : s.applyLossPolicy =
    if s.rs.inForce.loss = .hold ∧ s.lp.control.holdS = false then
      (s.setLp { s.lp with control := { s.lp.control with holdS := true } }).holdRequest
    else s := by
  unfold State.applyLossPolicy
  by_cases hloss : s.rs.inForce.loss = .hold
  · rw [if_pos hloss]
    cases hheld : s.lp.control.holdS with
    | true =>
      rw [if_neg (by simp)]
      exact writeHold_same s .s true hheld.symm
    | false =>
      rw [if_pos ⟨hloss, rfl⟩]
      have hclear : s.lp.control.hold .s = false := hheld
      unfold State.writeHold
      rw [hclear]
      rfl
  · rw [if_neg hloss, if_neg fun h => hloss h.1]

/-- What a reset reads is not touched by the loss policy. -/
theorem applyLossPolicy_keeps (s : State) : s.applyLossPolicy.cu = s.cu ∧
    s.applyLossPolicy.sq.scanNumber = s.sq.scanNumber ∧ s.applyLossPolicy.sq.railMv = s.sq.railMv ∧
    s.applyLossPolicy.lu.lines = s.lu.lines ∧ s.applyLossPolicy.lp.pendingReset = s.lp.pendingReset := by
  rw [applyLossPolicy_eq]
  split
  · obtain ⟨⟨hcu, -, -, ⟨-, -, -, -, -, -, -, -, hpending⟩, -⟩, hscan, hrail, hlines⟩ :=
      holdRequest_holdKept (s.setLp { s.lp with control := { s.lp.control with holdS := true } })
    exact ⟨hcu, hscan, hrail, hlines, hpending⟩
  · exact ⟨rfl, rfl, rfl, rfl, rfl⟩

/-- The line unit's values of R176 are those of a reset. -/
theorem lu_resetValue_eq (pins : Vector PinDrive 8) : Lu.resetValue pins = luAfterReset pins := by
  have hline : Line.resetValue = fun d : PinDrive =>
      { pullUp := false, role := .input .rise 0 0 .general false, latch := false, drive := d, filtered := d == .high
        filterTimer := none } := by
    funext d
    unfold Line.resetValue
    rw [pinReads_without_pullUp]
  unfold Lu.resetValue luAfterReset
  rw [hline]
  rfl

/-- What the blocks hold after a warm reset (R25, R94, R188). -/
theorem warmReset_blocks (s : State) :
    let t := s.warmReset
    t.lp = linksAfterReset ∧ t.pe = peAfterReset s.cu.cellTime ∧ t.stk = stkAfterReset ∧
    t.cu = cuAfterReset s.cu.cellTime s.cu.phase ∧
    t.sq = sqAfterReset s.sq.scanNumber s.sq.railMv t.sq.supplyLow ∧
    t.lu = luAfterReset (s.lu.lines.map (·.drive)) := by
  intro t
  have hsq : t.sq = Sq.resetValue s.sq.scanNumber s.sq.railMv
      ((State.supplyFound s.sq.railMv).getD (Config.freeSupplyLow s.freeCount)) := State.startUpLoad_sq _
  refine ⟨State.startUpLoad_lp _, State.startUpLoad_pe _, State.startUpLoad_stk _, State.startUpLoad_cu _, ?_,
    (State.startUpLoad_lu _).trans (lu_resetValue_eq _)⟩
  rw [hsq]
  rfl

/-- The state that a hold request leaves, by the state it meets (R121, R122, R125). -/
theorem holdRequest_entered (s : State) :
    (s.sq.st = .seek ∨ (∃ ph, s.sq.st = .approach ph) → s.holdRequest.sq.st = .held) ∧
    (s.sq.st.isHeat = true → ∃ ph, s.holdRequest.sq.st = .quenchout ph) := by
  refine ⟨fun hst => ?_, fun hheat => ?_⟩
  · rw [holdRequest_held hst]
    exact (enterHeld_shown s _).1
  · rw [holdRequest_quenchout hheat]
    have hentered := (enterQuenchout_shown s
      (if s.sq.st = .heating then .heating s.cu.frontier else .dwell s.cu.frontier)).1
    by_cases htrack : s.stk.track = []
    · exact ⟨_, hentered.trans (if_pos htrack)⟩
    · exact ⟨_, hentered.trans (if_neg htrack)⟩

/-- Settles O46, port by port. -/
theorem livenessExpiryLosesTheLink : Obligations.LivenessExpiryLosesTheLink := by
  intro port s honline hsilent gone lost dry alone held
  have hdue := livenessDue_of honline hsilent
  have hlost : ∀ (code : FaultCode) (g : State), g.sq = s.sq →
      State.faultTaking code g.sq.st g.pe.quenchOn = State.takenOrSecondary g.sq.st g.sq.st.inScan →
      exec (.livenessExpiry port) s = .next (g.reportFault code (.port port)) → lost code g := by
    intro code g hsq htaking hexec
    have hreport := reportFault_linkLoss code (.port port) g htaking
    rw [hsq] at hreport
    exact ⟨_, hexec, hreport⟩
  have hsupervisor : port = .s →
      exec (.livenessExpiry .s) s = .next (alone.applyLossPolicy.resetIfPending) := by
    rintro rfl
    exact congrArg Host.Outcome.next (if_pos hdue)
  obtain ⟨hcu, hscan, hrail, hlines, hpending⟩ := applyLossPolicy_keeps alone
  have hkept : alone.lp.pendingReset = s.lp.pendingReset := Lp.setPort_pendingReset _ _ _
  have hcontrol : alone.lp.control = s.lp.control := Lp.setPort_control _ _ _
  have hnoReset : s.lp.pendingReset = false → alone.applyLossPolicy.resetIfPending = alone.applyLossPolicy := by
    intro hnone
    unfold State.resetIfPending
    rw [hpending, hkept, hnone]
    rfl
  refine ⟨fun hport => ?_, fun hport => ?_, fun hport hdry => ?_, fun hport hdry => ?_, fun hport hnone hkeeps => ?_,
    fun hport hnone hloss hclear => ?_, fun hport hreset => ?_⟩
  · subst hport
    exact hlost .linkP gone rfl rfl (congrArg Host.Outcome.next (if_pos hdue))
  · subst hport
    exact hlost .linkM gone rfl rfl (congrArg Host.Outcome.next (if_pos hdue))
  · subst hport
    have hlow : (s.loseLink .q).loseQuench = gone.setLp { gone.lp with pressureLow := true } :=
      if_pos ((losesPressure_iff (s.loseLink .q)).2 hdry)
    refine hlost .linkQ (gone.setLp { gone.lp with pressureLow := true }) rfl rfl ?_
    rw [← hlow]
    exact congrArg Host.Outcome.next (if_pos hdue)
  · subst hport
    have hlow : (s.loseLink .q).loseQuench = gone := if_neg (mt (losesPressure_iff (s.loseLink .q)).1 hdry)
    refine hlost .linkQ gone rfl rfl ?_
    rw [← hlow]
    exact congrArg Host.Outcome.next (if_pos hdue)
  · rw [hsupervisor hport, hnoReset hnone, applyLossPolicy_eq, if_neg]
    rintro ⟨hloss, hclear⟩
    rw [hcontrol] at hclear
    rcases hkeeps with hkeeps | hkeeps
    · exact nomatch hkeeps.symm.trans hloss
    · exact nomatch hkeeps.symm.trans hclear
  · have hrequest : alone.applyLossPolicy = held.holdRequest := by
      rw [applyLossPolicy_eq, if_pos ⟨hloss, by rwa [hcontrol]⟩, hcontrol]
    obtain ⟨-, -, -, ⟨hcontrol', -⟩, -⟩ := (holdRequest_holdKept held).kept
    obtain ⟨hheld, hquenchout⟩ := holdRequest_entered held
    refine ⟨held.holdRequest, ?_, holdRequest_met held, hcontrol', hheld, hquenchout,
      fun hseek happroach hcold => holdRequest_elsewhere hseek happroach hcold⟩
    rw [hsupervisor hport, hnoReset hnone, hrequest]
  · have htaken : alone.applyLossPolicy.resetIfPending = alone.applyLossPolicy.warmReset :=
      if_pos (by rw [hpending, hkept, hreset])
    have hblocks := warmReset_blocks alone.applyLossPolicy
    rw [hcu, hscan, hrail, hlines] at hblocks
    exact ⟨_, (hsupervisor hport).trans (congrArg Host.Outcome.next htaken), hblocks⟩

end Sys2Proof.Machine
end

section
/-! PROOF. The changes of the auxiliary lines: pins, filters, the lines' functions, mark pulses and the withdrawal of
the spindle speed (O52). -/

namespace Sys2Proof.Machine

/-! ## Pins (R163, R166) -/

theorem Line.pinChange_output {n : Line} {f : OutputFn} (hrole : n.role = .output f) (now : Nat) (d : PinDrive) :
    n.pinChange now d = { n with drive := d } := by
  unfold Line.pinChange
  dsimp only
  rw [hrole]

/-- On an IN line a change of the pin's level stops the filter or starts it again (R166). -/
theorem Line.pinChange_input {n : Line} {edge : EdgeSetting} {filter latency : Nat} {fn : InputFn} {capture : Bool}
    (hrole : n.role = .input edge filter latency fn capture) (now : Nat) (d : PinDrive) :
    n.pinChange now d =
      if pinReads n.pullUp d = pinReads n.pullUp n.drive then { n with drive := d }
      else if pinReads n.pullUp d = n.filtered then { n with drive := d, filterTimer := none }
      else { n with drive := d, filterTimer := some (now + filter) } := by
  unfold Line.pinChange
  dsimp only
  rw [hrole]
  rfl

/-! ## The filter's expiry (R166, R167) -/

/-- The expiry of a filter whose pin has come back to the filtered level (R166). -/
theorem filterExpiry_back {k : LineNo} {edge : EdgeSetting} {filter latency x : Nat} {fn : InputFn} {capture : Bool}
    {s : State} (hrole : (s.lu.lines[k]).role = .input edge filter latency fn capture)
    (htimer : (s.lu.lines[k]).filterTimer = some x) (hdue : x ≤ s.cu.cellTime)
    (hpin : (s.lu.lines[k]).pin = (s.lu.lines[k]).filtered) :
    s.filterExpiry k =
      s.setLu { s.lu with lines := s.lu.lines.set k { s.lu.lines[k] with filterTimer := none } } := by
  have haccepted : s.filterExpiry k = s.acceptLine k := by
    unfold State.filterExpiry
    dsimp only
    rw [hrole]
    dsimp only
    rw [if_pos (reached_of_some htimer hdue), if_pos hpin]
  rw [haccepted]
  unfold State.acceptLine Line.accept
  rw [hpin]
  rfl

/-- The expiry of a filter whose pin's level differs from the filtered one: the level is accepted, a taken edge is
stamped, and the line's function takes the change (R166, R167). -/
theorem filterExpiry_changes {k : LineNo} {edge : EdgeSetting} {filter latency x : Nat} {fn : InputFn} {capture : Bool}
    {s : State} (hrole : (s.lu.lines[k]).role = .input edge filter latency fn capture)
    (htimer : (s.lu.lines[k]).filterTimer = some x) (hdue : x ≤ s.cu.cellTime)
    (hpin : (s.lu.lines[k]).pin ≠ (s.lu.lines[k]).filtered) :
    let taken := edge.takes (edgeTo (s.lu.lines[k]).pin)
    s.filterExpiry k =
      ((s.setLu { s.lu with
        lines := s.lu.lines.set k { s.lu.lines[k] with filtered := (s.lu.lines[k]).pin, filterTimer := none } }).setCu
          (stampedCu (taken && capture)
            { source := .line k, edge := some (edgeTo (s.lu.lines[k]).pin), time := s.cu.cellTime
              coord := s.cu.compensated latency } s.cu)).handLevel fn taken (s.lu.lines[k]).pin
        (s.cu.compensated latency) := by
  intro taken
  rw [filterExpiry_accepts k edge filter latency x fn capture s hrole htimer hdue hpin, stampedCu_eq]
  unfold State.captureIf
  split <;> rfl

/-! ## The lines' functions (R132, R135, R167) -/

/-- An edge that the setting does not take reaches neither the datum, nor the end probe, nor the spindle (R167). -/
theorem handLevel_untaken {fn : InputFn} (hfn : fn = .datum ∨ fn = .endProbe ∨ fn = .spindleIndex) (level : Bool)
    (c : Int) (u : State) : u.handLevel fn false level c = u := by
  rcases hfn with rfl | rfl | rfl <;> rfl

/-- A level of INTERLOCK that brings no fault (R135). -/
theorem interlockLevel_ignored {level : Bool} {u : State}
    (h : level = true ∨ u.sq.st = .idle ∨ u.sq.st.isFault = true) : u.interlockLevel level = u := by
  cases level with
  | true => rfl
  | false =>
    refine reportFault_ignored .interlock .lu u ?_
    rcases h with h | hidle | hfault
    · cases h
    · simp [State.faultTaking, hidle, State.takenIf]
    · simp [State.faultTaking, hfault, State.takenIf]

/-- A fall of INTERLOCK is fault INTERLOCK outside IDLE and FAULT (R135). -/
theorem interlockLevel_faults {u : State} (hidle : u.sq.st ≠ .idle) (hfault : u.sq.st.isFault = false) :
    EnteredFault .interlock .lu u (u.interlockLevel false) :=
  reportFault_enters .interlock .lu u (by simp [State.faultTaking, hidle, hfault, State.takenIf])

theorem rejudge_of_not_wait {u : State} (hst : u.sq.st ≠ .approach .wait) : u.rejudge = u := if_neg hst

/-- A fall of COIL_WATER is fault COOLANT in HEATING and DWELL; FAULT has no start conditions to judge (R135). -/
theorem coilWaterLevel_faults {u : State} (hheat : u.sq.st.isHeat = true) :
    EnteredFault .coolant .lu u (u.coilWaterLevel false) := by
  have hfault : EnteredFault .coolant .lu u (u.reportFault .coolant .lu) :=
    reportFault_enters .coolant .lu u (by simp [State.faultTaking, hheat, State.takenIf])
  have hst : (u.reportFault .coolant .lu).sq.st ≠ .approach .wait := by rw [hfault.1]; nofun
  have hjudged : u.coilWaterLevel false = u.reportFault .coolant .lu := rejudge_of_not_wait hst
  rw [hjudged]
  exact hfault

/-- Where no fault is brought, a change of COIL_WATER has the start conditions judged again (R82, assumption 22). -/
theorem coilWaterLevel_rejudges {level : Bool} {u : State} (h : level = true ∨ u.sq.st.isHeat = false) :
    u.coilWaterLevel level = u.rejudge := by
  cases level with
  | true => rfl
  | false =>
    have hcold : u.sq.st.isHeat = false := h.resolve_left nofun
    have hignored : u.reportFault .coolant .lu = u :=
      reportFault_ignored .coolant .lu u (by simp [State.faultTaking, hcold, State.takenIf])
    exact congrArg State.rejudge hignored

/-- An end-probe edge is judged where the check is on, before x_end (R132). -/
theorem endProbeEdge_eq {h : RecipeHeader} {u : State} (hr : u.recipe = some h) : u.endProbeEdge =
    if h.endProbeCode = 1 ∧ u.cu.frontier < zonesEnd u.zones then u.reportFault .partLength .lu else u := by
  unfold State.endProbeEdge State.xEnd
  rw [hr]
  simp [HeaderPart2.endProbeOn]

/-- The states in which PART_LENGTH is taken (R132). -/
theorem partLength_taken {st : SeqState} (quenchOn : Bool)
    (hst : st.isHeat = true ∨ st = .held ∨ (∃ ph, st = .approach ph) ∨ ∃ ph, st = .quenchout ph) :
    State.faultTaking .partLength st quenchOn = .enters := by
  rcases hst with hheat | rfl | ⟨ph, rfl⟩ | ⟨ph, rfl⟩
  · simp [State.faultTaking, hheat, State.takenIf]
  · rfl
  · cases ph <;> rfl
  · cases ph <;> rfl

/-- The states in which PART_LENGTH is no report (R132). -/
theorem partLength_ignored {st : SeqState} (quenchOn : Bool)
    (hst : st = .idle ∨ st = .armed ∨ st = .seek ∨ (∃ ph, st = .runout ph) ∨ st = .done ∨ st.isFault = true) :
    State.faultTaking .partLength st quenchOn = .ignored := by
  rcases hst with rfl | rfl | rfl | ⟨ph, rfl⟩ | rfl | hfault
  · rfl
  · rfl
  · rfl
  · rfl
  · rfl
  · cases st with
    | fault ph => rfl
    | idle | armed | seek | approach ph | heating | dwell ph | runout ph | done | quenchout ph | held => cases hfault

/-- A taken edge of the end probe (R132): fault PART_LENGTH where the check is on, before x_end, in the states that R132
names, and in no other. -/
theorem endProbeEdge_judged {h : RecipeHeader} {u : State} (hr : u.recipe = some h) :
    (h.endProbeCode = 1 ∧ u.cu.frontier < zonesEnd u.zones →
      u.sq.st.isHeat = true ∨ u.sq.st = .held ∨ (∃ ph, u.sq.st = .approach ph) ∨ (∃ ph, u.sq.st = .quenchout ph) →
      EnteredFault .partLength .lu u u.endProbeEdge) ∧
    (u.sq.st = .idle ∨ u.sq.st = .armed ∨ u.sq.st = .seek ∨ (∃ ph, u.sq.st = .runout ph) ∨ u.sq.st = .done ∨
      u.sq.st.isFault = true → u.endProbeEdge = u) ∧
    (h.endProbeCode ≠ 1 ∨ (zonesEnd u.zones : Int) ≤ u.cu.frontier → u.endProbeEdge = u) := by
  rw [endProbeEdge_eq hr]
  refine ⟨fun hchecked hst => ?_, fun hst => ?_, fun hunchecked => if_neg ?_⟩
  · rw [if_pos hchecked]
    exact reportFault_enters .partLength .lu u (partLength_taken _ hst)
  · rw [reportFault_ignored .partLength .lu u (partLength_ignored _ hst), ite_self]
  · rintro ⟨hon, hbefore⟩
    exact hunchecked.elim (fun hoff => hoff hon) fun hpast => Int.not_lt.2 hpast hbefore

/-- What the line's function makes of a change of its filtered level, in the statements' words (R132, R135, R167). -/
theorem handLevel_judged (fn : InputFn) (taken level : Bool) (c : Int) (u : State) :
    let t := u.handLevel fn taken level c
    (fn = .general ∨ taken = false ∧ (fn = .datum ∨ fn = .endProbe ∨ fn = .spindleIndex) → t = u) ∧
    (fn = .interlock → level = true ∨ u.sq.st = .idle ∨ u.sq.st.isFault = true → t = u) ∧
    (fn = .interlock → level = false → u.sq.st ≠ .idle → u.sq.st.isFault = false → EnteredFault .interlock .lu u t) ∧
    (fn = .coilWater → level = false → u.sq.st.isHeat = true → EnteredFault .coolant .lu u t) ∧
    (fn = .coilWater → level = true ∨ u.sq.st.isHeat = false → t = u.rejudge) ∧
    (fn = .endProbe → taken = true → t = u.endProbeEdge) := by
  refine ⟨fun hquiet => ?_, fun hfn hquiet => ?_, fun hfn hfall hidle hfault => ?_, fun hfn hfall hheat => ?_,
    fun hfn hcold => ?_, fun hfn htaken => ?_⟩
  · rcases hquiet with rfl | ⟨rfl, hfn⟩
    · rfl
    · exact handLevel_untaken hfn level c u
  · subst hfn
    exact interlockLevel_ignored hquiet
  · subst hfn hfall
    exact interlockLevel_faults hidle hfault
  · subst hfn hfall
    exact coilWaterLevel_faults hheat
  · subst hfn
    exact coilWaterLevel_rejudges hcold
  · subst hfn htaken
    rfl

/-- Settles O52: the pin, the filter and its stamp first, then what each function makes of the change. -/
theorem linesTakeChanges : Obligations.LinesTakeChanges := by
  intro k d edge filter latency x fn capture s n line level taken stamp cu after
  refine ⟨fun f hrole => ?_, fun hrole => ⟨fun hsame => ?_, fun hmoved hback => ?_, fun hmoved haway => ?_,
    fun htimer hdue => ⟨fun hback => ?_, fun hchange => ?_⟩⟩, fun m hpulse hdue => ?_, fun hwithdrawal hdue => ?_⟩
  · exact congrArg (fun v => Host.Outcome.next (line v)) (Line.pinChange_output hrole s.now d)
  · exact congrArg (fun v => Host.Outcome.next (line v))
      ((Line.pinChange_input hrole s.now d).trans (if_pos hsame))
  · exact congrArg (fun v => Host.Outcome.next (line v))
      ((Line.pinChange_input hrole s.now d).trans ((if_neg hmoved).trans (if_pos hback)))
  · exact congrArg (fun v => Host.Outcome.next (line v))
      ((Line.pinChange_input hrole s.now d).trans ((if_neg hmoved).trans (if_neg haway)))
  · exact congrArg Host.Outcome.next (filterExpiry_back hrole htimer hdue hback)
  · have hcu : cu = { s.cu with captures := cu.captures, overrun := cu.overrun } :=
      stampedCu_keeps (taken && capture) stamp s.cu
    have hfrontier : after.cu.frontier = s.cu.frontier := (congrArg Cu.frontier hcu :)
    have hsq : after.sq = s.sq := rfl
    have hzt : after.zt = s.zt := rfl
    have hexec : exec (.filterExpiry k) s = .next (after.handLevel fn taken level (s.cu.compensated latency)) :=
      congrArg Host.Outcome.next (filterExpiry_changes hrole htimer hdue hchange)
    clear_value after
    have hjudged := handLevel_judged fn taken level (s.cu.compensated latency) after
    rw [hexec]
    generalize after.handLevel fn taken level (s.cu.compensated latency) = t at hjudged ⊢
    rw [hsq] at hjudged
    obtain ⟨hquiet, hlocked, hunlocked, hdry, hrejudged, hprobe⟩ := hjudged
    refine ⟨fun h => congrArg _ (hquiet h), fun hfn h => congrArg _ (hlocked hfn h),
      fun hfn hfall hidle hfault => ⟨t, rfl, hunlocked hfn hfall hidle hfault⟩,
      fun hfn hfall hheat => ⟨t, rfl, hdry hfn hfall hheat⟩, fun hfn hcold hst => congrArg _ ?_,
      fun h hfn hst hr => ⟨t, rfl, ?_⟩, fun h hfn htaken hr => ?_⟩
    · exact (hrejudged hfn hcold).trans (rejudge_of_not_wait (by rwa [hsq]))
    · rw [hrejudged hfn (.inr (by rw [hst]; rfl))]
      exact rejudge_rejudged h after ((congrArg (·.activeBank.header) hzt).trans hr) (by rwa [hsq])
    · have hzones : after.zones = s.zt.activeBank.zoneList := congrArg (·.activeBank.zoneList) hzt
      have hprobed := endProbeEdge_judged ((congrArg (·.activeBank.header) hzt).trans hr : after.recipe = some h)
      rw [← hprobe hfn htaken, hsq, hfrontier, hzones] at hprobed
      obtain ⟨hfaults, hignored, hunchecked⟩ := hprobed
      exact ⟨fun hchecked hst => ⟨t, rfl, hfaults hchecked hst⟩, fun hst => congrArg _ (hignored hst),
        fun hoff => congrArg _ (hunchecked hoff)⟩
  · exact congrArg Host.Outcome.next (if_pos (reached_of_some hpulse hdue))
  · intro withdrawn
    have hexec : exec .withdrawalExpiry s = .next withdrawn.rejudge :=
      congrArg Host.Outcome.next (if_pos (reached_of_some hwithdrawal hdue))
    refine ⟨fun hst => ?_, fun h hst hr => ⟨_, hexec, rejudge_rejudged h withdrawn hr hst⟩⟩
    rw [hexec, rejudge_of_not_wait (u := withdrawn) hst]

end Sys2Proof.Machine
end

section
/-! PROOF. The transmitters' order and the two send timers (O47); valid arrivals and the placing of an answer (O48). -/

namespace Sys2Proof.Machine

/-! ## What a transmitter begins next (R150) -/

@[simp] theorem Lp.setPort_setPort (l : Lp) (u v : PortState) (w : Port) :
    (l.setPort u w).setPort v w = l.setPort v w := by
  cases w <;> rfl

@[simp] theorem Lp.waitingAcks_setPort (l : Lp) (v : PortState) (u w : Port) :
    (l.setPort v u).waitingAcks w = l.waitingAcks w := by
  cases w <;> simp [Lp.waitingAcks]

theorem Lp.waitingAcks_actuator (l : Lp) {w : Port} (hw : w ≠ .s) : l.waitingAcks w = [] := by
  cases w with
  | s => exact absurd rfl hw
  | p | m | q => rfl

section
variable (l : Lp) (i : SendInput) (w : Port)

/-- A port that is not ONLINE, and one that is sending, begin nothing. -/
theorem Lp.kick_of_not_free (hbusy : (l.port w).link = .online → (l.port w).tx ≠ none) : l.kick i w = l :=
  if_neg fun hfree => hbusy hfree.1 hfree.2

/-- The oldest notice goes first. -/
theorem Lp.kick_notice {n : StateNotice} {rest : List StateNotice} (honline : (l.port w).link = .online)
    (hfree : (l.port w).tx = none) (hnotices : (l.port w).notices = n :: rest) :
    l.kick i w = l.setPort { l.port w with
      notices := rest, sendCount := (l.port w).sendCount + 1
      tx := i.job (.notice (l.port w).sendCount n) } w :=
  (if_pos ⟨honline, hfree⟩).trans (by rw [hnotices])

/-- With no notice waiting, the oldest answer goes next. -/
theorem Lp.kick_ack {a : Ack} {rest : List Ack} (honline : (l.port .s).link = .online)
    (hfree : (l.port .s).tx = none) (hnotices : (l.port .s).notices = []) (hacks : l.acks = a :: rest) :
    l.kick i .s = { l.setPort { l.port .s with tx := i.job (.ack a) } .s with acks := rest } := by
  have hwaiting : l.waitingAcks .s = a :: rest := hacks
  exact (if_pos ⟨honline, hfree⟩).trans (by simp [hnotices, hwaiting])

/-- With neither notice nor answer waiting, the set-point frame goes, if it is due. -/
theorem Lp.kick_set (honline : (l.port w).link = .online) (hfree : (l.port w).tx = none)
    (hnotices : (l.port w).notices = []) (hacks : l.waitingAcks w = []) :
    l.kick i w = if (l.port w).setDue then l.sendSet i w else l :=
  (if_pos ⟨honline, hfree⟩).trans (by rw [hnotices, hacks])

end

/-! ## A set-point frame begun or due (R152 to R154) -/

theorem sendInput_job (f : TxFrame) (s : State) : s.sendInput.job f = some (begun f s) := rfl

theorem sendInput_speed (s : State) :
    s.sendInput.speed = if s.cu.direction = .plus then (s.pe.speed : Int) else -(s.pe.speed : Int) := by
  unfold SendInput.speed State.sendInput
  cases s.cu.direction <;> rfl

/-- The transmitter and the set-point place that a port had do not matter to a set-point frame begun there. -/
theorem Lp.sendSet_setPort (l : Lp) (i : SendInput) {w : Port} (hw : w ≠ .s) (tx : Option TxJob) (due : Bool) :
    (l.setPort { l.port w with tx := tx, setDue := due } w).sendSet i w = l.sendSet i w := by
  cases w with
  | s => exact absurd rfl hw
  | p | m | q => rfl

/-- What an actuator port holds once its set-point frame has begun. -/
theorem sendSet_port {port : Port} {s : State} {f : TxFrame} (hframe : setPointFrame port s = some f) :
    (s.lp.sendSet s.sendInput port).port port = { s.lp.port port with
      setDue := false, sendCount := (s.lp.port port).sendCount + 1, tx := some (begun f s) } := by
  cases port with
  | s => cases hframe
  | m =>
    cases hframe
    rw [← sendInput_speed]
    rfl
  | p | q => cases hframe; rfl

theorem sendSet_onlyPort (l : Lp) (i : SendInput) (port : Port) : OnlyPort port l (l.sendSet i port) := by
  refine ⟨by simp [SameKept], fun w hw => ?_, fun _ => l.sendSet_acks i port, fun hport => ?_, fun hport => ?_⟩
  · revert hw
    cases port <;> cases w <;> simp [Lp.sendSet, Lp.port]
  · cases port with
    | p => exact absurd rfl hport
    | s | m | q => exact ⟨rfl, rfl⟩
  · cases port with
    | q => exact absurd rfl hport
    | s | p | m => exact ⟨rfl, rfl⟩

section
variable (l : Lp) (i : SendInput) {w : Port}

/-- A port that is not ONLINE takes no set-point frame. -/
theorem Lp.markDue_offline (hlink : (l.port w).link ≠ .online) : l.markDue i w = l := if_neg hlink

/-- Behind a frame that is being sent, the set-point frame is due. -/
theorem Lp.markDue_busy (honline : (l.port w).link = .online) (hbusy : (l.port w).tx ≠ none) :
    l.markDue i w = l.setPort { l.port w with setDue := true } w :=
  (if_pos honline).trans (Lp.kick_of_not_free _ i w fun _ => by rwa [Lp.port_setPort])

/-- A free transmitter with no notice waiting begins the set-point frame at once. -/
theorem Lp.markDue_begins (hw : w ≠ .s) (hfree : BeginsNow (l.port w)) : l.markDue i w = l.sendSet i w := by
  obtain ⟨honline, htx, hnotices⟩ := hfree
  let due := l.setPort { l.port w with setDue := true } w
  have hport : due.port w = { l.port w with setDue := true } := l.port_setPort _ w
  calc l.markDue i w
      = due.kick i w := if_pos honline
    _ = if (due.port w).setDue then due.sendSet i w else due :=
        due.kick_set i w (by rwa [hport]) (by rwa [hport]) (by rwa [hport]) (due.waitingAcks_actuator hw)
    _ = due.sendSet i w := if_pos (by rw [hport])
    _ = l.sendSet i w := l.sendSet_setPort i hw _ _

end

/-! ## The end of a frame (R150) -/

section
variable {port : Port} {s : State}

/-- The links whose transmitter has come free. -/
def freedAt (port : Port) (s : State) : Lp := s.lp.setPort { s.lp.port port with tx := none } port

theorem freedAt_port : (freedAt port s).port port = { s.lp.port port with tx := none } := s.lp.port_setPort _ port

/-- At its instant a frame's end frees the transmitter, which looks for the next frame. -/
theorem exec_transmitComplete {j : TxJob} (htx : (s.lp.port port).tx = some j) (hdue : j.endsAt2 ≤ 2 * s.cu.cellTime) :
    exec (.transmitComplete port) s = .next (s.setLp ((freedAt port s).kick s.sendInput port)) :=
  congrArg Host.Outcome.next (if_pos ((transmitDue_iff port s).2 ⟨j, htx, hdue⟩))

theorem freed_kick_offline (hlink : (s.lp.port port).link ≠ .online) :
    (freedAt port s).kick s.sendInput port = freedAt port s :=
  Lp.kick_of_not_free _ _ _ fun honline => by
    rw [freedAt_port] at honline
    exact absurd honline hlink

theorem freed_kick_notice {n : StateNotice} {rest : List StateNotice} (honline : (s.lp.port port).link = .online)
    (hnotices : (s.lp.port port).notices = n :: rest) :
    (freedAt port s).kick s.sendInput port = s.lp.setPort { s.lp.port port with
      notices := rest, sendCount := (s.lp.port port).sendCount + 1
      tx := some (begun (.notice (s.lp.port port).sendCount n) s) } port := by
  rw [Lp.kick_notice (n := n) (rest := rest) _ _ _ (by rwa [freedAt_port]) (by rw [freedAt_port])
    (by rwa [freedAt_port]), freedAt_port, freedAt, Lp.setPort_setPort, sendInput_job]

theorem freed_kick_ack {a : Ack} {rest : List Ack} (honline : (s.lp.port .s).link = .online)
    (hnotices : (s.lp.port .s).notices = []) (hacks : s.lp.acks = a :: rest) :
    (freedAt .s s).kick s.sendInput .s =
      { s.lp.setPort { s.lp.port .s with tx := some (begun (.ack a) s) } .s with acks := rest } :=
  Lp.kick_ack (freedAt .s s) s.sendInput honline rfl hnotices hacks

/-- With neither notice nor answer waiting, the end of a frame begins the set-point frame that is due. -/
theorem freed_kick_set (honline : (s.lp.port port).link = .online) (hnotices : (s.lp.port port).notices = [])
    (hacks : s.lp.waitingAcks port = []) :
    (freedAt port s).kick s.sendInput port =
      if (s.lp.port port).setDue then (freedAt port s).sendSet s.sendInput port else freedAt port s := by
  have hwaiting : (freedAt port s).waitingAcks port = [] := (s.lp.waitingAcks_setPort _ _ _).trans hacks
  rw [Lp.kick_set _ _ _ (by rwa [freedAt_port]) (by rw [freedAt_port]) (by rwa [freedAt_port]) hwaiting, freedAt_port]

end

/-! ## The send timers (R152, R154) -/

section
variable {s : State} {x : Nat}

theorem exec_powerSendExpiry (htimer : s.lp.powerSend = some x) (hdue : x ≤ s.cu.cellTime) :
    exec .powerSendExpiry s = .next (s.setLp (Lp.markDue s.sendInput .p { s.lp with powerSend := none })) :=
  congrArg Host.Outcome.next (if_pos (reached_of_some htimer hdue))

theorem exec_quenchSendExpiry (htimer : s.lp.quenchSend = some x) (hdue : x ≤ s.cu.cellTime) :
    exec .quenchSendExpiry s = .next (s.setLp (Lp.markDue s.sendInput .q { s.lp with quenchSend := none })) :=
  congrArg Host.Outcome.next (if_pos (reached_of_some htimer hdue))

/-- A command that makes an actuator port's set-point frame due, by what its port is doing. -/
theorem sendExpiry_shown {c : Instr} {stopped : Lp} {w : Port} (hw : w ≠ .s)
    (hexec : exec c s = .next (s.setLp (stopped.markDue s.sendInput w))) :
    ((stopped.port w).link ≠ .online → exec c s = .next (s.setLp stopped)) ∧
    ((stopped.port w).link = .online → (stopped.port w).tx ≠ none →
      exec c s = .next (s.setLp (stopped.setPort { stopped.port w with setDue := true } w))) ∧
    (BeginsNow (stopped.port w) → exec c s = .next (s.setLp (stopped.sendSet s.sendInput w))) := by
  rw [hexec]
  refine ⟨fun hlink => ?_, fun honline hbusy => ?_, fun hfree => ?_⟩
  · rw [stopped.markDue_offline _ hlink]
  · rw [stopped.markDue_busy _ honline hbusy]
  · rw [stopped.markDue_begins _ hw hfree]

end

/-- Settles O47: the end of a frame in the order of what waits, then the two send timers. -/
theorem transmittersSendInOrder : Obligations.TransmittersSendInOrder := by
  intro port j s w i
  refine ⟨fun htx hdue => ?_, fun x htimer hdue => ?_, fun x htimer hdue => ?_⟩
  · have hexec := exec_transmitComplete htx hdue
    refine ⟨fun hlink => ?_, fun n rest honline hnotices => ?_, fun a rest hport honline hnotices hacks => ?_,
      fun f honline hnotices hset hframe => ?_, fun honline hnotices hacks hset => ?_⟩
    · rw [hexec, freed_kick_offline hlink]
      rfl
    · rw [hexec, freed_kick_notice honline hnotices]
      rfl
    · subst hport
      rw [hexec, freed_kick_ack honline hnotices hacks]
    · have hactuator : port ≠ .s := by
        rintro rfl
        cases hframe
      have hsent : (freedAt port s).kick s.sendInput port = s.lp.sendSet s.sendInput port := by
        rw [freed_kick_set honline hnotices (s.lp.waitingAcks_actuator hactuator), if_pos hset]
        exact s.lp.sendSet_setPort s.sendInput hactuator none _
      refine ⟨s.setLp (s.lp.sendSet s.sendInput port), by rw [hexec, hsent], by simp [SameButLinks],
        sendSet_onlyPort s.lp s.sendInput port, sendSet_port hframe, ?_, ?_⟩
      · rintro rfl
        exact ⟨rfl, rfl⟩
      · rintro rfl
        exact ⟨rfl, rfl⟩
    · have hnone : s.lp.waitingAcks port = [] := by
        by_cases hport : port = .s
        · subst hport
          exact hacks rfl
        · exact s.lp.waitingAcks_actuator hport
      rw [hexec, freed_kick_set honline hnotices hnone]
      rcases hset with hset | rfl
      · exact congrArg (fun l => Host.Outcome.next (s.setLp l)) (if_neg (Bool.eq_false_iff.1 hset))
      · exact congrArg (fun l => Host.Outcome.next (s.setLp l)) (ite_self _)
  · obtain ⟨hoffline, hbehind, hbegins⟩ := sendExpiry_shown (w := .p) nofun (exec_powerSendExpiry htimer hdue)
    exact ⟨hoffline, hbehind, fun honline hfree hnotices => ⟨hbegins ⟨honline, hfree, hnotices⟩, rfl⟩⟩
  · obtain ⟨hoffline, hbehind, hbegins⟩ := sendExpiry_shown (w := .q) nofun (exec_quenchSendExpiry htimer hdue)
    exact ⟨hoffline, hbehind, fun honline hfree hnotices => ⟨hbegins ⟨honline, hfree, hnotices⟩, rfl⟩⟩

/-! ## A valid arrival (R146, R151) -/

section
variable (s : State) (n : StateNotice) (v : PortState)

/-- A free transmitter with nothing waiting begins a notice at once (R150). -/
theorem noticedPort_begins (hfree : BeginsNow v) : noticedPort s n v =
    { v with sendCount := v.sendCount + 1, tx := some (begun (.notice v.sendCount n) s) } := by
  obtain ⟨honline, htx, hnotices⟩ := hfree
  have hplaced : placedIn v.notices n = n :: v.notices := by
    rw [hnotices]
    rfl
  unfold noticedPort
  rw [if_pos honline, htx, hplaced]

/-- Behind a frame that is being sent, a notice waits (R150). -/
theorem noticedPort_waits (honline : v.link = .online) (hbusy : v.tx ≠ none) (hnotices : v.notices = []) :
    noticedPort s n v = { v with notices := [n] } := by
  obtain ⟨j, htx⟩ := Option.ne_none_iff_exists'.1 hbusy
  unfold noticedPort
  rw [if_pos honline, htx, hnotices]
  rfl

end

/-- The send timer that a catch-up starts (R151). -/
theorem Lp.startCadence_eq (now : Nat) (l : Lp) (port : Port) : l.startCadence now port = { l with
    powerSend := if port = .p then some (now + 10000) else l.powerSend
    quenchSend := if port = .q then some (now + 5000) else l.quenchSend } := by
  cases port <;> rfl

theorem Lp.startCadence_setPort (now : Nat) (l : Lp) (v : PortState) (port u : Port) :
    (l.setPort v u).startCadence now port = (l.startCadence now port).setPort v u := by
  cases port <;> cases u <;> rfl

/-- The set-point place of a port at a catch-up: due on an actuator port, which has a notice to send first (R151). -/
theorem Lp.markDue_catchUp (l : Lp) (i : SendInput) (port : Port) (v : PortState) (honline : v.link = .online)
    (hbusy : v.tx ≠ none) :
    (if port.isActuator then (l.setPort v port).markDue i port else l.setPort v port) =
      l.setPort { v with setDue := v.setDue || port.isActuator } port := by
  cases hactuator : port.isActuator with
  | true =>
    rw [if_pos rfl, Lp.markDue_busy _ i (by rwa [l.port_setPort]) (by rwa [l.port_setPort]), l.port_setPort,
      l.setPort_setPort, Bool.or_true]
  | false => rw [if_neg Bool.false_ne_true, Bool.or_false]

section
variable {port : Port} {s : State}

theorem arrive_online (honline : (s.lp.port port).link = .online) :
    s.arrive port = withPort port ((s.lp.port port).arrive s.cu.cellTime) s :=
  congrArg s.setLp (if_pos honline)

/-- The catch-up of a link: its send timer, the notice of the present state, and then the set-point place (R151). -/
theorem arrive_catchUp {v : PortState} (hlink : (s.lp.port port).link ≠ .online)
    (hv : noticedPort s s.notice ((s.lp.port port).arrive s.cu.cellTime) = v) (honline : v.link = .online)
    (hbusy : v.tx ≠ none) :
    s.arrive port = s.setLp ((s.lp.startCadence s.cu.cellTime port).setPort
      { v with setDue := v.setDue || port.isActuator } port) := by
  let arrived := s.lp.setPort ((s.lp.port port).arrive s.cu.cellTime) port
  have hnotified : (arrived.startCadence s.cu.cellTime port).notify s.sendInput s.notice port =
      (s.lp.startCadence s.cu.cellTime port).setPort v port := by
    rw [notify_eq s _ _ _ _ rfl, Lp.startCadence_port, Lp.port_setPort, hv, Lp.startCadence_setPort,
      Lp.setPort_setPort]
  refine congrArg s.setLp ((if_neg hlink).trans ?_)
  rw [← Lp.markDue_catchUp _ s.sendInput port v honline hbusy, ← hnotified]
  rfl

end

/-- Settles O48: the arrival by the link and the transmitter it finds, then the answer by the transmitter. -/
theorem arrivalsAndAnswers : Obligations.ArrivalsAndAnswers := by
  constructor
  · intro port s w arrived timed
    refine ⟨rfl, arrive_online, fun hlink hfree hnotices => ?_, fun hlink hbusy hnotices => ?_⟩
    · have hnoticed := noticedPort_begins s s.notice arrived ⟨rfl, hfree, hnotices⟩
      rw [arrive_catchUp hlink hnoticed rfl nofun, Lp.startCadence_eq]
      rfl
    · have hnoticed := noticedPort_waits s s.notice arrived rfl hbusy hnotices
      rw [arrive_catchUp hlink hnoticed rfl hbusy, Lp.startCadence_eq]
      rfl
  · intro tag a s w
    let ack : Ack := { tag := tag, answer := a }
    let placed : Lp := { s.lp with acks := s.lp.acks ++ [ack] }
    refine ⟨fun honline hfree hnotices hacks => ?_, fun hbusy => ?_⟩
    · have hplaced : placed.acks = [ack] := congrArg (· ++ [ack]) hacks
      have hempty : { s.lp with acks := [] } = s.lp := by rw [← hacks]
      have hbegun := Lp.kick_ack placed s.sendInput honline hfree hnotices hplaced
      refine congrArg s.setLp (hbegun.trans ?_)
      exact congrArg (fun l : Lp => l.setPort { w with tx := some (begun (.ack ack) s) } .s) hempty
    · exact congrArg s.setLp (placed.kick_of_not_free s.sendInput .s fun _ => hbusy)

end Sys2Proof.Machine
end

section
/-! PROOF. The set-up requests of the line unit judged field by field (R164, R170): a reading that stops at the first
field that fails, and the tables of the statements. -/

namespace Sys2Proof.Machine

/-! ## A reading and its table -/

/-- A reading follows a table of checks: it stops with the first field that fails, and passes with a value of which
`passes` holds where none does. -/
def JudgedBy {α : Type} (table : List (Bool × Nat)) (passes : α → Prop) (r : Except Nat α) : Prop :=
  (∀ f, firstOf table = some f → r = .error f) ∧ (firstOf table = none → ∃ a, r = .ok a ∧ passes a)

namespace JudgedBy

variable {α β : Type} {table : List (Bool × Nat)} {passes : β → Prop} {field : Nat} {failed : Bool}

theorem pure {b : β} (hb : passes b) : JudgedBy [] passes (.ok b) := ⟨nofun, fun _ => ⟨b, rfl, hb⟩⟩

/-- A check that fails ends the reading with its field. -/
theorem error : JudgedBy ((true, field) :: table) passes (.error field) :=
  ⟨fun _ hf => congrArg Except.error (Option.some.inj hf), nofun⟩

/-- A check that does not fail leaves the reading to the rest of the table. -/
theorem skip {r : Except Nat β} (hpassed : failed = false) (hrest : JudgedBy table passes r) :
    JudgedBy ((failed, field) :: table) passes r := by
  subst hpassed
  exact hrest

/-- One field: its check fails where it has no good value, and else the reading goes on with the value. -/
theorem judged {v : Option α} {next : α → Except Nat β} (hfailed : failed = v.isNone)
    (hrest : ∀ a, v = some a → JudgedBy table passes (next a)) :
    JudgedBy ((failed, field) :: table) passes (judged field v >>= next) := by
  subst hfailed
  cases v with
  | none => exact error
  | some a => exact skip rfl (hrest a rfl)

/-- One field whose value is read as another. -/
theorem judged_map {γ : Type} {v : Option α} {as : α → γ} {next : γ → Except Nat β} (hfailed : failed = v.isNone)
    (hrest : ∀ a, v = some a → JudgedBy table passes (next (as a))) :
    JudgedBy ((failed, field) :: table) passes ((Machine.judged field v).map as >>= next) := by
  subst hfailed
  cases v with
  | none => exact error
  | some a => exact skip rfl (hrest a rfl)

end JudgedBy

/-! ## Fields by their codes (R190) -/

/-- A field that may be absent fails where it is absent or its code has no meaning. -/
theorem outside_eq_isNone {α : Type} {ofCode : Nat → Option α} {lo hi : Nat}
    (hcode : ∀ c, (ofCode c).isSome = decide (lo ≤ c ∧ c ≤ hi)) (v : Option Nat) :
    (!v.any (fun n => decide (lo ≤ n ∧ n ≤ hi))) = (v.bind ofCode).isNone := by
  cases v with
  | none => rfl
  | some c => rw [Option.any_some, ← hcode c, Option.bind_some, Option.not_isSome]

theorem within_isSome (lo hi c : Nat) : (within lo hi c).isSome = decide (lo ≤ c ∧ c ≤ hi) := by
  unfold within
  split <;> simp [*]

theorem eq_of_within {lo hi c n : Nat} (h : within lo hi c = some n) : c = n := by
  unfold within at h
  split at h
  · exact Option.some.inj h
  · cases h

/-- A number of an optional field that is within its range is the number carried. -/
theorem eq_of_bind_within {lo hi n : Nat} {v : Option Nat} (h : v.bind (within lo hi) = some n) : v = some n := by
  obtain ⟨c, rfl, hc⟩ := Option.bind_eq_some_iff.1 h
  rw [eq_of_within hc]

theorem flagOfCode_isSome (c : Nat) : (flagOfCode c).isSome = decide (0 ≤ c ∧ c ≤ 1) := by
  rw [← Option.not_isNone, flagOfCode_isNone, ← decide_not]
  exact decide_eq_decide.2 (by omega)

theorem flagOfCode_eq_some {c : Nat} {b : Bool} (h : flagOfCode c = some b) : b = (c == 1) := by
  match c with
  | 0 => exact (Option.some.inj h).symm
  | 1 => exact (Option.some.inj h).symm
  | c + 2 => simp [flagOfCode] at h

theorem EdgeSetting.ofCode_isSome (c : Nat) : (EdgeSetting.ofCode c).isSome = decide (1 ≤ c ∧ c ≤ 3) := by
  match c with
  | 0 | 1 | 2 | 3 => rfl
  | c + 4 => simp [EdgeSetting.ofCode]

theorem InputFn.ofCode_isSome (c : Nat) : (InputFn.ofCode c).isSome = decide (1 ≤ c ∧ c ≤ 6) := by
  match c with
  | 0 | 1 | 2 | 3 | 4 | 5 | 6 => rfl
  | c + 7 => simp [InputFn.ofCode]

theorem InputFn.code_of_ofCode {c : Nat} {fn : InputFn} (h : InputFn.ofCode c = some fn) : fn.code = c := by
  unfold InputFn.ofCode at h
  (repeat' split at h) <;> cases h <;> exact Eq.symm ‹_›

theorem InputFn.code_injective {f g : InputFn} (h : f.code = g.code) : f = g := by
  have hread (fn : InputFn) : InputFn.ofCode fn.code = some fn := by cases fn <;> rfl
  exact Option.some.inj ((hread f).symm.trans ((congrArg InputFn.ofCode h).trans (hread g)))

theorem OutputFn.ofCode_isSome (c : Nat) : (OutputFn.ofCode c).isSome = decide (16 ≤ c ∧ c ≤ 24) := by
  match c with
  | 0 | 1 | 2 | 3 | 4 | 5 | 6 | 7 | 8 | 9 | 10 | 11 | 12 | 13 | 14 | 15 => rfl
  | 16 | 17 | 18 | 19 | 20 | 21 | 22 | 23 | 24 => rfl
  | c + 25 => simp [OutputFn.ofCode]

theorem OutputFn.code_of_ofCode {c : Nat} {fn : OutputFn} (h : OutputFn.ofCode c = some fn) : fn.code = c := by
  unfold OutputFn.ofCode at h
  (repeat' split at h) <;> cases h <;> exact Eq.symm ‹_›

end Sys2Proof.Machine
end

section
/-! PROOF. WRITE_LINE_CONFIG (O41). -/

namespace Sys2Proof.Machine

/-! ## What a request carries (R163, R164) -/

/-- The pull-up and the role that an accepted request carries, its fields by their codes (R163). -/
inductive CarriedRole (w : LineWrite) : Bool × LineRole → Prop where
  | input {edge : EdgeSetting} {filter latency : Nat} {fn : InputFn} (hdirection : w.directionCode = 1)
      (hedge : w.edgeCode.bind EdgeSetting.ofCode = some edge) (hfilter : w.filter = some filter)
      (hlatency : w.latency = some latency) (hfn : w.inputCode = some fn.code) :
      CarriedRole w (w.pullUpCode == 1, .input edge filter latency fn (w.captureCode == some 1))
  | output {fn : OutputFn} (hdirection : w.directionCode = 2) (hfn : w.outputCode = some fn.code) :
      CarriedRole w (w.pullUpCode == 1, .output fn)

/-- The reading of an IN line's fields follows R163's table. -/
theorem readRole_input (w : LineWrite) (hdirection : w.directionCode = 1) :
    JudgedBy (lineTable w) (CarriedRole w) (readRole w) := by
  have hinput : (w.directionCode == 2) = false := by rw [hdirection]; rfl
  unfold readRole lineTable
  rw [if_pos hdirection, hinput]
  refine .skip (decide_eq_false (by omega)) (.judged (flagOfCode_isNone _).symm fun pullUp hpullUp =>
    .judged (outside_eq_isNone EdgeSetting.ofCode_isSome _) fun edge hedge =>
    .judged (outside_eq_isNone (within_isSome _ _) _) fun filter hfilter =>
    .judged (outside_eq_isNone (within_isSome _ _) _) fun latency hlatency =>
    .judged (outside_eq_isNone InputFn.ofCode_isSome _) fun fn hfn =>
    .judged (outside_eq_isNone flagOfCode_isSome _) fun capture hcapture => .skip rfl (.pure ?_))
  obtain ⟨fnCode, hfnCode, hfn⟩ := Option.bind_eq_some_iff.1 hfn
  obtain ⟨captureCode, hcaptureCode, hcapture⟩ := Option.bind_eq_some_iff.1 hcapture
  have hread : capture = (w.captureCode == some 1) := by rw [hcaptureCode]; exact flagOfCode_eq_some hcapture
  rw [flagOfCode_eq_some hpullUp, hread]
  exact .input hdirection hedge (eq_of_bind_within hfilter) (eq_of_bind_within hlatency)
    (by rw [hfnCode, InputFn.code_of_ofCode hfn])

/-- The reading of an OUT line's fields follows R163's table; those of an IN line are passed over (assumption 47). -/
theorem readRole_output (w : LineWrite) (hdirection : w.directionCode = 2) :
    JudgedBy (lineTable w) (CarriedRole w) (readRole w) := by
  have houtput : (w.directionCode == 2) = true := by rw [hdirection]; rfl
  unfold readRole lineTable
  rw [if_neg (by omega), if_pos hdirection, houtput]
  refine .skip (decide_eq_false (by omega)) (.judged (flagOfCode_isNone _).symm fun pullUp hpullUp =>
    .skip rfl (.skip rfl (.skip rfl (.skip rfl (.skip rfl
      (.judged (outside_eq_isNone OutputFn.ofCode_isSome _) fun fn hfn => .pure ?_))))))
  obtain ⟨fnCode, hfnCode, hfn⟩ := Option.bind_eq_some_iff.1 hfn
  rw [flagOfCode_eq_some hpullUp]
  exact .output hdirection (by rw [hfnCode, OutputFn.code_of_ofCode hfn])

theorem readRole_judged (w : LineWrite) : JudgedBy (lineTable w) (CarriedRole w) (readRole w) := by
  by_cases hin : w.directionCode = 1
  · exact readRole_input w hin
  · by_cases hout : w.directionCode = 2
    · exact readRole_output w hout
    · unfold readRole lineTable
      rw [if_neg hin, if_neg hout, decide_eq_true (And.intro hin hout)]
      exact .error

/-! ## A function that another line holds (R164) -/

theorem InputFn.exclusive_iff (fn : InputFn) : fn.exclusive = true ↔
    fn = .datum ∨ fn = .spindleIndex ∨ fn = .coilWater ∨ fn = .interlock := by cases fn <;> decide

/-- A request for line k carries a function that one line at most may hold, and another line holds it (R164). -/
def HeldElsewhere (w : LineWrite) (u : Lu) (k : LineNo) : Prop :=
  ∃ fn j, (w.directionCode = 1 ∧ w.inputCode = some fn.code) ∧ j ≠ k ∧ (u.lines[j]).inputFn = some fn ∧
    (fn = .datum ∨ fn = .spindleIndex ∨ fn = .coilWater ∨ fn = .interlock)

theorem functionTaken_input (u : Lu) (k : LineNo) (edge : EdgeSetting) (filter latency : Nat) (fn : InputFn)
    (capture : Bool) : u.functionTaken k (.input edge filter latency fn capture) = true ↔
      fn.exclusive = true ∧ ∃ j, j ≠ k ∧ (u.lines[j]).inputFn = some fn := by
  simp [Lu.functionTaken]

theorem functionTaken_iff {w : LineWrite} {pullUp : Bool} {role : LineRole} (hcarried : CarriedRole w (pullUp, role))
    (u : Lu) (k : LineNo) : u.functionTaken k role = true ↔ HeldElsewhere w u k := by
  cases hcarried with
  | @input edge filter latency fn hdirection _ _ _ hfn =>
    rw [functionTaken_input, InputFn.exclusive_iff]
    constructor
    · rintro ⟨hexclusive, j, hj, hheld⟩
      exact ⟨fn, j, ⟨hdirection, hfn⟩, hj, hheld, hexclusive⟩
    · rintro ⟨g, j, ⟨-, hg⟩, hj, hheld, hexclusive⟩
      obtain rfl : g = fn := InputFn.code_injective (Option.some.inj (hg.symm.trans hfn))
      exact ⟨hexclusive, j, hj, hheld⟩
  | output hdirection _ =>
    refine iff_of_false nofun ?_
    rintro ⟨fn, j, ⟨hinput, -⟩, -⟩
    omega

/-! ## A line configured (R165) -/

theorem setLine_lines (u : Lu) (k j : LineNo) (v : Line) :
    (u.setLine k v).lines[j] = if j = k then v else u.lines[j] := by
  show (u.lines.set k.val v)[j.val] = _
  rw [Vector.getElem_set]
  simp only [eq_comm, Fin.ext_iff]
  rfl

/-- A configuration that leaves SPINDLE_INDEX where it is changes the one line (R165). -/
theorem configure_of_isIndex_eq {u : Lu} {k : LineNo} {role : LineRole} (pullUp : Bool)
    (h : role.isIndex = (u.lines[k]).role.isIndex) :
    u.configure k pullUp role = u.setLine k ((u.lines[k]).configure pullUp role) := by
  unfold Lu.configure movesIndex
  rw [h]
  simp

/-- A configuration that moves SPINDLE_INDEX takes the spindle items with it (R165). -/
theorem configure_of_isIndex_ne {u : Lu} {k : LineNo} {role : LineRole} (pullUp : Bool)
    (h : role.isIndex ≠ (u.lines[k]).role.isIndex) :
    u.configure k pullUp role = (u.setLine k ((u.lines[k]).configure pullUp role)).forgetSpindle := by
  unfold Lu.configure movesIndex
  exact if_pos (bne_iff_ne.2 h.symm)

/-- What a configuration changes besides the spindle items: the one line (R165). -/
theorem configure_keeps (u : Lu) (k : LineNo) (pullUp : Bool) (role : LineRole) :
    let v := u.configure k pullUp role
    v.lines = (u.setLine k ((u.lines[k]).configure pullUp role)).lines ∧ v.marks = u.marks ∧
      v.heatEnable = u.heatEnable ∧ v.withdrawal = u.withdrawal := by
  by_cases h : role.isIndex = (u.lines[k]).role.isIndex
  · rw [configure_of_isIndex_eq pullUp h]
    exact ⟨rfl, rfl, rfl, rfl⟩
  · rw [configure_of_isIndex_ne pullUp h]
    exact ⟨rfl, rfl, rfl, rfl⟩

/-! ## The request -/

section
variable {w : LineWrite} {s : State}

theorem writeLineConfig_noLine (hline : 8 ≤ w.line) : State.writeLineConfig w s = (s, Answer.invalid 54 none) :=
  dif_neg (Nat.not_lt.2 hline)

theorem writeLineConfig_scanning (hline : w.line < 8) (hscan : s.sq.st.inScan = true) :
    State.writeLineConfig w s = (s, Answer.refuse .scanning) :=
  (dif_pos hline).trans (if_pos hscan)

theorem writeLineConfig_error (hline : w.line < 8) (hscan : s.sq.st.inScan = false) {f : Nat}
    (hread : readRole w = .error f) : State.writeLineConfig w s = (s, Answer.invalid f none) := by
  unfold State.writeLineConfig
  rw [dif_pos hline, if_neg (Bool.eq_false_iff.1 hscan), hread]

theorem writeLineConfig_ok {k : LineNo} (hline : w.line = k.val) (hscan : s.sq.st.inScan = false) {pullUp : Bool}
    {role : LineRole} (hread : readRole w = .ok (pullUp, role)) : State.writeLineConfig w s =
      if s.lu.functionTaken k role then (s, Answer.invalid 75 none)
      else (s.setLu (s.lu.configure k pullUp role), Answer.ok []) := by
  have hlt : w.line < 8 := by omega
  obtain rfl : k = ⟨w.line, hlt⟩ := Fin.ext hline.symm
  unfold State.writeLineConfig
  rw [dif_pos hlt, if_neg (Bool.eq_false_iff.1 hscan), hread]

end

/-- Settles O41: the request is judged on the state after its arrival, which has left the lines and the sequencer. -/
theorem writeLineConfig : Obligations.WriteLineConfig := by
  intro tag w s htaken carried held
  have hexec : exec (.writeLineConfig tag (.fields w)) s = .next
      ((State.writeLineConfig w (s.arrive .s)).1.answer tag (State.writeLineConfig w (s.arrive .s)).2) :=
    congrArg Host.Outcome.next (takeRequest_taken tag w State.writeLineConfig s htaken)
  have hsq : (s.arrive .s).sq = s.sq := State.arrive_sq s .s
  obtain ⟨hfails, hpasses⟩ := readRole_judged w
  rw [hexec]
  refine ⟨fun hline => ?_, fun hline hscan => ?_, fun f hline hscan hf => ?_, fun k hline hscan hf hheld => ?_,
    fun k hline hscan hf hfree => ?_⟩
  · rw [writeLineConfig_noLine hline]; rfl
  · rw [writeLineConfig_scanning hline (by rwa [hsq])]; rfl
  · rw [writeLineConfig_error hline (by rwa [hsq]) (hfails f hf)]; rfl
  · obtain ⟨⟨pullUp, role⟩, hread, hcarried⟩ := hpasses hf
    rw [writeLineConfig_ok hline (by rwa [hsq]) hread, State.arrive_lu,
      if_pos ((functionTaken_iff hcarried s.lu k).2 hheld)]
    rfl
  · obtain ⟨⟨pullUp, role⟩, hread, hcarried⟩ := hpasses hf
    rw [writeLineConfig_ok hline (by rwa [hsq]) hread, State.arrive_lu,
      if_neg (mt (functionTaken_iff hcarried s.lu k).1 hfree)]
    obtain ⟨hlines, hmarks, henable, hwithdrawal⟩ := configure_keeps s.lu k pullUp role
    have hpullUp : pullUp = (w.pullUpCode == 1) := by cases hcarried <;> rfl
    have hat (j : LineNo) := setLine_lines s.lu k j ((s.lu.lines[k]).configure pullUp role)
    refine ⟨role, _, rfl, ?_, fun j hj => ?_, hmarks, henable, hwithdrawal, fun hdirection => ?_,
      fun hdirection => ?_, fun hsame => ?_, fun hmoved => ?_⟩
    · rw [hlines, hat, if_pos rfl, hpullUp]
      rfl
    · rw [hlines, hat, if_neg hj]
    · cases hcarried with
      | input _ hedge hfilter hlatency hfn =>
        obtain ⟨code, hcode, hread⟩ := Option.bind_eq_some_iff.1 hedge
        exact ⟨_, _, by rw [hcode]; exact hread, by rw [hfn]; rfl, by rw [hfilter, hlatency]; rfl⟩
      | output houtput _ => omega
    · cases hcarried with
      | input hinput => omega
      | output _ hfn => exact ⟨_, by rw [hfn]; rfl, rfl⟩
    · rw [configure_of_isIndex_eq pullUp hsame]
      exact ⟨rfl, rfl, rfl, rfl⟩
    · rw [configure_of_isIndex_ne pullUp hmoved]
      exact ⟨rfl, rfl, rfl, rfl⟩

end Sys2Proof.Machine
end

section
/-! PROOF. WRITE_LINE, READ_LINES and WRITE_MARK (O42). -/

namespace Sys2Proof.Machine

/-! ## WRITE_LINE (R169) -/

theorem setLatch_lines (u : Lu) (e : Nat × Bool) (k : LineNo) :
    (State.setLatch u e).lines[k] = if e.1 = k.val then { u.lines[k] with latch := e.2 } else u.lines[k] := by
  unfold State.setLatch
  by_cases hline : e.1 < 8
  · rw [dif_pos hline, setLine_lines]
    by_cases hk : e.1 = k.val
    · obtain rfl : k = ⟨e.1, hline⟩ := Fin.ext hk.symm
      rw [if_pos rfl, if_pos rfl]
      rfl
    · rw [if_neg hk, if_neg fun h => hk (congrArg Fin.val h).symm]
  · rw [dif_neg hline, if_neg (by omega)]

theorem setLatch_keeps (u : Lu) (e : Nat × Bool) :
    State.setLatch u e = { u with lines := (State.setLatch u e).lines } := by
  unfold State.setLatch
  split <;> rfl

/-- The latch that a request names last for a line, or the latch it has (R169, assumption 32). -/
def latchNamed (l : List (Nat × Bool)) (k : LineNo) (latch : Bool) : Bool :=
  ((l.reverse.find? (fun e => e.1 == k.val)).map (·.2)).getD latch

/-- A pair before the others sets the latch that they may set again. -/
theorem latchNamed_cons (e : Nat × Bool) (l : List (Nat × Bool)) (k : LineNo) (latch : Bool) :
    latchNamed (e :: l) k latch = latchNamed l k (if e.1 = k.val then e.2 else latch) := by
  unfold latchNamed
  rw [List.reverse_cons, List.find?_append]
  cases l.reverse.find? (fun e => e.1 == k.val) with
  | some later => rfl
  | none =>
    rw [Option.none_or, List.find?_singleton]
    by_cases hk : e.1 = k.val
    · rw [if_pos (beq_iff_eq.2 hk), if_pos hk]
      rfl
    · rw [if_neg (mt beq_iff_eq.1 hk), if_neg hk]

/-- The pairs taken one after another: nothing but the latches changes, and the last pair for a line wins. -/
theorem setLatch_foldl (l : List (Nat × Bool)) (u : Lu) :
    l.foldl State.setLatch u = { u with lines := (l.foldl State.setLatch u).lines } ∧
    ∀ k : LineNo, (l.foldl State.setLatch u).lines[k] =
      { u.lines[k] with latch := latchNamed l k (u.lines[k]).latch } := by
  induction l generalizing u with
  | nil => exact ⟨rfl, fun k => rfl⟩
  | cons e l ih =>
    obtain ⟨hkept, hlatches⟩ := ih (State.setLatch u e)
    have hpair := congrArg (fun v : Lu => { v with lines := ((e :: l).foldl State.setLatch u).lines })
      (setLatch_keeps u e)
    refine ⟨hkept.trans hpair, fun k => (hlatches k).trans ?_⟩
    rw [setLatch_lines, latchNamed_cons]
    split <;> rfl

theorem writeLatches_refused {l : List (Nat × Bool)} (hl : ∃ e ∈ l, 8 ≤ e.1) (s : State) :
    State.writeLatches l s = (s, Answer.invalid 54 none) := by
  obtain ⟨e, he, hline⟩ := hl
  refine if_neg fun hall => ?_
  have hlt : e.1 < 8 := of_decide_eq_true (List.all_eq_true.1 hall e he)
  omega

theorem writeLatches_accepted {l : List (Nat × Bool)} (hl : ∀ e ∈ l, e.1 < 8) (s : State) :
    State.writeLatches l s = (s.setLu (l.foldl State.setLatch s.lu), Answer.ok []) :=
  if_pos (List.all_eq_true.2 fun e he => decide_eq_true (hl e he))

/-! ## READ_LINES (R168, R169) -/

/-- What drives the OUT lines, as R168 has it. -/
theorem outputView_eq (s : State) : s.outputView =
    { quenchOn := s.pe.latch || s.pe.quenchZone.isSome || s.pe.flood, faultHeld := s.sq.faultRecord.isSome
      done := decide (s.sq.st = .done) } :=
  congrArg (fun b => (⟨s.pe.quenchOn || s.pe.flood, s.sq.faultRecord.isSome, b⟩ : OutputView))
    (Bool.beq_eq_decide_eq _ _)

/-- The level of an IN line is the filtered one (R169). -/
theorem level_input (u : Lu) (v : OutputView) {n : Line} (h : ∀ fn, n.role ≠ .output fn) :
    u.level v n = n.filtered := by
  unfold Lu.level
  cases hrole : n.role with
  | input => rfl
  | output fn => exact absurd hrole (h fn)

/-- The level that an output function drives, on a line with that latch (R168). -/
def drivenLevel (u : Lu) (v : OutputView) (latch : Bool) : OutputFn → Bool
  | .mark m => (u.marks[m]).pulse.isSome
  | .heatMirror => u.heatEnable
  | .quenchOn => v.quenchOn
  | .fault => v.faultHeld
  | .done => v.done
  | .general => latch

/-- The level of an OUT line is what its function drives (R168). -/
theorem level_output (u : Lu) (v : OutputView) {n : Line} {fn : OutputFn} (h : n.role = .output fn) :
    u.level v n = drivenLevel u v n.latch fn := by
  unfold Lu.level
  rw [h]
  cases fn <;> rfl

theorem lineBytes_eq (s : State) (n : Line) : s.lineBytes n =
    [BitVec.ofNat 8 n.role.directionCode, BitVec.ofNat 8 n.role.functionCode,
      if s.lu.level s.outputView n then 1 else 0, if n.latch then 1 else 0] := by
  unfold State.lineBytes
  rw [beBytes_one, beBytes_one, beFlag_bit, beFlag_bit]
  rfl

theorem toList_eq_map_finRange {α : Type} {n : Nat} (v : Vector α n) :
    v.toList = (List.finRange n).map (fun k : Fin n => v[k]) :=
  List.ext_getElem (by simp) (by simp)

theorem readLines_eq (s : State) : State.readLines () s =
    (s, Answer.ok ((List.finRange 8).flatMap (fun k : LineNo => s.lineBytes s.lu.lines[k]))) := by
  unfold State.readLines
  rw [toList_eq_map_finRange, List.flatMap_map]

/-- The levels of the eight lines, in their order (R169). -/
def lineLevels (s : State) : Vector Bool 8 := Vector.ofFn fun k : LineNo => s.lu.level s.outputView s.lu.lines[k]

theorem lineLevels_get (s : State) (k : LineNo) :
    (lineLevels s)[k] = s.lu.level s.outputView s.lu.lines[k] :=
  Vector.getElem_ofFn k.isLt

/-- A taken READ_LINES: the four bytes of each line, and nothing changed (R169). -/
theorem exec_readLines (tag : Byte) {s : State} (hs : Taken s) : exec (.readLines tag (.fields ())) s =
    .next (repliedTo tag (Answer.ok ((List.finRange 8).flatMap (fun k : LineNo =>
      [BitVec.ofNat 8 (s.lu.lines[k]).role.directionCode, BitVec.ofNat 8 (s.lu.lines[k]).role.functionCode,
        if (lineLevels s)[k] then 1 else 0, if (s.lu.lines[k]).latch then 1 else 0]))) s) := by
  have hview : (s.arrive .s).outputView = s.outputView := by simp [State.outputView]
  refine (congrArg Host.Outcome.next (takeRequest_taken tag () State.readLines s hs)).trans ?_
  simp only [readLines_eq, lineBytes_eq, lineLevels_get, State.arrive_lu, hview]
  rfl

/-! ## WRITE_MARK (R170) -/

/-- A mark replaced whole but for its pulse, the fields by their codes (R170). -/
def carriedMark (w : MarkWrite) (old : Mark) : Mark :=
  { old with
    enable := w.enableCode == 1, target := w.target, width := w.width, stamp := w.stampCode == 1
    mode := if w.modeCode = 2 then .repeating (w.addValue.getD 0) else .once }

/-- The check of a number that must lie in a range. -/
theorem outside_eq_within_isNone {lo hi c : Nat} : decide (c < lo ∨ hi < c) = (within lo hi c).isNone := by
  rw [← Option.not_isSome, within_isSome, ← decide_not]
  exact decide_eq_decide.2 (by omega)

/-- The pulse width and the stamp flag, which are judged last (R170). -/
theorem readMark_widthAndStamp (w : MarkWrite) (old : Mark) {enable : Bool} {target : Int} {mode : MarkMode}
    (henable : enable = (w.enableCode == 1)) (htarget : target = w.target)
    (hmode : mode = if w.modeCode = 2 then .repeating (w.addValue.getD 0) else .once) :
    JudgedBy [(decide (w.width < 1 ∨ 1000 < w.width), 84), (decide (1 < w.stampCode), 85)] (· = carriedMark w old)
      (judged 84 (within 1 1000 w.width) >>= fun width => judged 85 (flagOfCode w.stampCode) >>= fun stamp =>
        .ok ⟨enable, target, mode, width, stamp, old.pulse⟩) := by
  refine .judged outside_eq_within_isNone fun width hwidth =>
    .judged (flagOfCode_isNone _).symm fun stamp hstamp => .pure ?_
  rw [henable, htarget, hmode, ← eq_of_within hwidth, flagOfCode_eq_some hstamp]
  rfl

theorem readMark_judged (w : MarkWrite) (old : Mark) :
    JudgedBy (markTable w) (· = carriedMark w old) (readMark w old) := by
  unfold readMark markTable
  refine .judged (flagOfCode_isNone _).symm fun enable henable => .judged ?_ fun target htarget => ?_
  · unfold Config.targetBound
    split
    · exact decide_eq_false (by omega)
    · exact decide_eq_true (by omega)
  have hcarried : target = w.target := by
    split at htarget
    · exact (Option.some.inj htarget).symm
    · cases htarget
  by_cases honce : w.modeCode = 1
  · have hmode : (w.modeCode == 2) = false := by rw [honce]; rfl
    rw [if_pos honce, hmode]
    exact .skip (decide_eq_false (by omega))
      (.skip rfl (readMark_widthAndStamp w old (flagOfCode_eq_some henable) hcarried (if_neg (by omega)).symm))
  · by_cases hrepeat : w.modeCode = 2
    · have hmode : (w.modeCode == 2) = true := by rw [hrepeat]; rfl
      rw [if_neg honce, if_pos hrepeat, hmode]
      refine .skip (decide_eq_false (by omega)) ?_
      refine .judged_map (outside_eq_isNone (within_isSome _ _) _) fun add hadd =>
        readMark_widthAndStamp w old (flagOfCode_eq_some henable) hcarried ?_
      rw [if_pos hrepeat, eq_of_bind_within hadd]
      rfl
    · rw [if_neg honce, if_neg hrepeat, decide_eq_true (And.intro honce hrepeat)]
      exact .error

section
variable {w : MarkWrite} {s : State}

theorem writeMark_noMark (hmark : 4 ≤ w.mark) : State.writeMark w s = (s, Answer.invalid 55 none) :=
  dif_neg (Nat.not_lt.2 hmark)

theorem writeMark_error (hmark : w.mark < 4) {f : Nat} (hf : firstOf (markTable w) = some f) :
    State.writeMark w s = (s, Answer.invalid f none) := by
  unfold State.writeMark
  rw [dif_pos hmark, (readMark_judged w _).1 f hf]

theorem writeMark_ok {k : MarkNo} (hmark : w.mark = k.val) (hf : firstOf (markTable w) = none) :
    State.writeMark w s = (s.setLu (s.lu.setMark k (carriedMark w s.lu.marks[k])), Answer.ok []) := by
  have hlt : w.mark < 4 := by omega
  obtain rfl : k = ⟨w.mark, hlt⟩ := Fin.ext hmark.symm
  obtain ⟨m, hread, rfl⟩ := (readMark_judged w s.lu.marks[w.mark]).2 hf
  unfold State.writeMark
  rw [dif_pos hlt, hread]
  rfl

end

/-! ## The three requests -/

/-- Settles O42: each request is judged on the state after its arrival, which has left what it reads. -/
theorem latchesAndMarks : Obligations.LatchesAndMarks := by
  intro tag l w s htaken
  have hlatches : exec (.writeLine tag (.fields l)) s = .next
      ((State.writeLatches l (s.arrive .s)).1.answer tag (State.writeLatches l (s.arrive .s)).2) :=
    congrArg Host.Outcome.next (takeRequest_taken tag l State.writeLatches s htaken)
  have hmark : exec (.writeMark tag (.fields w)) s = .next
      ((State.writeMark w (s.arrive .s)).1.answer tag (State.writeMark w (s.arrive .s)).2) :=
    congrArg Host.Outcome.next (takeRequest_taken tag w State.writeMark s htaken)
  rw [hlatches, hmark]
  refine ⟨fun hl => ?_, fun hl => ?_, ⟨lineLevels s, exec_readLines tag htaken, fun k => ?_⟩, fun hk => ?_,
    fun f hk hf => ?_, fun k hk hf => ?_, rfl, rfl, fun _ _ _ _ _ => ⟨rfl, rfl⟩, fun _ => ⟨rfl, rfl⟩⟩
  · rw [writeLatches_refused hl]; rfl
  · rw [writeLatches_accepted hl, State.arrive_lu]
    exact ⟨_, rfl, setLatch_foldl l s.lu⟩
  · rw [lineLevels_get, outputView_eq]
    exact ⟨fun hin => level_input _ _ hin, fun h => level_output _ _ h, fun h => level_output _ _ h,
      fun h => level_output _ _ h, fun h => level_output _ _ h, fun h => level_output _ _ h,
      fun m h => level_output _ _ h⟩
  · rw [writeMark_noMark hk]; rfl
  · rw [writeMark_error hk hf]; rfl
  · rw [writeMark_ok hk hf, State.arrive_lu]
    rfl

end Sys2Proof.Machine
end

section
/-! PROOF. The front command (O1) and its completion (O3); the requests that meet no rule of their own, and RESET
(O35). -/

namespace Sys2Proof.Machine

/-- Settles O1. -/
theorem stepRunsTheFrontCommand : Obligations.StepRunsTheFrontCommand := by
  intro c rest s hpending
  unfold step
  rw [hpending]

/-! ## Each request is its payload judged by its rule -/

/-- A request's command judges its payload by a rule that leaves the queue (R181, R182). -/
theorem exec_of_requestTag {c : Instr} {tag : Byte} (hc : requestTag c = some tag) :
    ∃ (α : Type) (p : Payload α) (rule : α → State → State × Answer),
      (∀ s, exec c s = .next (takeRequest tag p rule s)) ∧ (wrongLength c = true → p = .wrongLength) ∧
      ∀ f s, (rule f s).1.pending = s.pending := by
  unfold requestTag at hc
  split at hc <;> cases hc
  all_goals exact ⟨_, _, _, fun _ => rfl, eq_of_beq, fun f s => by simp⟩

theorem request_completes {c : Instr} {tag : Byte} (hc : requestTag c = some tag) (s : State) :
    ∃ t, exec c s = .next t ∧ t.pending = s.pending := by
  obtain ⟨α, p, rule, hexec, -, hpending⟩ := exec_of_requestTag hc
  exact ⟨_, hexec s, takeRequest_keeps State.pending tag p rule s (by simp) (by simp) hpending⟩

theorem control_completes {c : Instr} {port : Port} {tag : Byte} {w : ControlWord}
    (hc : carriedWord c = some (port, tag, w)) (s : State) : ∃ t, exec c s = .next t ∧ t.pending = s.pending :=
  ⟨_, exec_of_carriedWord hc s, s.takeControl_pending port tag w⟩

/-- Settles O3: the requests and the control words by their common shapes, every other command by its frame. -/
theorem everyCommandCompletes : Obligations.EveryCommandCompletes := by
  intro c s
  cases c with
  | readStatus | writeHeader | writeZone | readZone | commit | disarm | loadRecipe | storeRecipe | eraseRecipe
  | readSummary | readException | readCapture | readFault | writePositionConfig | writeLineConfig | writeLine
  | readLines | writeMark | writeOptions | reset => exact request_completes rfl s
  | holdRequest | holdFieldCleared | abort | quenchKeepOn | faultClear | run => exact control_completes rfl s
  | encoderTransition a b => exact ⟨_, rfl, s.takeLevels_pending a b⟩
  | indexRisingEdge => exact ⟨_, rfl, s.latchIndex_pending⟩
  | updateExpiry => exact ⟨_, rfl, s.updateExpiry_pending⟩
  | answeredRole tag => exact ⟨_, rfl, s.answerRole_pending tag⟩
  | frameDiscard port => exact ⟨_, rfl, s.discardFrame_pending port⟩
  | interCharacterTimeout port => exact ⟨_, rfl, s.gapExpiry_pending port⟩
  | powerReport p => exact ⟨_, rfl, s.powerReport_pending p⟩
  | driveStatus p => exact ⟨_, rfl, s.driveStatus_pending p⟩
  | quenchReport p => exact ⟨_, rfl, s.quenchReport_pending p⟩
  | livenessExpiry port => exact ⟨_, rfl, s.livenessExpiry_pending port⟩
  | transmitComplete port => exact ⟨_, rfl, s.transmitComplete_pending port⟩
  | powerSendExpiry => exact ⟨_, rfl, s.powerSendExpiry_pending⟩
  | quenchSendExpiry => exact ⟨_, rfl, s.quenchSendExpiry_pending⟩
  | warmReset => exact ⟨_, rfl, s.takeWarmReset_pending⟩
  | powerOnReset e => exact ⟨_, rfl, s.powerOn_pending e⟩
  | supply mv | supplyRestored mv => exact ⟨_, rfl, s.takeRail_pending mv⟩
  | loadComplete => exact ⟨_, rfl, s.completeLoad_pending⟩
  | storeComplete => exact ⟨_, rfl, s.completeStore_pending⟩
  | eraseComplete => exact ⟨_, rfl, s.completeErase_pending⟩
  | optionWriteComplete => exact ⟨_, rfl, s.completeOptions_pending⟩
  | approachWaitExpiry => exact ⟨_, rfl, s.waitExpiry_pending⟩
  | dwellTimerExpiry => exact ⟨_, rfl, s.dwellExpiry_pending⟩
  | postQuenchExpiry => exact ⟨_, rfl, s.postQuenchExpiry_pending⟩
  | floodExpiry => exact ⟨_, rfl, s.floodExpiry_pending⟩
  | indexWatchExpiry => exact ⟨_, rfl, s.indexWatchExpiry_pending⟩
  | pressureWatchExpiry => exact ⟨_, rfl, s.pressureWatchExpiry_pending⟩
  | auxPinChange k drive => exact ⟨_, rfl, s.pinChange_pending k drive⟩
  | filterExpiry k => exact ⟨_, rfl, s.filterExpiry_pending k⟩
  | markPulseExpiry k => exact ⟨_, rfl, s.markExpiry_pending k⟩
  | withdrawalExpiry => exact ⟨_, rfl, s.withdrawalExpiry_pending⟩
  | discardedKindArrival port => exact ⟨_, rfl, s.arrive_pending port⟩
  | characterReceived port char stopHigh => exact ⟨_, rfl, s.takeCharacter_pending port char stopHigh⟩

/-! ## CONTROL frames turned away (R181, R183, R184, R188) -/

theorem ofNat_controlByte (c : Control) : BitVec.ofNat 8 c.byte = wordByte c :=
  (List.cons.inj (congrArg Answer.data (controlAnswer_eq c .none .none))).1

theorem controlRefused_eq (st : Status) (detail : Byte) (c : Control) :
    controlRefused st detail c = controlTurnedAway st detail c := by
  unfold controlRefused controlTurnedAway
  rw [ofNat_controlByte]
  rfl

section
variable {tag : Byte} {s : State}

/-- While eight answers wait, a CONTROL frame is an arrival (R182). -/
theorem takeControl_full (w : ControlWord) (hfull : 8 ≤ s.lp.acks.length) :
    s.takeControl .s tag w = s.arrive .s :=
  (if_pos rfl).trans (if_pos (by rwa [State.arrive_lp_acks]))

/-- With a warm reset pending a CONTROL frame is BUSY (R188). -/
theorem takeControl_busy (w : ControlWord) (hfree : s.lp.acks.length < 8) (hreset : s.lp.pendingReset = true) :
    s.takeControl .s tag w = repliedTo tag (controlTurnedAway .busy 0xFF s.lp.control) s := by
  have hroom : ¬ Config.ackDepth ≤ (s.arrive .s).lp.acks.length := by
    rw [State.arrive_lp_acks]; exact Nat.not_le.2 hfree
  refine (if_pos rfl).trans ((if_neg hroom).trans ((if_pos (by rwa [State.arrive_lp_pendingReset])).trans ?_))
  rw [State.arrive_lp_control, controlBusy, controlRefused_eq]
  rfl

/-- A CONTROL frame of a wrong length is refused, whatever the port (R181). -/
theorem takeFrame_control_wrong {port : Port} {l : List Byte} (hl : l.length ≠ 1) :
    s.takeFrame port 0x10 tag l = s.refuseControl port tag := by
  have hread : readControl l = .wrongLength := by
    match l, hl with
    | [], _ => rfl
    | [_], hl => exact absurd rfl hl
    | _ :: _ :: _, _ => rfl
  have hpayload : s.takeControlPayload port tag l = s.refuseControl port tag := by
    unfold State.takeControlPayload
    rw [hread]
  rw [← hpayload]
  cases port <;> rfl

/-- On an actuator port, and while eight answers wait, such a frame is an arrival and nothing more (R181, R182). -/
theorem refuseControl_arrival {port : Port} (h : port ≠ .s ∨ 8 ≤ s.lp.acks.length) :
    s.refuseControl port tag = s.arrive port := if_pos (by rwa [State.arrive_lp_acks])

/-- On the S-port such a frame is BUSY with a warm reset pending, and else INVALID (R181, R188). -/
theorem refuseControl_answered (hfree : s.lp.acks.length < 8) : s.refuseControl .s tag =
    repliedTo tag (if s.lp.pendingReset then controlTurnedAway .busy 0xFF s.lp.control
      else controlTurnedAway .invalid 0 s.lp.control) s := by
  have hroom : ¬ (Port.s ≠ .s ∨ Config.ackDepth ≤ (s.arrive .s).lp.acks.length) := by
    rw [State.arrive_lp_acks]; exact not_or.2 ⟨fun h => h rfl, Nat.not_le.2 hfree⟩
  unfold State.refuseControl
  rw [if_neg hroom, State.arrive_lp_pendingReset, State.arrive_lp_control, controlBusy, controlInvalid,
    controlRefused_eq, controlRefused_eq]
  rfl

/-! ## ROLE and RESET (R181, R188) -/

theorem answerRole_full (hfull : 8 ≤ s.lp.acks.length) : s.answerRole tag = s.arrive .s :=
  if_pos (by rwa [State.arrive_lp_acks])

theorem answerRole_answered (hfree : s.lp.acks.length < 8) :
    s.answerRole tag = repliedTo tag (Answer.refuse .role) s :=
  if_neg (by rw [State.arrive_lp_acks]; exact Nat.not_le.2 hfree)

theorem exec_reset (htaken : Taken s) : exec (.reset tag (.fields ())) s =
    .next ((State.requestReset () (s.arrive .s)).1.answer tag (State.requestReset () (s.arrive .s)).2) :=
  congrArg Host.Outcome.next (takeRequest_taken tag () State.requestReset s htaken)

theorem requestReset_scanning (hscan : s.sq.st.inScan = true) :
    State.requestReset () s = (s, Answer.refuse .scanning) := if_pos hscan

theorem requestReset_busy (hscan : s.sq.st.inScan = false) (hstore : s.rs.inFlight ≠ none) :
    State.requestReset () s = (s, Answer.refuse .busy) :=
  (if_neg (Bool.eq_false_iff.1 hscan)).trans (if_pos (Option.isSome_iff_ne_none.2 hstore))

theorem requestReset_ok (hscan : s.sq.st.inScan = false) (hstore : s.rs.inFlight = none) :
    State.requestReset () s = (s.setLp { s.lp with pendingReset := true }, Answer.ok []) :=
  (if_neg (Bool.eq_false_iff.1 hscan)).trans (if_neg (by rw [hstore]; exact Bool.false_ne_true))

end

/-- Settles O35: each frame is judged on the state after its arrival, which leaves the answers that wait, the pending
reset and the control word. -/
theorem requestsTurnedAwayAndReset : Obligations.RequestsTurnedAwayAndReset := by
  intro c tag s
  refine ⟨fun hc => ?_, fun w hc => ?_, fun port l hl => ?_, fun hfull => ?_, fun hfree => ?_, fun htaken hscan => ?_,
    fun htaken hscan hstore => ?_, fun htaken hscan hstore => ?_⟩
  · obtain ⟨α, p, rule, hexec, hwrong, -⟩ := exec_of_requestTag hc
    rw [hexec]
    refine ⟨fun hfull => ?_, fun hfree hreset => ?_, fun htaken hlength => ?_⟩
    · rw [takeRequest_full tag p rule s hfull]
    · rw [takeRequest_pending tag p rule s hfree hreset]
    · rw [hwrong hlength, takeRequest_wrong tag rule s htaken]
  · rw [exec_of_carriedWord hc]
    exact ⟨fun hfull => by rw [takeControl_full w hfull],
      fun hfree hreset => by rw [takeControl_busy w hfree hreset]⟩
  · rw [takeFrame_control_wrong hl, takeFrame_control_wrong hl]
    refine ⟨refuseControl_arrival, fun _ hfree hreset => ?_, fun _ ⟨hfree, hreset⟩ => ?_⟩
    · rw [refuseControl_answered hfree, if_pos hreset]
    · rw [refuseControl_answered hfree, if_neg (Bool.eq_false_iff.1 hreset)]
  · exact congrArg Host.Outcome.next (answerRole_full hfull)
  · exact congrArg Host.Outcome.next (answerRole_answered hfree)
  · rw [exec_reset htaken, requestReset_scanning (by rwa [State.arrive_sq])]
    rfl
  · rw [exec_reset htaken, requestReset_busy (by rwa [State.arrive_sq]) (by rwa [State.arrive_rs])]
    rfl
  · rw [exec_reset htaken, requestReset_ok (by rwa [State.arrive_sq]) (by rwa [State.arrive_rs])]

end Sys2Proof.Machine
end

section
/-! PROOF. A warm reset: when it is taken, and what it keeps (O7). -/

namespace Sys2Proof.Machine

/-! ## The recipe store through a reset (R39, R46, R47, R48) -/

/-- The option block in force after a reset is chosen by the greater write number (R46). -/
theorem chooseOptions_eq (a b : OptionCopy) : chooseOptions a b =
    if a.checkAgrees && b.checkAgrees then if secondIsGreater a b then b.options else a.options
    else if a.checkAgrees then a.options
    else if b.checkAgrees then b.options
    else { protectedCount := 0, loss := .hold, startUp := none } := by
  have hgreater : writeGreater b.writeNumber a.writeNumber = secondIsGreater a b :=
    (Bool.decide_and _ _).symm
  unfold chooseOptions
  rw [hgreater]
  rfl

/-- The start-up load, begun on a store that works at nothing, restarts it at the present instant (R46, R47). -/
theorem startUpLoad_restarted (s : State) (hchosen : s.rs.inForce = chooseOptions s.rs.copy1 s.rs.copy2)
    (hidle : s.rs.inFlight = none) : StoreRestarted s.cu.cellTime s.startUpLoad.rs := by
  obtain ⟨hslots, hcopy1, hcopy2, hforce⟩ := startUpLoad_store s
  unfold StoreRestarted
  rw [hslots, hcopy1, hcopy2, hforce]
  refine ⟨fun h1 h2 => ?_, fun h1 h2 => ?_, fun h1 h2 => ?_, fun h1 h2 => ?_, fun hnone => ?_,
    fun k hslot hvalid => ?_, fun k hslot hvalid => ?_⟩
  iterate 4 rw [hchosen, chooseOptions_eq, h1, h2]; rfl
  · rw [startUpLoad_none s hnone]
    exact ⟨rfl, hidle⟩
  · rw [startUpLoad_failed s k hslot hvalid]
    exact ⟨rfl, hidle⟩
  · rw [startUpLoad_valid s k hslot hvalid]
    exact ⟨rfl, rfl⟩

/-! ## The blocks after a warm reset -/

/-- The lines after a reset read what the outside drives (R163, R176). -/
theorem lu_resetValue (pins : Vector PinDrive 8) : Lu.resetValue pins = luAfterReset pins := by
  have hline : Line.resetValue = fun d => { Line.resetValue d with filtered := d == .high } :=
    funext fun d => congrArg (fun b : Bool => { Line.resetValue d with filtered := b }) (pinReads_without_pullUp d)
  unfold Lu.resetValue
  rw [hline]
  rfl

section
variable (s : State)

/-- What a warm reset makes of every block before the start-up load (R25, R94, R188). -/
def warmBlocks : State :=
  s.blocksReset s.now s.sq.scanNumber s.cu.phase (s.lu.lines.map (·.drive)) s.sq.railMv s.rs

theorem warmReset_eq : s.warmReset = (warmBlocks s).startUpLoad := rfl

theorem warmReset_cu : s.warmReset.cu = cuAfterReset s.cu.cellTime s.cu.phase := State.startUpLoad_cu _

theorem warmReset_zt : s.warmReset.zt = { bankA := emptyBank, bankB := emptyBank, active := .a } :=
  State.startUpLoad_zt _

theorem warmReset_pe : s.warmReset.pe = peAfterReset s.cu.cellTime := State.startUpLoad_pe _

theorem warmReset_stk : s.warmReset.stk = stkAfterReset := State.startUpLoad_stk _

theorem warmReset_lp : s.warmReset.lp = linksAfterReset := State.startUpLoad_lp _

theorem warmReset_lu : s.warmReset.lu = luAfterReset (s.lu.lines.map (·.drive)) :=
  (State.startUpLoad_lu _).trans (lu_resetValue _)

/-- The sequencer's block; a rail between the two thresholds leaves the indication open (assumption 13). -/
theorem warmReset_sq : s.warmReset.sq = sqAfterReset s.sq.scanNumber s.sq.railMv
    ((State.supplyFound s.sq.railMv).getD (Config.freeSupplyLow s.freeCount)) := State.startUpLoad_sq _

/-- The slots keep their images and checks, the option copies stay, and the store restarts (R39, R46 to R48). -/
theorem warmReset_rs : (∀ k : SlotNo, s.warmReset.rs.slots[k] = judgedSlot s.rs.slots[k]) ∧
    s.warmReset.rs.copy1 = s.rs.copy1 ∧ s.warmReset.rs.copy2 = s.rs.copy2 ∧
    StoreRestarted s.cu.cellTime s.warmReset.rs := by
  obtain ⟨hslots, hcopy1, hcopy2, -⟩ := startUpLoad_store (warmBlocks s)
  refine ⟨fun k => ?_, hcopy1, hcopy2, startUpLoad_restarted (warmBlocks s) rfl rfl⟩
  rw [warmReset_eq, hslots]
  exact storeReset_slot s.rs k

end

/-- Settles O7, block by block. -/
theorem warmResetKeeps : Obligations.WarmResetKeeps := by
  intro s
  refine ⟨fun hnotDue => ?_, fun hpending hacks hsending => ?_⟩
  · exact congrArg Host.Outcome.next (if_neg (mt (resetDue_iff s).1 hnotDue))
  · have hdue : s.resetDue = true := (resetDue_iff s).2 ⟨hpending, hacks, hsending⟩
    have hexec : exec .warmReset s = .next s.warmReset := congrArg Host.Outcome.next (if_pos hdue)
    have hsq := warmReset_sq s
    have hlow (h : s.sq.railMv < 4500) : s.warmReset.sq.supplyLow = true := by
      rw [hsq, supplyFound_low _ h]; rfl
    have hgood (h : 4600 ≤ s.sq.railMv) : s.warmReset.sq.supplyLow = false := by
      rw [hsq, supplyFound_good _ h]; rfl
    have hkept : s.warmReset.sq = sqAfterReset s.sq.scanNumber s.sq.railMv s.warmReset.sq.supplyLow := by
      rw [hsq]; rfl
    obtain ⟨hslots, hcopy1, hcopy2, hrestarted⟩ := warmReset_rs s
    exact ⟨_, hexec, warmReset_cu s, hkept, hlow, hgood, warmReset_pe s, warmReset_stk s, warmReset_lp s,
      warmReset_lu s, warmReset_zt s, hslots, hcopy1, hcopy2, hrestarted, s.warmReset_pending⟩

end Sys2Proof.Machine
end

section
/-! PROOF. The receiver's phases (O50), and a whole frame through them to the rule of its kind (O54). -/

namespace Sys2Proof.Machine

/-! ## The receiver of a port (R177, R179) -/

section
variable {port : Port} {s : State}

@[simp] theorem setRx_port (port : Port) (rx : RxPhase) (gap : Option Nat) (s : State) :
    (s.setRx port rx gap).lp.port port = { s.lp.port port with rx := rx, gap := gap } := Lp.port_setPort _ _ _

@[simp] theorem setRx_setRx (port : Port) (rx rx' : RxPhase) (gap gap' : Option Nat) (s : State) :
    (s.setRx port rx gap).setRx port rx' gap' = s.setRx port rx' gap' := by
  show s.setLp (Lp.setPort (Lp.setPort s.lp _ port) _ port) = _
  rw [setRx_port, Lp.setPort_setPort]
  rfl

/-- The port in a phase, its gap restarted at the present instant (R179). -/
def receiving (port : Port) (rx : RxPhase) (s : State) : State := s.setRx port rx (some (s.cu.cellTime + 20))

@[simp] theorem receiving_rx (port : Port) (rx : RxPhase) (s : State) :
    ((receiving port rx s).lp.port port).rx = rx := by simp [receiving]

@[simp] theorem receiving_receiving (port : Port) (rx rx' : RxPhase) (s : State) :
    receiving port rx' (receiving port rx s) = receiving port rx' s := by simp [receiving]

/-! ## What each phase makes of a character -/

section
variable {c k t : Byte} {n : Nat} {got : List Byte}

theorem goodCharacter_hunt_other (hrx : (s.lp.port port).rx = .hunt) (hc : c ≠ 0x5A) :
    s.goodCharacter port c = s := by
  unfold State.goodCharacter
  rw [hrx]
  exact if_neg hc

theorem goodCharacter_delimiter (hrx : (s.lp.port port).rx = .hunt) :
    s.goodCharacter port 0x5A = receiving port (.header []) s := by
  unfold State.goodCharacter
  rw [hrx]
  rfl

theorem goodCharacter_kind (hrx : (s.lp.port port).rx = .header []) :
    s.goodCharacter port c = receiving port (.header [c]) s := by
  unfold State.goodCharacter
  rw [hrx]
  rfl

theorem goodCharacter_tag (hrx : (s.lp.port port).rx = .header [k]) :
    s.goodCharacter port c = receiving port (.header [k, c]) s := by
  unfold State.goodCharacter
  rw [hrx]
  rfl

/-- The third character of the header is the length. -/
theorem goodCharacter_length (hrx : (s.lp.port port).rx = .header [k, t]) (hc : c.toNat ≤ 48) :
    s.goodCharacter port c =
      receiving port (if c = 0 then .check k t [] none else .payload k t c.toNat []) s := by
  unfold State.goodCharacter
  rw [hrx]
  exact if_neg (Nat.not_lt.2 hc)

theorem goodCharacter_tooLong (hrx : (s.lp.port port).rx = .header [k, t]) (hc : 48 < c.toNat) :
    s.goodCharacter port c = s.discardFrame port := by
  unfold State.goodCharacter
  rw [hrx]
  exact if_pos hc

theorem goodCharacter_payload (hrx : (s.lp.port port).rx = .payload k t n got) :
    s.goodCharacter port c = receiving port
      (if got.length + 1 < n then .payload k t n (got ++ [c]) else .check k t (got ++ [c]) none) s := by
  unfold State.goodCharacter
  rw [hrx]
  exact (apply_ite (fun rx => receiving port rx s) _ _ _).symm

theorem goodCharacter_firstCheck (hrx : (s.lp.port port).rx = .check k t got none) :
    s.goodCharacter port c = receiving port (.check k t got (some c)) s := by
  unfold State.goodCharacter
  rw [hrx]
  rfl

theorem goodCharacter_secondCheck {c1 : Byte} (hrx : (s.lp.port port).rx = .check k t got (some c1)) :
    s.goodCharacter port c = s.endCheck port k t got c1 c := by
  unfold State.goodCharacter
  rw [hrx]

end

/-! ## Which frame is dropped -/

theorem endCheck_disagrees {k t c1 c2 : Byte} {l : List Byte}
    (hcheck : [c1, c2] ≠ beBytes 2 (crc16 ([k, t, BitVec.ofNat 8 l.length] ++ l)).toNat) :
    s.endCheck port k t l c1 c2 = s.discardFrame port := if_neg hcheck

theorem endCheck_agrees {k t c1 c2 : Byte} {l : List Byte}
    (hcheck : [c1, c2] = beBytes 2 (crc16 ([k, t, BitVec.ofNat 8 l.length] ++ l)).toNat) :
    s.endCheck port k t l c1 c2 = s.takeFrame port k t l := if_pos hcheck

theorem exec_goodCharacter (port : Port) (c : Byte) (s : State) :
    exec (.characterReceived port c true) s = .next (s.goodCharacter port c) := rfl

end

/-- Settles O50, phase by phase. -/
theorem receiverPhases : Obligations.ReceiverPhases := by
  intro port c k t n got s w put hunt
  have hput (rx : RxPhase) : put rx = .next (receiving port rx s) := rfl
  have hhunt : hunt = .next (s.discardFrame port) := rfl
  simp only [exec_goodCharacter, hput, hhunt]
  refine ⟨rfl, fun x hx hreached => ?_, rfl, fun hrx hc => ?_, fun hrx => ?_, fun hrx => ?_, fun hrx => ?_,
    fun hrx hc => ?_, fun hrx hc hlen => ?_, fun hrx hc => ?_, fun hrx hn => ?_, fun hrx hn => ?_, fun hrx => ?_,
    fun c1 hrx hcheck => ?_⟩
  · have hdue : reached (s.lp.port port).gap s.now = true := by rw [hx]; exact decide_eq_true hreached
    exact congrArg Host.Outcome.next (if_pos hdue)
  · rw [goodCharacter_hunt_other hrx hc]
  · rw [goodCharacter_delimiter hrx]
  · rw [goodCharacter_kind hrx]
  · rw [goodCharacter_tag hrx]
  · subst hc
    rw [goodCharacter_length hrx (Nat.zero_le _), if_pos rfl]
  · rw [goodCharacter_length hrx hlen, if_neg hc]
  · rw [goodCharacter_tooLong hrx hc]
  · rw [goodCharacter_payload hrx, if_pos hn]
  · rw [goodCharacter_payload hrx, if_neg (by omega)]
  · rw [goodCharacter_firstCheck hrx]
  · rw [goodCharacter_secondCheck hrx, endCheck_disagrees hcheck]

/-! ## A whole frame, character by character (R178, R179) -/

section
variable {port : Port} {s : State}

@[simp] theorem feed_cons (port : Port) (c : Byte) (rest : List Byte) (s : State) :
    feed port (c :: rest) s = feed port rest (s.goodCharacter port c) := rfl

/-- The characters of a payload that is not complete, and then those that follow it. -/
theorem feed_payload (k t : Byte) (rest got more : List Byte) (s : State) (hrest : rest ≠ [])
    (hrx : (s.lp.port port).rx = .payload k t (got.length + rest.length) got) :
    feed port (rest ++ more) s = feed port more (receiving port (.check k t (got ++ rest) none) s) := by
  induction rest generalizing got s with
  | nil => exact absurd rfl hrest
  | cons c rest ih =>
    rw [List.cons_append, feed_cons, goodCharacter_payload hrx]
    cases rest with
    | nil => rw [if_neg (by simp)]; rfl
    | cons d rest =>
      have hstep := ih (got ++ [c])
        (receiving port (.payload k t (got.length + (c :: d :: rest).length) (got ++ [c])) s)
        (List.cons_ne_nil _ _) (by
          rw [receiving_rx, List.length_append, List.length_singleton, List.length_cons (a := c), Nat.add_assoc,
            Nat.add_comm 1])
      rw [if_pos (by simp), hstep, receiving_receiving, List.append_assoc]
      rfl

/-- The delimiter and the header of a frame on a hunting port, and then the characters that follow them. -/
theorem feed_header (k t len : Byte) (more : List Byte) (hhunt : (s.lp.port port).rx = .hunt)
    (hlen : len.toNat ≤ 48) : feed port (0x5A :: k :: t :: len :: more) s = feed port more
      (receiving port (if len = 0 then .check k t [] none else .payload k t len.toNat []) s) := by
  rw [feed_cons, goodCharacter_delimiter hhunt, feed_cons, goodCharacter_kind (receiving_rx _ _ _),
    receiving_receiving, feed_cons, goodCharacter_tag (receiving_rx _ _ _), receiving_receiving, feed_cons,
    goodCharacter_length (receiving_rx _ _ _) hlen, receiving_receiving]

/-- The delimiter, the header and the payload of a frame on a hunting port leave it waiting for the check. -/
theorem feed_body (k t : Byte) (l more : List Byte) (hhunt : (s.lp.port port).rx = .hunt) (hl : l.length ≤ 48) :
    feed port (0x5A :: k :: t :: BitVec.ofNat 8 l.length :: (l ++ more)) s =
      feed port more (receiving port (.check k t l none) s) := by
  have hlength : (BitVec.ofNat 8 l.length).toNat = l.length :=
    (BitVec.toNat_ofNat _ _).trans (Nat.mod_eq_of_lt (by omega))
  rw [feed_header k t _ (l ++ more) hhunt (by omega), hlength]
  cases l with
  | nil => rfl
  | cons c rest =>
    have hzero : BitVec.ofNat 8 (c :: rest).length ≠ 0 := fun h => by
      rw [h] at hlength; exact absurd hlength (Nat.succ_ne_zero _).symm
    rw [if_neg hzero, feed_payload k t (c :: rest) [] more _ (List.cons_ne_nil _ _) (by simp), receiving_receiving]
    rfl

/-- The two check characters of a frame whose check agrees. -/
theorem feed_check {k t : Byte} {l check : List Byte} (hrx : (s.lp.port port).rx = .check k t l none)
    (hcheck : check = beBytes 2 (crc16 ([k, t, BitVec.ofNat 8 l.length] ++ l)).toNat) :
    ∃ c1, feed port check s = some ((receiving port (.check k t l (some c1)) s).takeFrame port k t l) := by
  match check, hcheck with
  | [c1, c2], hcheck =>
    refine ⟨c1, ?_⟩
    rw [feed_cons, goodCharacter_firstCheck hrx, feed_cons, goodCharacter_secondCheck (receiving_rx _ _ _),
      endCheck_agrees hcheck]
    rfl

/-! ## A frame is taken from its arrival on (R146, R181) -/

/-- An arrival ends the frame in progress, so that the receiver before it does not matter (R179). -/
theorem arrive_setRx (port : Port) (rx : RxPhase) (gap : Option Nat) (s : State) :
    (s.setRx port rx gap).arrive port = s.arrive port := by
  have hlp : (s.setRx port rx gap).lp.arrive s.sendInput s.notice port = s.lp.arrive s.sendInput s.notice port := by
    unfold Lp.arrive
    rw [setRx_port]
    have hport : (s.setRx port rx gap).lp.setPort (PortState.arrive s.sendInput.now (s.lp.port port)) port =
        s.lp.setPort (PortState.arrive s.sendInput.now (s.lp.port port)) port := Lp.setPort_setPort _ _ _ _
    simp only [PortState.arrive] at hport ⊢
    rw [hport]
  exact congrArg s.setLp hlp

theorem takeControlPayload_of_arrive {u : State} {port : Port} (tag : Byte) (l : List Byte)
    (h : s.arrive port = u.arrive port) : s.takeControlPayload port tag l = u.takeControlPayload port tag l := by
  unfold State.takeControlPayload
  split
  · unfold State.takeControl
    split
    · next hport => subst hport; rw [h]
    · rw [h]
  · unfold State.refuseControl
    rw [h]

theorem takeSupervisor_of_arrive {u : State} (k : FrameKind) (tag : Byte) (l : List Byte)
    (h : s.arrive .s = u.arrive .s) : s.takeSupervisor k tag l = u.takeSupervisor k tag l := by
  cases k with
  | control => exact takeControlPayload_of_arrive tag l h
  | powerReport | driveStatus | quenchReport | sentByPart =>
    show s.answerRole tag = u.answerRole tag
    unfold State.answerRole
    rw [h]
  | _ => exact congrArg (judgeRequest tag _ _) h

/-- The rule that a frame reaches reads the state after its arrival alone (R146, R181). -/
theorem takeFrame_of_arrive {u : State} (port : Port) (kind tag : Byte) (l : List Byte)
    (h : s.arrive port = u.arrive port) : s.takeFrame port kind tag l = u.takeFrame port kind tag l := by
  unfold State.takeFrame
  split
  · exact h
  · exact takeSupervisor_of_arrive _ tag l h
  · exact takeControlPayload_of_arrive tag l h
  · unfold State.powerReport; rw [h]
  · unfold State.driveStatus; rw [h]
  · unfold State.quenchReport; rw [h]
  · exact h

/-- A frame received on a hunting port, character by character, is taken on the state before it. -/
theorem feed_frame (port : Port) (kind tag : Byte) (l : List Byte) (s : State)
    (hhunt : (s.lp.port port).rx = .hunt) (hl : l.length ≤ 48) :
    feed port (frameChars kind tag l) s = some (s.takeFrame port kind tag l) := by
  let check := beBytes 2 (crc16 ([kind, tag, BitVec.ofNat 8 l.length] ++ l)).toNat
  obtain ⟨c1, hfeed⟩ := feed_check (receiving_rx port (.check kind tag l none) s) (rfl : check = _)
  calc feed port (frameChars kind tag l) s
      = feed port check (receiving port (.check kind tag l none) s) := feed_body kind tag l check hhunt hl
    _ = some ((receiving port (.check kind tag l (some c1)) s).takeFrame port kind tag l) := by
        rw [hfeed, receiving_receiving]
    _ = some (s.takeFrame port kind tag l) :=
        congrArg some (takeFrame_of_arrive port kind tag l (arrive_setRx _ _ _ _))

end

/-! ## Each kind's code is its command (R181, R191) -/

section
variable {port : Port} {kind tag : Byte} {l : List Byte} {c : Instr} {s : State}

theorem eq_ofNat_of_toNat_eq {n : Nat} (h : kind.toNat = n) : kind = BitVec.ofNat 8 n := by
  rw [← h, BitVec.ofNat_toNat, BitVec.setWidth_eq]

/-- A CONTROL frame of a wrong length is no row on the S-port, and an arrival elsewhere (R181). -/
theorem exec_wrongControl (hl : l.length ≠ 1)
    (hc : (if port = .s then none else some (.discardedKindArrival port)) = some c) :
    exec c s = .next (s.takeFrame port 0x10 tag l) := by
  split at hc
  · cases hc
  · next hport =>
    cases hc
    rw [takeFrame_control_wrong hl, refuseControl_arrival (.inl hport)]
    rfl

/-- A CONTROL frame is the row that its hold field of the S-port makes it (assumption 6); of a wrong length it is an
arrival on an actuator port (R181). -/
theorem exec_controlFrame (hc : frameCommand port 0x10 tag l = some c) :
    exec c s = .next (s.takeFrame port 0x10 tag l) := by
  match l, hc with
  | [b], hc =>
    have hframe : s.takeFrame port 0x10 tag [b] = s.takeControl port tag (wordOf b) := by cases port <;> rfl
    have hword : carriedWord c = some (port, tag, wordOf b) := by
      cases hc
      cases hhold : (wordOf b).holdS with
      | true => exact congrArg (fun v => some (port, tag, { wordOf b with holdS := v })) hhold.symm
      | false => exact congrArg (fun v => some (port, tag, { wordOf b with holdS := v })) hhold.symm
    rw [hframe, exec_of_carriedWord hword]
  | [], hc => exact exec_wrongControl (by decide) hc
  | _ :: _ :: _, hc => exact exec_wrongControl (Nat.succ_succ_ne_one _) hc

/-- The kinds of the S-port alone: the request of that kind there, and elsewhere an arrival and nothing more (R181). -/
theorem exec_supervisorFrame {k : FrameKind} {request : Instr} (hk : FrameKind.ofCode kind = some k)
    (hrole : k ≠ .control ∧ k ≠ .powerReport ∧ k ≠ .driveStatus ∧ k ≠ .quenchReport)
    (hrequest : exec request s = .next (s.takeSupervisor k tag l))
    (hc : (if port = .s then some request else some (.discardedKindArrival port)) = some c) :
    exec c s = .next (s.takeFrame port kind tag l) := by
  obtain ⟨hcontrol, hpower, hdrive, hquench⟩ := hrole
  by_cases hport : port = .s
  · subst hport
    cases hc
    rw [hrequest]
    unfold State.takeFrame
    rw [hk]
  · have harrival : s.takeFrame port kind tag l = s.arrive port := by
      unfold State.takeFrame
      rw [hk]
      split <;> simp_all
    cases (if_neg hport).symm.trans hc
    rw [harrival]
    rfl

/-- A code that is not in the table is an arrival and nothing more (R181, R191). -/
theorem exec_unknownFrame (hk : FrameKind.ofCode kind = none) (hc : frameCommand port kind tag l = some c) :
    exec c s = .next (s.takeFrame port kind tag l) := by
  have hdiscarded : frameCommand port kind tag l = some (.discardedKindArrival port) := by
    unfold FrameKind.ofCode at hk
    split at hk
    iterate 29 cases hk
    simp [frameCommand, *]
  cases hdiscarded.symm.trans hc
  unfold State.takeFrame
  rw [hk]
  rfl

end

/-- Settles O54: the command of each code, and the frame's characters through the receiver's phases. -/
theorem frameReachesItsKind : Obligations.FrameReachesItsKind := by
  refine ⟨fun port kind tag l c s hc => ?_, fun port kind tag l s => feed_frame port kind tag l s⟩
  cases hk : FrameKind.ofCode kind with
  | none => exact exec_unknownFrame hk hc
  | some k =>
    unfold FrameKind.ofCode at hk
    split at hk
    · next hcode =>
      obtain rfl := eq_ofNat_of_toNat_eq hcode
      exact exec_controlFrame hc
    iterate 25
      next hcode =>
        obtain rfl := eq_ofNat_of_toNat_eq hcode
        exact exec_supervisorFrame rfl (by decide) rfl hc
    iterate 3
      next hcode =>
        obtain rfl := eq_ofNat_of_toNat_eq hcode
        cases port <;> cases hc <;> rfl
    · cases hk

end Sys2Proof.Machine
end

section
/-! PROOF. The payloads of requests and reports read back as they were written (O55). A reading cuts a payload into
fields of fixed widths; each kind of field reads back for itself, and the fields in a row cut as they were joined. -/

namespace Sys2Proof.Machine

/-! ## Numbers (R190) -/

theorem foldl_bytes (acc : Nat) (l : List Byte) :
    l.foldl (fun a b => a * 256 + b.toNat) acc = acc * 256 ^ l.length + natOf l := by
  induction l generalizing acc with
  | nil => simp [natOf]
  | cons b l ih =>
    have hb := ih b.toNat
    rw [natOf, List.foldl_cons, List.foldl_cons, ih, Nat.zero_mul, Nat.zero_add, hb, List.length_cons, Nat.pow_succ,
      Nat.add_mul, Nat.mul_assoc, Nat.mul_comm 256, Nat.add_assoc]

theorem natOf_cons (b : Byte) (l : List Byte) : natOf (b :: l) = b.toNat * 256 ^ l.length + natOf l := by
  rw [natOf, List.foldl_cons, foldl_bytes, Nat.zero_mul, Nat.zero_add]

theorem natOf_lt (l : List Byte) : natOf l < 256 ^ l.length := by
  induction l with
  | nil => exact Nat.one_pos
  | cons b l ih =>
    have hb : b.toNat + 1 ≤ 256 := b.isLt
    have hpow := Nat.mul_le_mul_right (256 ^ l.length) hb
    rw [Nat.add_mul] at hpow
    rw [natOf_cons, List.length_cons, Nat.pow_succ]
    omega

/-- A number reads back, but for what does not fit the width. -/
theorem natOf_beBytes (n v : Nat) : natOf (beBytes n v) = v % 256 ^ n := by
  induction n with
  | zero => exact (Nat.mod_one v).symm
  | succ n ih =>
    have hmod : v % (256 ^ n * 256) = v % 256 ^ n + 256 ^ n * (v / 256 ^ n % 256) := Nat.mod_mul
    have hbyte : (BitVec.ofNat 8 (v / 256 ^ n)).toNat = v / 256 ^ n % 256 := BitVec.toNat_ofNat _ _
    rw [beBytes, natOf_cons, ih, beBytes_length, hbyte, Nat.pow_succ, hmod, Nat.add_comm, Nat.mul_comm]

theorem natOf_beBytes_of_fits {n v : Nat} (h : fitsU n v = true) : natOf (beBytes n v) = v := by
  rw [natOf_beBytes, Nat.mod_eq_of_lt (of_decide_eq_true h)]

theorem intOf_beInt_of_fits {n : Nat} {v : Int} (h : fitsS n v = true) : intOf (beInt n v) = v := by
  obtain ⟨hlow, hhigh⟩ := (Bool.and_eq_true _ _).mp h
  have hlow := of_decide_eq_true hlow
  have hhigh := of_decide_eq_true hhigh
  have hpos : (0 : Int) < ((256 ^ n : Nat) : Int) :=
    Int.natCast_pos.2 (Nat.pow_pos (by decide))
  have hnat : ((v % (256 ^ n : Nat)).toNat : Int) = v % (256 ^ n : Nat) :=
    Int.toNat_of_nonneg (Int.emod_nonneg _ (by omega))
  have hlt := Int.emod_lt_of_pos v hpos
  unfold intOf beInt
  rw [natOf_beBytes, beBytes_length, Nat.mod_eq_of_lt (by omega)]
  dsimp only
  generalize 256 ^ n = m at *
  by_cases hneg : v < 0
  · have hmod : v % m = v + m := by
      rw [← Int.add_emod_right, Int.emod_eq_of_lt (by omega) (by omega)]
    rw [if_neg (by omega), hnat, hmod, Int.add_sub_cancel]
  · have hmod : v % m = v := Int.emod_eq_of_lt (by omega) (by omega)
    rw [if_pos (by omega), hnat, hmod]

/-- FF in every byte is the greatest number of the width. -/
theorem all_ff_iff (l : List Byte) : l.all (· == 0xFF) = true ↔ natOf l = 256 ^ l.length - 1 := by
  induction l with
  | nil => simp [natOf]
  | cons b l ih =>
    have hb := b.isLt
    have hl := natOf_lt l
    have hff : b = 0xFF ↔ b.toNat = 255 := BitVec.toNat_inj.symm
    rw [List.all_cons, Bool.and_eq_true, ih, beq_iff_eq, hff, natOf_cons, List.length_cons, Nat.pow_succ]
    constructor
    · rintro ⟨h1, h2⟩
      rw [h1, h2]
      omega
    · intro h
      have h255 : b.toNat = 255 := by
        refine Decidable.byContradiction fun hne => ?_
        have hpow := Nat.mul_le_mul_right (256 ^ l.length) (show b.toNat + 1 ≤ 255 by omega)
        rw [Nat.add_mul] at hpow
        omega
      rw [h255] at h
      omega

theorem optOf_eq (l : List Byte) : optOf l = if natOf l = 256 ^ l.length - 1 then none else some (natOf l) := by
  unfold optOf
  by_cases h : natOf l = 256 ^ l.length - 1
  · rw [if_pos ((all_ff_iff l).2 h), if_pos h]
  · rw [if_neg (mt (all_ff_iff l).1 h), if_neg h]

/-- A field that may be absent reads back, but for the number that stands for absent. -/
theorem optOf_beOpt {n : Nat} {v : Option Nat} (h : fitsOptU n v = true) (hwhole : v ≠ some (256 ^ n - 1)) :
    optOf (beOpt n v) = v := by
  cases v with
  | none => exact if_pos (by simp [beOpt])
  | some v =>
    have hv : natOf (beBytes n v) = v := natOf_beBytes_of_fits h
    show optOf (beBytes n v) = some v
    rw [optOf_eq, hv, beBytes_length, if_neg fun e => hwhole (congrArg some e)]

/-! ## Cutting a payload into fields (R192) -/

@[simp] theorem beInt_length (n : Nat) (v : Int) : (beInt n v).length = n := beBytes_length _ _

theorem cutFields_cons {w : Nat} {ws : List Nat} {f rest : List Byte} (hf : f.length = w) :
    cutFields (w :: ws) (f ++ rest) = (cutFields ws rest).map (f :: ·) := by
  subst hf
  rw [cutFields, if_neg (by simp), List.take_left, List.drop_left]

theorem cutFields_last {w : Nat} {f : List Byte} (hf : f.length = w) : cutFields [w] f = some [f] := by
  calc cutFields [w] f = cutFields [w] (f ++ []) := by rw [List.append_nil]
    _ = some [f] := cutFields_cons hf

/-- A payload cuts exactly where its length is the sum of the widths. -/
theorem cutFields_isSome (ws : List Nat) (l : List Byte) : (cutFields ws l).isSome = true ↔ l.length = ws.sum := by
  induction ws generalizing l with
  | nil => cases l <;> simp [cutFields]
  | cons w ws ih =>
    unfold cutFields
    split
    · exact iff_of_false Bool.false_ne_true (by rw [List.sum_cons]; omega)
    · rw [Option.isSome_map, ih, List.length_drop, List.sum_cons]; omega

/-- A payload that cuts has as many fields as there are widths. -/
theorem length_of_cutFields {ws : List Nat} {l : List Byte} {fs : List (List Byte)}
    (h : cutFields ws l = some fs) : fs.length = ws.length := by
  induction ws generalizing l fs with
  | nil => cases l <;> cases h; rfl
  | cons w ws ih =>
    unfold cutFields at h
    split at h
    · cases h
    · obtain ⟨gs, hgs, rfl⟩ := Option.map_eq_some_iff.1 h
      rw [List.length_cons, List.length_cons, ih hgs]

/-- A reading that takes every payload that cuts, and no other, refuses exactly the other lengths. -/
theorem wrongLength_iff {α : Type} {ws : List Nat} {l : List Byte} {p : Payload α}
    (hrefused : cutFields ws l = none → p = .wrongLength)
    (htaken : ∀ fs, fs.length = ws.length → cutFields ws l = some fs → p ≠ .wrongLength) :
    p = .wrongLength ↔ l.length ≠ ws.sum := by
  rw [Ne, ← cutFields_isSome]
  cases hcut : cutFields ws l with
  | none => exact iff_of_true (hrefused hcut) Bool.false_ne_true
  | some fs => exact iff_of_false (htaken fs (length_of_cutFields hcut) hcut) fun h => h rfl

/-! ## The lengths that are taken (R181, R192) -/

section
variable (l : List Byte)

theorem readHeader1_wrongLength : readHeader1 l = .wrongLength ↔ l.length ≠ 43 :=
  wrongLength_iff (ws := header1Widths) (fun hcut => by rw [readHeader1, hcut]) fun fs hlen hcut => by
    match fs, hlen with
    | [_, _, _, _, _, _, _, _, _, _, _, _, _, _, _, _, _, _, _, _], _ => rw [readHeader1, hcut]; nofun

theorem readHeader2_wrongLength : readHeader2 l = .wrongLength ↔ l.length ≠ 26 :=
  wrongLength_iff (ws := header2Widths) (fun hcut => by rw [readHeader2, hcut]) fun fs hlen hcut => by
    match fs, hlen with
    | [_, _, _, _, _, _, _, _, _, _, _], _ => rw [readHeader2, hcut]; nofun

theorem readZoneWrite_wrongLength : readZoneWrite l = .wrongLength ↔ l.length ≠ 25 :=
  wrongLength_iff (ws := zoneWidths) (fun hcut => by rw [readZoneWrite, hcut]) fun fs hlen hcut => by
    match fs, hlen with
    | [_, _, _, _, _, _, _, _, _, _, _, _], _ => rw [readZoneWrite, hcut]; nofun

theorem readPositionWrite_wrongLength : readPositionWrite l = .wrongLength ↔ l.length ≠ 20 :=
  wrongLength_iff (ws := [1, 4, 4, 1, 1, 1, 4, 4]) (fun hcut => by rw [readPositionWrite, hcut]) fun fs hlen hcut => by
    match fs, hlen with
    | [_, _, _, _, _, _, _, _], _ => rw [readPositionWrite, hcut]; nofun

theorem readLineWrite_wrongLength : readLineWrite l = .wrongLength ↔ l.length ≠ 11 :=
  wrongLength_iff (ws := [1, 1, 1, 1, 2, 2, 1, 1, 1]) (fun hcut => by rw [readLineWrite, hcut]) fun fs hlen hcut => by
    match fs, hlen with
    | [_, _, _, _, _, _, _, _, _], _ => rw [readLineWrite, hcut]; nofun

theorem readMarkWrite_wrongLength : readMarkWrite l = .wrongLength ↔ l.length ≠ 14 :=
  wrongLength_iff (ws := [1, 1, 4, 1, 4, 2, 1]) (fun hcut => by rw [readMarkWrite, hcut]) fun fs hlen hcut => by
    match fs, hlen with
    | [_, _, _, _, _, _, _], _ => rw [readMarkWrite, hcut]; nofun

theorem readOptionsWrite_wrongLength : readOptionsWrite l = .wrongLength ↔ l.length ≠ 4 :=
  wrongLength_iff (ws := [2, 1, 1]) (fun hcut => by rw [readOptionsWrite, hcut]) fun fs hlen hcut => by
    match fs, hlen with
    | [_, _, _], _ => rw [readOptionsWrite, hcut]; nofun

theorem readPowerReport_wrongLength : readPowerReport l = .wrongLength ↔ l.length ≠ 7 :=
  wrongLength_iff (ws := [4, 2, 1]) (fun hcut => by rw [readPowerReport, hcut]) fun fs hlen hcut => by
    match fs, hlen with
    | [_, _, _], _ => rw [readPowerReport, hcut]; nofun

theorem readQuenchReport_wrongLength : readQuenchReport l = .wrongLength ↔ l.length ≠ 6 :=
  wrongLength_iff (ws := [2, 2, 2]) (fun hcut => by rw [readQuenchReport, hcut]) fun fs hlen hcut => by
    match fs, hlen with
    | [_, _, _], _ => rw [readQuenchReport, hcut]; nofun

theorem readNothing_wrongLength : readNothing l = .wrongLength ↔ l.length ≠ 0 := by
  cases l <;> simp [readNothing]

theorem readByte_wrongLength : readByte l = .wrongLength ↔ l.length ≠ 1 := by
  match l with
  | [] | [_] | _ :: _ :: _ => simp [readByte]

theorem readControl_wrongLength : readControl l = .wrongLength ↔ l.length ≠ 1 := by
  match l with
  | [] | [_] | _ :: _ :: _ => simp [readControl]

theorem readLineLevels_wrongLength : readLineLevels l = .wrongLength ↔ l.length ≠ 2 := by
  match l with
  | [] | [_] | [_, _] | _ :: _ :: _ :: _ => simp [readLineLevels]

theorem readZoneRead_wrongLength : readZoneRead l = .wrongLength ↔ l.length ≠ 3 := by
  match l with
  | [] | [_] | [_, _] | [_, _, _] | _ :: _ :: _ :: _ :: _ => simp [readZoneRead]

end

/-! ## Each payload reads back (R185, R190, R192) -/

@[simp] theorem natOf_singleton (b : Byte) : natOf [b] = b.toNat := by simp [natOf]

theorem readHeaderWrite_one (l : List Byte) : readHeaderWrite (1 :: l) = readHeader1 l := rfl

theorem readHeaderWrite_two (l : List Byte) : readHeaderWrite (2 :: l) = readHeader2 l := rfl

theorem readHeaderWrite_part1 {h : HeaderPart1} (hwf : h.wf = true) :
    readHeaderWrite (1 :: HeaderPart1.bytes h) = .fields (.part1 h) := by
  simp only [HeaderPart1.wf, Bool.and_eq_true] at hwf
  rw [readHeaderWrite_one]
  -- the equation lemma of so long a chain of appends is too costly to make
  delta HeaderPart1.bytes
  simp only [readHeader1, header1Widths, List.append_assoc, cutFields_cons, cutFields_last, beBytes_length,
    Option.map_some, natOf_beBytes_of_fits, hwf]

theorem readHeaderWrite_part2 {h : HeaderPart2} (hwf : h.wf = true) :
    readHeaderWrite (2 :: HeaderPart2.bytes h) = .fields (.part2 h) := by
  simp only [HeaderPart2.wf, Bool.and_eq_true] at hwf
  rw [readHeaderWrite_two]
  delta HeaderPart2.bytes
  simp only [readHeader2, header2Widths, List.append_assoc, cutFields_cons, cutFields_last, beBytes_length,
    beInt_length, Option.map_some, natOf_beBytes_of_fits, intOf_beInt_of_fits, hwf]

theorem readZoneWrite_zoneBytes {w : ZoneWrite} (hwf : w.wf = true) (hwhole : NoneReadsAbsent w) :
    readZoneWrite (zoneBytes w) = .fields w := by
  simp only [ZoneWrite.wf, Bool.and_eq_true] at hwf
  simp only [NoneReadsAbsent, ne_eq, Nat.reducePow, Nat.reduceSub] at hwhole
  simp only [readZoneWrite, zoneBytes, zoneWidths, List.append_assoc, cutFields_cons, cutFields_last, beBytes_length,
    beOpt_length, List.length_singleton, Option.map_some, natOf_beBytes_of_fits, optOf_beOpt, natOf_singleton,
    BitVec.ofNat_toNat, BitVec.setWidth_eq, ne_eq, Nat.reducePow, Nat.reduceSub, not_false_eq_true, hwf, hwhole]

theorem readLineWrite_lineWriteBytes {w : LineWrite} (hwf : w.wf = true) (hwhole : LineReadsWhole w) :
    readLineWrite (lineWriteBytes w) = .fields w := by
  simp only [LineWrite.wf, Bool.and_eq_true] at hwf
  simp only [LineReadsWhole, ne_eq] at hwhole
  simp only [readLineWrite, lineWriteBytes, List.append_assoc, cutFields_cons, cutFields_last, beBytes_length,
    beOpt_length, Option.map_some, natOf_beBytes_of_fits, optOf_beOpt, ne_eq, Nat.reducePow, Nat.reduceSub,
    not_false_eq_true, hwf, hwhole]

theorem readMarkWrite_markWriteBytes {w : MarkWrite} (hwf : w.wf = true) (hwhole : w.addValue ≠ some (2 ^ 32 - 1)) :
    readMarkWrite (markWriteBytes w) = .fields w := by
  simp only [MarkWrite.wf, Bool.and_eq_true] at hwf
  simp only [ne_eq, Nat.reducePow, Nat.reduceSub] at hwhole
  simp only [readMarkWrite, markWriteBytes, List.append_assoc, cutFields_cons, cutFields_last, beBytes_length,
    beInt_length, beOpt_length, Option.map_some, natOf_beBytes_of_fits, intOf_beInt_of_fits, optOf_beOpt, ne_eq,
    Nat.reducePow, Nat.reduceSub, not_false_eq_true, hwf, hwhole]

theorem readOptionsWrite_bytes {w : OptionsWrite} (hwf : w.wf = true) (hwhole : w.startUp ≠ some 255) :
    readOptionsWrite (beBytes 2 w.protectedCount ++ beBytes 1 w.lossCode ++ beOpt 1 w.startUp) = .fields w := by
  simp only [OptionsWrite.wf, Bool.and_eq_true] at hwf
  simp only [readOptionsWrite, List.append_assoc, cutFields_cons, cutFields_last, beBytes_length, beOpt_length,
    Option.map_some, natOf_beBytes_of_fits, optOf_beOpt, ne_eq, Nat.reducePow, Nat.reduceSub, not_false_eq_true, hwf,
    hwhole]

theorem readPowerReport_bytes {r : PowerReport} (hwf : r.wf = true) :
    readPowerReport (beBytes 4 r.power ++ beBytes 2 r.interval ++ beBytes 1 r.stateCode) = .fields r := by
  simp only [PowerReport.wf, Bool.and_eq_true] at hwf
  simp only [readPowerReport, List.append_assoc, cutFields_cons, cutFields_last, beBytes_length, Option.map_some,
    natOf_beBytes_of_fits, hwf]

theorem readQuenchReport_bytes {r : QuenchReport} (hwf : r.wf = true) :
    readQuenchReport (beBytes 2 r.pressure ++ beBytes 2 r.flow ++ beInt 2 r.temperature) = .fields r := by
  simp only [QuenchReport.wf, Bool.and_eq_true] at hwf
  simp only [readQuenchReport, List.append_assoc, cutFields_cons, cutFields_last, beBytes_length, beInt_length,
    Option.map_some, natOf_beBytes_of_fits, intOf_beInt_of_fits, hwf]

theorem readZoneRead_bytes (bank pos part : Byte) : readZoneRead [bank, pos, part] = .fields
    { bankCode := bank.toNat, position := if pos = 0xFF then none else some pos.toNat, part := part.toNat } := by
  have hposition : optOf [pos] = if pos = 0xFF then none else some pos.toNat := by
    simp [optOf]
  exact congrArg (fun p => Payload.fields (ZoneRead.mk bank.toNat p part.toNat)) hposition

/-- The lines named by the mask, each with its bit of the level byte (R169). -/
theorem readLineLevels_bytes (mask levels : Byte) : ∃ l, readLineLevels [mask, levels] = .fields l ∧
    ∀ k v, (k, v) ∈ l ↔ k < 8 ∧ mask.getLsbD k = true ∧ v = levels.getLsbD k := by
  refine ⟨_, rfl, fun k v => ?_⟩
  simp only [List.mem_map, List.mem_filter, List.mem_range, Prod.mk.injEq]
  constructor
  · rintro ⟨j, ⟨hj, hmask⟩, rfl, rfl⟩
    exact ⟨hj, hmask, rfl⟩
  · rintro ⟨hk, hmask, rfl⟩
    exact ⟨k, ⟨hk, hmask⟩, rfl, rfl⟩

/-! ## WRITE_POSITION_CONFIG, whose fields stand by its flags (R7, R192, assumption 50) -/

theorem testBit_bitsToNat (l : List Bool) (k : Nat) : (bitsToNat l).testBit k = l.getD k false := by
  induction l generalizing k with
  | nil => simp [bitsToNat]
  | cons b l ih =>
    cases k with
    | zero => cases b <;> simp [bitsToNat, Nat.testBit_zero]
    | succ k =>
      have hhalf : (b.toNat + 2 * bitsToNat l) / 2 = bitsToNat l := by
        have hb : b.toNat ≤ 1 := Bool.toNat_le b
        omega
      rw [bitsToNat, Nat.testBit_succ, hhalf, ih, List.getD_cons_succ]

/-- A flag byte shows each of its flags. -/
theorem testBit_flagByte {l : List Bool} (hl : l.length = 8) (k : Nat) :
    (natOf [flagByte l]).testBit k = l.getD k false := by
  have hlt : bitsToNat l < 2 ^ 8 := hl ▸ bitsToNat_lt l
  rw [natOf_singleton, flagByte_eq, BitVec.toNat_ofNat, Nat.mod_eq_of_lt hlt, testBit_bitsToNat]

/-- A number whose flag says that it is present reads back, whatever stands in the place of one that is not. -/
theorem whenFlag_natOf {n : Nat} {v : Option Nat} (filler : Option Nat) (h : fitsOptU n v = true) :
    whenFlag v.isSome (natOf (beBytes n ((v.or filler).getD 0))) = v := by
  cases v with
  | none => rfl
  | some v => exact congrArg some (natOf_beBytes_of_fits h)

theorem whenFlag_intOf {n : Nat} {v : Option Int} (filler : Option Int) (h : fitsOptS n v = true) :
    whenFlag v.isSome (intOf (beInt n ((v.or filler).getD 0))) = v := by
  cases v with
  | none => rfl
  | some v => exact congrArg some (intOf_beInt_of_fits h)

theorem whenFlag_trim {v : Option (Word32 × Nat)} (filler : Option (Word32 × Nat))
    (h : fitsOptU 1 (v.map (·.2)) = true) :
    whenFlag v.isSome (BitVec.ofNat 32 (natOf (beBytes 4 (((v.or filler).map (·.1.toNat)).getD 0))),
      natOf (beBytes 1 (((v.or filler).map (·.2)).getD 0))) = v := by
  cases v with
  | none => rfl
  | some v =>
    have hvalue : natOf (beBytes 4 v.1.toNat) = v.1.toNat := natOf_beBytes_of_fits (decide_eq_true v.1.isLt)
    have hdir : natOf (beBytes 1 v.2) = v.2 := natOf_beBytes_of_fits h
    simp [whenFlag, hvalue, hdir]

theorem readPositionWrite_positionBytes {w : PositionWrite} (filler : PositionWrite) (high : Bool × Bool)
    (hwf : w.wf = true) : readPositionWrite (positionBytes w filler high) = .fields w := by
  simp only [PositionWrite.wf, Bool.and_eq_true] at hwf
  simp only [readPositionWrite, positionBytes, List.append_assoc, cutFields_cons, cutFields_last, beBytes_length,
    beInt_length, Option.map_some, testBit_flagByte, List.length_cons, List.length_nil, Nat.reduceAdd,
    List.getD_cons_zero, List.getD_cons_succ, whenFlag_natOf, whenFlag_intOf, whenFlag_trim, hwf]

/-! ## The order of the bytes (R190) -/

/-- Most significant byte first. -/
theorem beBytes_eq_map (n v : Nat) :
    beBytes n v = (List.range n).map (fun k => BitVec.ofNat 8 (v / 256 ^ (n - 1 - k))) := by
  induction n with
  | zero => rfl
  | succ n ih =>
    rw [beBytes, ih, List.range_succ_eq_map, List.map_cons, List.map_map]
    refine congrArg _ (List.map_congr_left fun k hk => ?_)
    have hindex : n + 1 - 1 - (k + 1) = n - 1 - k := by omega
    rw [Function.comp_apply, hindex]

/-- Settles O55: the layouts read back field by field, and a payload is taken exactly at its layout's length. -/
theorem recipePayloadsReadBack : Obligations.RecipePayloadsReadBack := by
  refine ⟨fun h => readHeaderWrite_part1, fun h => readHeaderWrite_part2, fun w => readZoneWrite_zoneBytes,
    fun w filler high hwf _ => readPositionWrite_positionBytes filler high hwf,
    fun w => readLineWrite_lineWriteBytes, fun w => readMarkWrite_markWriteBytes, fun w => readOptionsWrite_bytes,
    fun r => readPowerReport_bytes, fun r => readQuenchReport_bytes, fun b => ⟨rfl, rfl⟩, readZoneRead_bytes,
    readLineLevels_bytes, fun l => ?_, beBytes_eq_map, fun n v => rfl, fun n v => ⟨rfl, rfl⟩,
    fun n v => ⟨rfl, rfl⟩⟩
  exact ⟨readNothing_wrongLength l, readByte_wrongLength l, readControl_wrongLength l, readZoneWrite_wrongLength l,
    readZoneRead_wrongLength l, readPositionWrite_wrongLength l, readLineWrite_wrongLength l,
    readLineLevels_wrongLength l, readMarkWrite_wrongLength l, readOptionsWrite_wrongLength l,
    readPowerReport_wrongLength l, readQuenchReport_wrongLength l, readHeader1_wrongLength l,
    readHeader2_wrongLength l⟩

end Sys2Proof.Machine
end

section
/-! PROOF. READ_STATUS (O36): the snapshot's five parts in the statements' words, and their delivery. -/

namespace Sys2Proof.Machine

/-! ## The fields of the snapshot (R190, R192) -/

theorem beOptInt_length {n : Nat} (hn : 0 < n) (v : Option Int) : (beOptInt n v).length = n := by
  cases v with
  | none =>
    rw [beOptInt, List.length_cons, List.length_replicate]
    omega
  | some v => exact beBytes_length _ _

theorem codeByte_bitsToNat (l : List Bool) : codeByte (bitsToNat l) = flagByte l := (flagByte_eq l).symm

theorem codeByte_control (c : Control) : codeByte c.byte = wordByte c := ofNat_controlByte c

theorem toNat_eq_flag (b : Bool) : b.toNat = if b then 1 else 0 := by cases b <;> rfl

/-- At most one of the four timers runs; the first that does is the one shown (R92). -/
theorem runningTimer_eq (s : State) : s.runningTimer =
    [s.sq.approachWait, s.sq.dwellTimer, s.sq.postQuench, s.sq.floodTimer].findSome? id := by
  have hcons (t : Option Nat) (l : List (Option Nat)) : (t :: l).findSome? id = t.or (l.findSome? id) := by
    cases t <;> rfl
  rw [State.runningTimer, hcons, hcons, hcons, hcons, List.findSome?_nil, Option.or_none, Option.or_assoc,
    Option.or_assoc]

/-- The level of a line as the statements have it (R168, R169). -/
theorem level_eq_lineLevel (s : State) (n : Line) : s.lu.level s.outputView n = lineLevel s n := by
  unfold lineLevel
  rw [outputView_eq]
  cases hrole : n.role with
  | input => exact level_input _ _ (by rw [hrole]; nofun)
  | output fn => rw [level_output _ _ hrole]; cases fn <;> rfl

/-- Sixteen conditions of two bits each, slot k at bits 2k and 2k + 1 (assumption 42). -/
theorem slotConditions_map_finRange {n : Nat} (f : Fin n → RecipeSlot) :
    State.slotConditions ((List.finRange n).map f) =
      ((List.finRange n).map (fun k : Fin n => (f k).condition.code * 4 ^ k.val)).sum := by
  induction n with
  | zero => rfl
  | succ n ih =>
    have hshift (k : Fin n) :
        (f k.succ).condition.code * 4 ^ k.succ.val = 2 * (2 * ((f k.succ).condition.code * 4 ^ k.val)) := by
      rw [Fin.val_succ, Nat.pow_succ, ← Nat.mul_assoc]
      omega
    calc State.slotConditions ((List.finRange (n + 1)).map f)
        = (f 0).condition.code + 4 * State.slotConditions ((List.finRange n).map fun k => f k.succ) := by
          rw [List.finRange_succ, List.map_cons, List.map_map]
          rfl
      _ = (f 0).condition.code +
          ((List.finRange n).map fun k : Fin n => (f k.succ).condition.code * 4 ^ k.succ.val).sum := by
          simp only [hshift, ih fun k => f k.succ, sum_map_double]
          omega
      _ = ((List.finRange (n + 1)).map (fun k => (f k).condition.code * 4 ^ k.val)).sum := by
          rw [List.finRange_succ, List.map_cons, List.map_map, List.sum_cons, Fin.val_zero, Nat.pow_zero, Nat.mul_one]
          rfl

/-! ## The five parts -/

section
variable (s : State)

theorem statusPart1_eq : s.statusPart1 = statusLayout1 s := by
  unfold State.statusPart1 statusLayout1 State.conditionFlags
  simp only [beBytes_one, codeByte_bitsToNat, runningTimer_eq, List.append_assoc, List.cons_append, List.nil_append]
  rfl

theorem statusPart2_eq : s.statusPart2 = statusLayout2 s := by
  unfold State.statusPart2 statusLayout2
  simp only [beBytes_one, codeByte_bitsToNat, List.append_assoc, List.cons_append, List.nil_append]
  rfl

theorem statusPart3_eq : s.statusPart3 = statusLayout3 s := by
  unfold State.statusPart3 statusLayout3 State.summaryStatus State.linkBytes
  simp only [beBytes_one, toNat_eq_flag, List.flatMap_cons, List.flatMap_nil, List.append_assoc, List.cons_append,
    List.nil_append]
  rfl

theorem statusPart4_eq : s.statusPart4 = statusLayout4 s := by
  have hlevels : s.lu.level s.outputView = lineLevel s := funext (level_eq_lineLevel s)
  have hmark : State.markBytes = fun m => [flagByte [m.enable, m.pulse.isSome]] ++ beInt 4 m.target :=
    funext fun m => congrArg (· ++ beInt 4 m.target) (by rw [beBytes_one, codeByte_bitsToNat])
  unfold State.statusPart4 statusLayout4 State.lineLevels
  rw [hlevels, hmark]
  simp only [beBytes_one, codeByte_bitsToNat, codeByte_control]

theorem statusPart5_eq : s.statusPart5 = statusLayout5 s := by
  unfold State.statusPart5 statusLayout5
  rw [toList_eq_map_finRange, slotConditions_map_finRange]
  simp only [beBytes_one]

theorem statusParts_eq : s.statusParts =
    [statusLayout1 s, statusLayout2 s, statusLayout3 s, statusLayout4 s, statusLayout5 s] := by
  unfold State.statusParts
  rw [statusPart1_eq, statusPart2_eq, statusPart3_eq, statusPart4_eq, statusPart5_eq]

theorem statusPart1_length : s.statusPart1.length = 42 := by
  unfold State.statusPart1
  simp [beOptInt_length]

theorem statusPart2_length : s.statusPart2.length = 36 := by
  unfold State.statusPart2
  simp [beOptInt_length]

theorem statusPart3_length : s.statusPart3.length = 43 := by
  unfold State.statusPart3 State.summaryStatus State.linkBytes
  simp

theorem statusPart4_length : s.statusPart4.length = 37 := by
  unfold State.statusPart4 State.markBytes
  simp [beOptInt_length, List.length_flatMap, List.map_const']

theorem statusPart5_length : s.statusPart5.length = 17 := by
  unfold State.statusPart5
  simp

theorem statusParts_lengths : s.statusParts.map (·.length) = [42, 36, 43, 37, 17] := by
  simp only [State.statusParts, List.map_cons, List.map_nil, statusPart1_length, statusPart2_length,
    statusPart3_length, statusPart4_length, statusPart5_length]

end

/-! ## Delivery (R186, R187) -/

theorem partData_eq (n : Nat) (parts : List (List Byte)) :
    State.partData n parts = [codeByte n, codeByte parts.length] ++ parts.getD (n - 1) [] := by
  unfold State.partData
  rw [beBytes_one, beBytes_one]
  rfl

section
variable {tag : Byte} {s : State}

theorem exec_readStatus (n : Nat) (htaken : Taken s) : exec (.readStatus tag (.fields n)) s =
    .next ((State.readStatus n (s.arrive .s)).1.answer tag (State.readStatus n (s.arrive .s)).2) :=
  congrArg Host.Outcome.next (takeRequest_taken tag n State.readStatus s htaken)

/-- Part 1 forms the snapshot in the buffer. -/
theorem readStatus_first (s : State) : State.readStatus 1 s =
    (s.setLp { s.lp with buffer := some { kind := .status, parts := s.statusParts } },
      Answer.ok ([1, 5] ++ s.statusPart1)) := by
  have hdata : State.partData 1 s.statusParts = [1, 5] ++ s.statusPart1 := partData_eq 1 _
  rw [← hdata]
  exact if_pos rfl

/-- Every other part is the buffer's. -/
theorem readStatus_later {n : Nat} (hn : n ≠ 1) : State.readStatus n s = s.deliverLater .status n := if_neg hn

/-- A part after the first, delivered from the snapshot in the buffer; nothing changes but the answer. -/
theorem exec_readStatus_held (htaken : Taken s) {parts : List (List Byte)}
    (hbuffer : s.lp.buffer = some { kind := .status, parts := parts }) {n : Nat} (hfirst : 1 < n)
    (hlast : n ≤ parts.length) : exec (.readStatus tag (.fields n)) s =
      .next (repliedTo tag (Answer.ok ([codeByte n, codeByte parts.length] ++ parts.getD (n - 1) [])) s) := by
  rw [exec_readStatus n htaken, readStatus_later (Nat.ne_of_gt hfirst), deliverLater_held .status n parts _
    (by rwa [State.arrive_lp_buffer]) hfirst hlast, partData_eq]
  rfl

theorem exec_readStatus_missing (htaken : Taken s) {n : Nat} (hn : n ≠ 1)
    (hbuffer : ∀ b, s.lp.buffer = some b → b.kind ≠ .status ∨ n = 0 ∨ b.parts.length < n) :
    exec (.readStatus tag (.fields n)) s = .next (repliedTo tag (Answer.invalid 53 none) s) := by
  rw [exec_readStatus n htaken, readStatus_later hn, deliverLater_missing .status n _ (by rwa [State.arrive_lp_buffer])]
  rfl

end

/-- The first fields of parts 1 and 2, whatever follows them. -/
theorem statusPart1_take (s : State) : s.statusPart1.take 6 =
    [BitVec.ofNat 8 s.sq.st.code, BitVec.ofNat 8 s.sq.st.phaseCode] ++ beBytes 4 s.sq.scanNumber.toNat := by
  rw [statusPart1_eq]
  unfold statusLayout1
  simp only [List.append_assoc]
  rfl

theorem statusPart2_take (s : State) : s.statusPart2.take 12 =
    beInt 4 (s.cu.coord / 65536) ++ beInt 4 s.cu.frontier ++ beInt 4 s.cu.speed := by
  rw [statusPart2_eq]
  unfold statusLayout2
  simp only [List.append_assoc]
  rfl

/-- Settles O36: the snapshot is formed on the state after the arrival; the codes are R190's by definition. -/
theorem readStatusDeliversTheSnapshot : Obligations.ReadStatusDeliversTheSnapshot := by
  refine ⟨fun tag s htaken => ?_, rfl, fun x => rfl, rfl, rfl, rfl, rfl, fun k bank o => rfl,
    fun f z => rfl⟩
  intro r parts
  have hsq : r.sq = s.sq := State.arrive_sq s .s
  have hcu : r.cu = s.cu := State.arrive_cu s .s
  refine ⟨?_, statusParts_eq r, statusPart1_eq r, statusParts_lengths r, ?_, ?_,
    fun p1 p2 p3 p4 p5 hbuffer => ?_, fun n hn hbuffer => exec_readStatus_missing htaken hn hbuffer⟩
  · rw [exec_readStatus 1 htaken, readStatus_first]
  · rw [statusPart1_take, hsq]
  · rw [statusPart2_take, hcu]
  · exact ⟨exec_readStatus_held htaken hbuffer (by decide) (by decide : 2 ≤ 5),
      exec_readStatus_held htaken hbuffer (by decide) (by decide : 3 ≤ 5),
      exec_readStatus_held htaken hbuffer (by decide) (by decide : 4 ≤ 5),
      exec_readStatus_held htaken hbuffer (by decide) (by decide : 5 ≤ 5)⟩

end Sys2Proof.Machine
end

section
/-! PROOF. Every step keeps a validated bank active outside IDLE, and every slot's condition that of its image and check
(O58). The active bank changes at a commit alone, which has validated it, and at a reset, which enters IDLE; so beside
those two it is enough that no other command leaves IDLE, where faults, holds and arrivals have no effect. -/

namespace Sys2Proof.Machine

/-! ## What has no effect in IDLE (R75, R121, R130) -/

section
variable {s : State} (h : s.sq.st = .idle)
include h

theorem reportFault_idle (code : FaultCode) (source : FaultSource) : s.reportFault code source = s := by
  have hignored : State.faultTaking code s.sq.st s.pe.quenchOn = .ignored := by
    rw [h]
    cases code with
    | quenchPressure => cases s.pe.quenchOn <;> rfl
    | _ => rfl
  unfold State.reportFault
  rw [hignored]

theorem travelCheck_idle (bounded : Bool) : s.travelCheck bounded = s := by
  unfold State.travelCheck
  rw [reportFault_idle h]
  exact ite_self s

theorem reversalCheck_idle : s.reversalCheck = s := by
  unfold State.reversalCheck
  rw [reportFault_idle h]
  exact ite_self s

theorem judgePostQuench_idle : s.judgePostQuench = s := by simp [State.judgePostQuench, h]

theorem settle_idle : s.settle = s := by simp [State.settle, h]

theorem rejudge_idle : s.rejudge = s := by simp [State.rejudge, h]

theorem holdRequest_idle : s.holdRequest = s := by simp [State.holdRequest, h]

theorem seqAdvance_idle : s.seqAdvance = s := by simp [State.seqAdvance, h]

theorem judgeClear_idle : s.judgeClear.1 = s := by simp [State.judgeClear, h]

theorem takeRun_idle : s.takeRun.1 = s := by simp [State.takeRun, h]

/-! ## What leaves IDLE as it is -/

theorem update_idle : s.update.sq.st = .idle := by
  have hcore : s.updateCore.sq.st = .idle := (updateCore_st s).trans h
  unfold State.update State.rejudgeChanged
  rw [rejudge_idle hcore, ite_self]
  exact hcore

theorem writeHold_idle (field : Port) (v : Bool) : (s.writeHold field v).sq = s.sq := by
  have hwritten : (s.setLp { s.lp with control := s.lp.control.setHold v field }).sq.st = .idle := h
  unfold State.writeHold State.requestIf
  rw [holdRequest_idle hwritten, ite_self]
  rfl

theorem takeHold_idle (port field : Port) (w : ControlWord) : (s.takeHold port field w).sq = s.sq := by
  unfold State.takeHold
  split
  · exact writeHold_idle h _ _
  · rfl

theorem takeAbort_idle (port : Port) (w : ControlWord) : s.takeAbort port w = s := by
  unfold State.takeAbort
  rw [reportFault_idle h, ite_self]

theorem takeShared_idle (port : Port) (w : ControlWord) : (s.takeShared port w).sq.st = .idle := by
  have hhold {u : State} (hu : u.sq.st = .idle) (field : Port) : (u.takeHold port field w).sq.st = .idle :=
    (congrArg Sq.st (takeHold_idle hu port field w)).trans hu
  have hholds := hhold (hhold (hhold (hhold h .s) .p) .m) .q
  unfold State.takeShared
  rw [State.takeKeepOn_sq, takeAbort_idle hholds, hholds]

theorem superviseWord_idle (tag : Byte) (w : ControlWord) : (s.superviseWord tag w).sq.st = .idle := by
  have hshared := takeShared_idle h .s w
  have hclear : ((s.takeShared .s w).takeClearField w).1 = s.takeShared .s w := by
    unfold State.takeClearField
    split
    · exact judgeClear_idle hshared
    · rfl
  have hrun : ((s.takeShared .s w).takeRunField w).1 = s.takeShared .s w := by
    unfold State.takeRunField
    split
    · exact takeRun_idle hshared
    · rfl
  unfold State.superviseWord
  rw [State.answerControl_sq, hclear, hrun, hshared]

theorem takeControl_idle (port : Port) (tag : Byte) (w : ControlWord) : (s.takeControl port tag w).sq.st = .idle := by
  have harrived (v : Port) : (s.arrive v).sq.st = .idle := (congrArg Sq.st (s.arrive_sq v)).trans h
  unfold State.takeControl State.judgeControl
  split
  · split
    · exact harrived .s
    · split
      · exact (congrArg Sq.st (State.answer_sq _ _ _)).trans (harrived .s)
      · exact superviseWord_idle (harrived .s) tag w
  · exact takeShared_idle (harrived port) port w

theorem trackAdvance_idle : s.trackAdvance.sq.st = .idle := by
  have hpassed : s.passFrontier.sq.st = .idle := (congrArg Sq.st s.passFrontier_sq).trans h
  unfold State.trackAdvance State.noticeEmpty
  rw [State.openAtFrontier_sq, judgePostQuench_idle hpassed, ite_self, hpassed]

theorem advance_idle (old : Int) : (s.advance old).sq.st = .idle := by
  have hmarked : (s.trackAdvance.marksAdvance old).sq.st = .idle := by
    rw [State.marksAdvance_sq]
    exact trackAdvance_idle h
  unfold State.advance
  rw [seqAdvance_idle hmarked, hmarked]

theorem takeEdge_idle (up : Bool) : (s.takeEdge up).sq.st = .idle := by
  have hmoved : (s.moveEdge up).sq.st = .idle := (congrArg Sq.st (s.moveEdge_sq up)).trans h
  unfold State.takeEdge State.handAdvance
  rw [travelCheck_idle hmoved, reversalCheck_idle hmoved]
  split
  · exact advance_idle hmoved _
  · exact hmoved

theorem takeLevels_idle (a b : Bool) : (s.takeLevels a b).sq.st = .idle := by
  have hlegal (new : EncPhase) (forward : Bool) : (s.legalTransition new forward).sq.st = .idle := by
    unfold State.legalTransition
    split
    · exact takeEdge_idle (s := s.setEncPhase new) h _
    · exact h
  have hset (v : Cu) : (s.setCu v).sq.st = .idle := h
  unfold State.takeLevels State.illegalTransition
  dsimp only
  split
  · exact h
  · exact hlegal _ _
  · exact hlegal _ _
  · rw [reportFault_idle (hset _)]
    exact h

theorem updateExpiry_idle : s.updateExpiry.sq.st = .idle := by
  unfold State.updateExpiry
  split
  · have hupdated := update_idle (s := s.setPe { s.pe with nextUpdate := s.pe.nextUpdate + Config.updatePeriod }) h
    rw [settle_idle hupdated, hupdated]
  · exact h

theorem handLevel_idle (fn : InputFn) (taken level : Bool) (c : Int) :
    (s.handLevel fn taken level c).sq.st = .idle := by
  cases fn with
  | datum =>
    simp only [State.handLevel, State.datumEdge]
    (repeat' split) <;> simp_all
  | endProbe => simp [State.handLevel, State.endProbeEdge, reportFault_idle h, h]
  | spindleIndex =>
    simp only [State.handLevel, State.indexEdge, State.handRevolution]
    (repeat' split) <;> simp_all [rejudge_idle]
  | coilWater =>
    simp only [State.handLevel, State.coilWaterLevel]
    split <;> simp [reportFault_idle h, rejudge_idle h, h]
  | interlock => simp [State.handLevel, State.interlockLevel, reportFault_idle h, h]
  | general => exact h

theorem filterExpiry_idle (k : LineNo) : (s.filterExpiry k).sq.st = .idle := by
  unfold State.filterExpiry
  dsimp only
  split
  · exact h
  · split
    · split
      · exact h
      · exact handLevel_idle (by simpa using h) _ _ _ _
    · exact h

theorem takePower_idle (r : PowerReport) (st : InverterState) : (s.takePower r st).sq.st = .idle := by
  have hkept : (s.keepPower r st).sq.st = .idle := h
  have hcredited : (((s.keepPower r st).creditPower r).noteLimiting st).sq.st = .idle := by simpa using h
  unfold State.takePower
  split
  · unfold State.takeTrip
    split
    · rw [reportFault_idle (s := (s.keepPower r st).drawn) hkept]
      exact h
    · rw [reportFault_idle (s := (s.keepPower r st).drawn.creditPower r) hkept]
      exact h
  · rw [rejudge_idle hcredited]
    exact hcredited

theorem powerReport_idle (p : Payload PowerReport) : (s.powerReport p).sq.st = .idle := by
  have harrived : (s.arrive .p).sq.st = .idle := (congrArg Sq.st (s.arrive_sq .p)).trans h
  unfold State.powerReport
  split
  · exact harrived
  · split
    · exact harrived
    · exact takePower_idle harrived _ _

theorem driveStatus_idle (p : Payload Nat) : (s.driveStatus p).sq.st = .idle := by
  have harrived : (s.arrive .m).sq.st = .idle := (congrArg Sq.st (s.arrive_sq .m)).trans h
  have hkept (st : DriveState) : ((s.arrive .m).keepDrive st).sq.st = .idle := harrived
  unfold State.driveStatus State.takeDrive
  split
  · exact harrived
  · split
    · exact harrived
    · rw [reportFault_idle (hkept _), ite_self]
      exact hkept _

theorem quenchReport_idle (p : Payload QuenchReport) : (s.quenchReport p).sq.st = .idle := by
  unfold State.quenchReport State.watchPressure
  (repeat' split) <;> simp [h]

theorem takeRail_idle (railMv : Nat) : (s.takeRail railMv).sq.st = .idle := by
  unfold State.takeRail
  rw [reportFault_idle (s := s.setRail railMv) h, ite_self]
  exact h

theorem withdrawalExpiry_idle : s.withdrawalExpiry.sq.st = .idle := by
  have hset (v : Lu) : (s.setLu v).sq.st = .idle := h
  unfold State.withdrawalExpiry
  split
  · rw [rejudge_idle (hset _)]
    exact h
  · exact h

theorem pressureWatchExpiry_idle : s.pressureWatchExpiry.sq.st = .idle := by
  unfold State.pressureWatchExpiry
  rw [reportFault_idle (s := s.setSq { s.sq with pressureWatch := none }) h]
  split <;> exact h

theorem disarm_idle (u : Unit) : (State.disarm u s).1.sq.st = .idle := by simp [State.disarm, h]

end

/-! ## The active bank and the slots, from one state to another -/

/-- A validated bank stays active outside IDLE, and the slots' conditions stay those of their images and checks. -/
structure StoredKept (s t : State) : Prop where
  bank : BankInv s → BankInv t
  slots : SlotInv s → SlotInv t

namespace StoredKept

variable {s t u : State}

theorem trans (hst : StoredKept s t) (htu : StoredKept t u) : StoredKept s u :=
  ⟨htu.bank ∘ hst.bank, htu.slots ∘ hst.slots⟩

/-- The active bank and the slots as they were, and IDLE not left. -/
theorem of_frame (hbank : t.zt.activeBank = s.zt.activeBank) (hslots : t.rs.slots = s.rs.slots)
    (hidle : s.sq.st = .idle → t.sq.st = .idle) : StoredKept s t where
  bank h ht := by
    rw [hbank]
    exact h (mt hidle ht)
  slots h k := by
    rw [hslots]
    exact h k

theorem refl (s : State) : StoredKept s s := of_frame rfl rfl id

theorem ite {p : Prop} [Decidable p] (ht : StoredKept s t) (hu : StoredKept s u) :
    StoredKept s (if p then t else u) := by
  split
  · exact ht
  · exact hu

/-! ## The shadow bank, COMMIT and the recipe store (R29, R30, R38 to R43) -/

/-- The shadow bank is the one that is not active (R28). -/
theorem setShadow_activeBank (z : Zt) (b : Bank) : (z.setShadow b).activeBank = z.activeBank := by
  obtain ⟨_, _, active⟩ := z
  cases active <;> rfl

theorem setShadow (s : State) (b : Bank) : StoredKept s (s.setShadow b) :=
  of_frame (setShadow_activeBank s.zt b) rfl id

theorem writeHeader (w : HeaderWrite) (s : State) : StoredKept s (State.writeHeader w s).1 := by
  have hstaged (v : Option HeaderPart1) : StoredKept s (s.setStaging v) := of_frame rfl rfl id
  unfold State.writeHeader State.putHeader
  split
  · split
    · split
      · exact hstaged _
      · exact (hstaged _).trans (setShadow _ _)
    · exact hstaged _
  · split
    · exact refl s
    · split
      · exact refl s
      · exact (hstaged _).trans (setShadow _ _)
  · exact refl s

theorem writeZone (w : ZoneWrite) (s : State) : StoredKept s (State.writeZone w s).1 := by
  unfold State.writeZone
  split
  · split
    · exact refl s
    · split
      · exact refl s
      · exact setShadow s _
  · exact refl s

/-- The bank that a commit makes active is the one it has validated (R32, R38). -/
theorem exchange {s : State} (hvalid : validate s.cu.scaleK s.zt.shadowBank = none) : StoredKept s s.exchange where
  bank _ _ := ⟨s.cu.scaleK, by
    have hbank : s.exchange.zt = s.zt.exchange := by simp [State.exchange]
    rw [hbank]
    exact hvalid⟩
  slots h k := by
    rw [State.exchange_rs]
    exact h k

theorem commit (u : Unit) (s : State) : StoredKept s (State.commit u s).1 := by
  unfold State.commit
  split
  · exact refl s
  · split
    · exact refl s
    · split
      · exact refl s
      · next hvalid => exact exchange hvalid

theorem completeLoad (s : State) : StoredKept s s.completeLoad := by
  have hcommit (v : State) : StoredKept v v.commitStartUp := by
    unfold State.commitStartUp
    split
    · next hvalid => exact (exchange hvalid).trans (of_frame rfl rfl id)
    · exact of_frame rfl rfl id
  have hcopied (slot : SlotNo) : StoredKept s (s.copyImage slot).endOp := (setShadow s _).trans (of_frame rfl rfl id)
  unfold State.completeLoad
  split
  · split
    · exact (hcopied _).trans (hcommit _)
    · exact hcopied _
  · exact refl s

/-- A completed store or erase leaves a slot whose condition is that of its image and check (R42, R43). -/
theorem writeSlot (s : State) (slot : SlotNo) (b : Bank) :
    StoredKept s (s.setRs (s.rs.setSlot slot (RecipeSlot.written b))).endOp where
  bank h := h
  slots h k := by
    show (s.rs.slots.set slot (RecipeSlot.written b))[k] = judgedSlot (s.rs.slots.set slot (RecipeSlot.written b))[k]
    simp only [Fin.getElem_fin, Vector.getElem_set]
    split
    · rw [← judge_eq, judge_written]
    · exact h k

theorem completeStore (s : State) : StoredKept s s.completeStore := by
  unfold State.completeStore
  split
  · exact writeSlot s _ _
  · exact refl s

theorem completeErase (s : State) : StoredKept s s.completeErase := by
  unfold State.completeErase
  split
  · exact writeSlot s _ _
  · exact refl s

theorem completeOptions (s : State) : StoredKept s s.completeOptions := by
  have hwritten (o : OptionBlock) : (s.rs.writeCopy o).slots = s.rs.slots := by
    unfold Rs.writeCopy
    split <;> rfl
  unfold State.completeOptions
  split
  · exact of_frame rfl (hwritten _) id
  · exact refl s

theorem loadRecipe (n : Nat) (s : State) : StoredKept s (State.loadRecipe n s).1 :=
  of_frame (by simp) (by unfold State.loadRecipe; (repeat' split) <;> rfl) (by simp)

theorem storeRecipe (n : Nat) (s : State) : StoredKept s (State.storeRecipe n s).1 :=
  of_frame (by simp) (by unfold State.storeRecipe; (repeat' split) <;> rfl) (by simp)

theorem eraseRecipe (n : Nat) (s : State) : StoredKept s (State.eraseRecipe n s).1 :=
  of_frame (by simp) (by unfold State.eraseRecipe; (repeat' split) <;> rfl) (by simp)

theorem writeOptions (w : OptionsWrite) (s : State) : StoredKept s (State.writeOptions w s).1 :=
  of_frame (by simp) (by unfold State.writeOptions; (repeat' split) <;> rfl) (by simp)

/-! ## The resets (R39, R93) -/

/-- A reset enters IDLE and finds every slot's condition from its image and check. -/
theorem reset (s v : State) (time : Nat) (scan : Word32) (phase : EncPhase) (pins : Vector PinDrive 8) (railMv : Nat)
    (rs : Rs) : StoredKept s (v.blocksReset time scan phase pins railMv rs).startUpLoad where
  bank _ ht := absurd (congrArg Sq.st (State.startUpLoad_sq _)) ht
  slots _ k := by
    obtain ⟨hslots, -⟩ := startUpLoad_store (v.blocksReset time scan phase pins railMv rs)
    have hjudged := storeReset_slot rs k
    rw [hslots]
    show (State.storeReset rs).slots[k] = judgedSlot (State.storeReset rs).slots[k]
    rw [hjudged]
    simp [judgedSlot]

theorem powerOn (e : ResetEnd) (s : State) : StoredKept s (s.powerOn e) := reset s _ _ _ _ _ _ _

theorem warmReset (s : State) : StoredKept s s.warmReset := reset s _ _ _ _ _ _ _

/-! ## Requests, control words and frames -/

theorem arrive (s : State) (w : Port) : StoredKept s (s.arrive w) :=
  of_frame (by simp) (by simp) (by simp)

theorem answer (s : State) (tag : Byte) (a : Answer) : StoredKept s (s.answer tag a) :=
  of_frame (by simp) (by simp) (by simp)

theorem takeRequest {α : Type} (tag : Byte) (p : Payload α) {body : α → State → State × Answer} (s : State)
    (hbody : ∀ f u, StoredKept u (body f u).1) : StoredKept s (takeRequest tag p body s) := by
  have harrived := arrive s .s
  unfold Machine.takeRequest judgeRequest
  split
  · exact harrived
  · split
    · exact harrived.trans (answer _ _ _)
    · cases p with
      | wrongLength => exact harrived.trans (answer _ _ _)
      | fields f => exact (harrived.trans (hbody f _)).trans (answer _ _ _)

theorem takeControl (port : Port) (tag : Byte) (w : ControlWord) (s : State) :
    StoredKept s (s.takeControl port tag w) :=
  of_frame (by simp) (by simp) (takeControl_idle · port tag w)

theorem takeControlPayload (port : Port) (tag : Byte) (l : List Byte) (s : State) :
    StoredKept s (s.takeControlPayload port tag l) := by
  unfold State.takeControlPayload
  split
  · exact takeControl _ _ _ _
  · exact of_frame (by simp) (by simp) (by simp)

theorem disarm (u : Unit) (s : State) : StoredKept s (State.disarm u s).1 :=
  of_frame (by simp) (by simp) (disarm_idle · u)

theorem answerRole (tag : Byte) (s : State) : StoredKept s (s.answerRole tag) :=
  of_frame (by simp) (by simp) (by simp)

theorem takeSupervisor (k : FrameKind) (tag : Byte) (l : List Byte) (s : State) :
    StoredKept s (s.takeSupervisor k tag l) := by
  cases k with
  | control => exact takeControlPayload .s tag l s
  | writeHeader => exact takeRequest tag _ s writeHeader
  | writeZone => exact takeRequest tag _ s writeZone
  | commit => exact takeRequest tag _ s commit
  | disarm => exact takeRequest tag _ s disarm
  | loadRecipe => exact takeRequest tag _ s loadRecipe
  | storeRecipe => exact takeRequest tag _ s storeRecipe
  | eraseRecipe => exact takeRequest tag _ s eraseRecipe
  | writeOptions => exact takeRequest tag _ s writeOptions
  | readStatus | readZone | readSummary | readException | readCapture | readFault | writePositionConfig
  | writeLineConfig | writeLine | readLines | writeMark | reset =>
    exact takeRequest tag _ s fun f u => of_frame (by simp) (by simp) (by simp)
  | powerReport | driveStatus | quenchReport | sentByPart => exact answerRole tag s

theorem takeFrame (port : Port) (kind tag : Byte) (l : List Byte) (s : State) :
    StoredKept s (s.takeFrame port kind tag l) := by
  unfold State.takeFrame
  split
  · exact arrive s _
  · exact takeSupervisor _ tag l s
  · exact takeControlPayload _ tag l s
  · exact of_frame (by simp) (by simp) (powerReport_idle · _)
  · exact of_frame (by simp) (by simp) (driveStatus_idle · _)
  · exact of_frame (by simp) (by simp) (quenchReport_idle · _)
  · exact arrive s _

theorem setRx (port : Port) (rx : RxPhase) (gap : Option Nat) (s : State) : StoredKept s (s.setRx port rx gap) :=
  of_frame rfl rfl id

theorem takeCharacter (port : Port) (c : Byte) (stopHigh : Bool) (s : State) :
    StoredKept s (s.takeCharacter port c stopHigh) := by
  have hdiscarded : StoredKept s (s.discardFrame port) := setRx port _ _ s
  have hgood : StoredKept s (s.goodCharacter port c) := by
    unfold State.goodCharacter
    dsimp only
    split
    · exact ite (setRx _ _ _ s) (refl s)
    · exact setRx _ _ _ s
    · exact setRx _ _ _ s
    · exact ite hdiscarded (setRx _ _ _ s)
    · exact ite (setRx _ _ _ s) (setRx _ _ _ s)
    · exact setRx _ _ _ s
    · exact ite (takeFrame _ _ _ _ s) hdiscarded
  exact ite hgood hdiscarded

/-! ## Every command -/

/-- The loss of the supervisor's link: the loss policy's hold, then a pending reset (R148, R188). -/
theorem loseSupervisor (s : State) : StoredKept s s.loseSupervisor := by
  have hpolicy : StoredKept s s.applyLossPolicy := by
    refine of_frame (by simp) (by simp) fun h => ?_
    unfold State.applyLossPolicy
    split
    · rw [writeHold_idle h, h]
    · exact h
  exact ite (hpolicy.trans (warmReset _)) hpolicy

theorem reportFault (code : FaultCode) (source : FaultSource) (s : State) :
    StoredKept s (s.reportFault code source) :=
  of_frame (by simp) (by simp) fun h => by rw [reportFault_idle h, h]

theorem livenessExpiry (port : Port) (s : State) : StoredKept s (s.livenessExpiry port) := by
  have hlost : StoredKept s (s.loseLink port) := of_frame rfl rfl id
  unfold State.livenessExpiry
  split
  · cases port with
    | s => exact hlost.trans (loseSupervisor _)
    | p | m => exact hlost.trans (reportFault _ _ _)
    | q =>
      have hjudged : StoredKept (s.loseLink .q) (s.loseLink .q).loseQuench := of_frame (by simp) (by simp) (by simp)
      exact (hlost.trans hjudged).trans (reportFault _ _ _)
  · exact refl s

theorem exec {s t : State} (c : Instr) (e : exec c s = .next t) : StoredKept s t := by
  have hnext {v : State} (hv : StoredKept s v) (he : (.next v : Host.Outcome State Fault Refusal) = .next t) :
      StoredKept s t := by
    cases he
    exact hv
  cases c with
  | encoderTransition a b => exact hnext (of_frame (by simp) (by simp) (takeLevels_idle · a b)) e
  | updateExpiry => exact hnext (of_frame (by simp) (by simp) updateExpiry_idle) e
  | holdRequest port tag field w | holdFieldCleared port tag field w => exact hnext (takeControl port tag _ s) e
  | abort port tag w => exact hnext (takeControl port tag _ s) e
  | quenchKeepOn port tag on w => exact hnext (takeControl port tag _ s) e
  | faultClear tag w | run tag w => exact hnext (takeControl .s tag _ s) e
  | writeHeader tag p => exact hnext (takeRequest tag p s writeHeader) e
  | writeZone tag p => exact hnext (takeRequest tag p s writeZone) e
  | commit tag p => exact hnext (takeRequest tag p s commit) e
  | disarm tag p => exact hnext (takeRequest tag p s disarm) e
  | loadRecipe tag p => exact hnext (takeRequest tag p s loadRecipe) e
  | storeRecipe tag p => exact hnext (takeRequest tag p s storeRecipe) e
  | eraseRecipe tag p => exact hnext (takeRequest tag p s eraseRecipe) e
  | writeOptions tag p => exact hnext (takeRequest tag p s writeOptions) e
  | readStatus tag p | readZone tag p | readSummary tag p | readException tag p | readCapture tag p | readFault tag p
  | writePositionConfig tag p | writeLineConfig tag p | writeLine tag p | readLines tag p | writeMark tag p
  | reset tag p => exact hnext (takeRequest tag p s fun f u => of_frame (by simp) (by simp) (by simp)) e
  | answeredRole tag => exact hnext (answerRole tag s) e
  | powerReport p => exact hnext (of_frame (by simp) (by simp) (powerReport_idle · p)) e
  | driveStatus p => exact hnext (of_frame (by simp) (by simp) (driveStatus_idle · p)) e
  | quenchReport p => exact hnext (of_frame (by simp) (by simp) (quenchReport_idle · p)) e
  | livenessExpiry port => exact hnext (livenessExpiry port s) e
  | warmReset => exact hnext (ite (warmReset s) (refl s)) e
  | powerOnReset levels => exact hnext (powerOn levels s) e
  | supply railMv | supplyRestored railMv => exact hnext (of_frame (by simp) (by simp) (takeRail_idle · railMv)) e
  | loadComplete => exact hnext (completeLoad s) e
  | storeComplete => exact hnext (completeStore s) e
  | eraseComplete => exact hnext (completeErase s) e
  | optionWriteComplete => exact hnext (completeOptions s) e
  | approachWaitExpiry => exact hnext (of_frame (by simp) (by simp) fun h => by simp [State.waitExpiry, h]) e
  | dwellTimerExpiry => exact hnext (of_frame (by simp) (by simp) fun h => by simp [State.dwellExpiry, h]) e
  | postQuenchExpiry => exact hnext (of_frame (by simp) (by simp) fun h => by simp [State.postQuenchExpiry, h]) e
  | floodExpiry => exact hnext (of_frame (by simp) (by simp) fun h => by simp [State.floodExpiry, h]) e
  | indexWatchExpiry => exact hnext (of_frame (by simp) (by simp) fun h => by simp [State.indexWatchExpiry, h]) e
  | pressureWatchExpiry => exact hnext (of_frame (by simp) (by simp) pressureWatchExpiry_idle) e
  | filterExpiry line => exact hnext (of_frame (by simp) (by simp) (filterExpiry_idle · line)) e
  | withdrawalExpiry => exact hnext (of_frame (by simp) (by simp) withdrawalExpiry_idle) e
  | characterReceived port char stopHigh => exact hnext (takeCharacter port char stopHigh s) e
  | indexRisingEdge => exact hnext (of_frame (by simp) (by simp) (by simp)) e
  | frameDiscard port => exact hnext (setRx port _ _ s) e
  | interCharacterTimeout port => exact hnext (of_frame (by simp) (by simp) (by simp)) e
  | transmitComplete port => exact hnext (of_frame (by simp) (by simp) (by simp)) e
  | powerSendExpiry | quenchSendExpiry => exact hnext (of_frame (by simp) (by simp) (by simp)) e
  | auxPinChange line drive => exact hnext (of_frame (by simp) (by simp) (by simp)) e
  | markPulseExpiry mark => exact hnext (of_frame (by simp) (by simp) (by simp)) e
  | discardedKindArrival port => exact hnext (arrive s port) e

/-- The passing of time, and the queueing of what is due, leave the banks, the slots and the sequencer. -/
theorem idle (s : State) : StoredKept s s.idle := ite (of_frame rfl rfl id) (of_frame rfl rfl id)

theorem step {s t : State} (e : step s = .next t) : StoredKept s t := by
  have htaken (l : List Instr) : StoredKept s (s.setPending l) := of_frame rfl rfl id
  unfold Machine.step at e
  split at e
  · cases e
    exact idle s
  · exact (htaken _).trans (exec _ e)

end StoredKept

/-- Settles O58: every command keeps both, and so does the passing of time. -/
theorem stepKeepsTheBankValidated : Obligations.StepKeepsTheBankValidated := fun _ _ e =>
  ⟨(StoredKept.step e).bank, (StoredKept.step e).slots⟩

end Sys2Proof.Machine
end

section
/-! PROOF. The slice tracker's operations against the order of the track, its place between the coil and the quench,
and the account of the exceptions (R97 to R103, R108, R111 to R113): the fields that these rest on, and for each
operation that it keeps them. -/

namespace Sys2Proof.Machine

/-! ## What the invariant reads of the tracker -/

/-- Each record of the track by its index, and whether it is open. -/
def Stk.slices (k : Stk) : List (Nat × Bool) := k.track.map fun r => (r.index, r.isOpen)

/-- What the account of the exceptions reads of a summary (R112, R113). -/
structure Tally where
  opened : Bool
  nonconforming : Nat
  delivered : Nat
  incomplete : Bool

def Summary.tally (u : Summary) : Tally where
  opened := u.status == .opened
  nonconforming := u.nonconforming
  delivered := u.delivered
  incomplete := u.detailIncomplete

def Stk.tally (k : Stk) : Option Tally := k.summary.map Summary.tally

/-- The track's order (R97, R99): indices ascend and lie at or below the high-water index, and at most the newest record
is open, while heating is noted. -/
structure Stk.InOrder (k : Stk) : Prop where
  sorted : k.slices.Pairwise fun a b => a.1 < b.1
  closed : ∀ e ∈ k.slices.dropLast, e.2 = false
  below : ∀ e ∈ k.slices, ∃ h, k.highWater = some h ∧ e.1 ≤ h
  heats : ∀ e ∈ k.slices, e.2 = true → k.heating = true

/-- The track against a frontier (R98, R99, R108): each slice begins at or before it and has not reached the quench, and
an open one has not ended. -/
def Stk.Spans (c : TrackRecipe) (f : Int) (k : Stk) : Prop :=
  ∀ e ∈ k.slices, ((e.1 * c.pitch : Nat) : Int) ≤ f ∧ f < (((e.1 + 1) * c.pitch + c.offsetD : Nat) : Int) ∧
    (e.2 = true → f < (((e.1 + 1) * c.pitch : Nat) : Int))

/-- The exceptions held and delivered account for the nonconforming slices, while these are below their bound, but for
those whose detail is marked incomplete (R112). -/
def Balanced (held delivered nonconforming : Nat) (incomplete : Bool) : Prop :=
  nonconforming < 2 ^ 32 - 1 →
    (incomplete = false → held + delivered = nonconforming) ∧
    (incomplete = true → held + delivered < nonconforming)

/-- The exception queue's account against the summary. -/
def Stk.Accounts (k : Stk) : Prop :=
  ∀ u, k.tally = some u → Balanced k.exceptions.length u.delivered u.nonconforming u.incomplete

/-- The tracker at a frontier: its order, its place, its account, and an open summary wherever a slice is held, so that
every departure is counted. -/
structure Stk.Sound (c : TrackRecipe) (f : Int) (k : Stk) : Prop where
  order : k.InOrder
  spans : k.Spans c f
  account : k.Accounts
  counted : k.slices ≠ [] → k.summaryOpen = true

/-- The fields that the invariant reads are the same. -/
structure Stk.Quiet (k v : Stk) : Prop where
  slices : v.slices = k.slices
  heating : v.heating = k.heating
  highWater : v.highWater = k.highWater
  tally : v.tally = k.tally
  exceptions : v.exceptions.length = k.exceptions.length

theorem Stk.summaryOpen_eq (k : Stk) : k.summaryOpen = k.tally.any (·.opened) := by
  unfold Stk.summaryOpen Stk.tally
  cases k.summary <;> rfl

theorem Stk.slices_eq_nil {k : Stk} : k.slices = [] ↔ k.track = [] := List.map_eq_nil_iff

theorem Stk.mem_slices {k : Stk} {e : Nat × Bool} :
    e ∈ k.slices ↔ ∃ r ∈ k.track, (r.index, r.isOpen) = e := List.mem_map

/-- A map of the records that keeps each one's index and whether it is open keeps the slices. -/
theorem slices_map {k v : Stk} {g : SliceRecord → SliceRecord} (ht : v.track = k.track.map g)
    (hg : ∀ r, (g r).index = r.index ∧ (g r).isOpen = r.isOpen) : v.slices = k.slices := by
  unfold Stk.slices
  rw [ht, List.map_map]
  exact List.map_congr_left fun r _ => Prod.ext (hg r).1 (hg r).2

namespace Stk.Quiet

variable {k v w : Stk}

theorem refl (k : Stk) : Quiet k k := ⟨rfl, rfl, rfl, rfl, rfl⟩

theorem trans (h : Quiet k v) (h' : Quiet v w) : Quiet k w :=
  ⟨h'.slices.trans h.slices, h'.heating.trans h.heating, h'.highWater.trans h.highWater, h'.tally.trans h.tally,
    h'.exceptions.trans h.exceptions⟩

theorem summaryOpen (h : Quiet k v) : v.summaryOpen = k.summaryOpen := by
  rw [Stk.summaryOpen_eq, Stk.summaryOpen_eq, h.tally]

theorem onOpenSummary (k : Stk) {g : Summary → Summary} (hg : ∀ u, (g u).tally = u.tally) :
    Quiet k (k.onOpenSummary g) := by
  unfold Stk.onOpenSummary
  split
  · next u hu =>
    split
    · exact ⟨rfl, rfl, rfl, by simp [Stk.tally, hu, hg], rfl⟩
    · exact refl k
  · exact refl k

theorem onOpenSlice (k : Stk) {g : SliceRecord → SliceRecord}
    (hg : ∀ r, (g r).index = r.index ∧ (g r).isOpen = r.isOpen) : Quiet k (k.onOpenSlice g) := by
  refine ⟨slices_map rfl fun r => ?_, rfl, rfl, rfl, rfl⟩
  split
  · exact hg r
  · exact ⟨rfl, rfl⟩

/-- Slices counted as skipped, and the seam emptied (R102, R103). -/
theorem skip (k : Stk) (n : Nat) :
    Quiet k { k.onOpenSummary (fun u => { u with skipped := addCount u.skipped n }) with seam := none } :=
  have hcounted := onOpenSummary k (g := fun u => { u with skipped := addCount u.skipped n }) fun _ => rfl
  hcounted.trans ⟨rfl, rfl, rfl, rfl, rfl⟩

theorem powerLimited (k : Stk) : Quiet k k.powerLimited := onOpenSlice k fun _ => ⟨rfl, rfl⟩

theorem credit (e : Nat) (k : Stk) : Quiet k (k.credit e) := by
  unfold Stk.credit
  split
  · exact onOpenSlice k fun _ => ⟨rfl, rfl⟩
  · exact onOpenSummary k fun _ => rfl

theorem dwellNotice (c : TrackRecipe) (power time : Nat) (f : Int) (k : Stk) :
    Quiet k (k.dwellNotice c power time f) := by
  have hflag := onOpenSlice k (g := fun r =>
    if r.index = f.toNat / c.pitch then { r with flags := { r.flags with dwell := true } } else r) fun r => by
      split <;> exact ⟨rfl, rfl⟩
  exact ⟨hflag.slices, rfl, rfl, rfl, rfl⟩

theorem noteDrift (tolerance : Nat) (error : Int) (k : Stk) : Quiet k (k.noteDrift tolerance error) :=
  onOpenSummary k fun _ => rfl

theorem markRead (k : Stk) : Quiet k k.markRead := by
  refine ⟨rfl, rfl, rfl, ?_, rfl⟩
  unfold Stk.tally Stk.markRead
  rw [Option.map_map]
  refine congrArg (fun g => Option.map g k.summary) (funext fun u => ?_)
  show (if u.status == .opened then u else { u with read := true }).tally = u.tally
  split <;> rfl

end Stk.Quiet

namespace Stk.Sound

variable {c : TrackRecipe} {f : Int} {k v : Stk}

theorem of_quiet (h : k.Sound c f) (q : Quiet k v) : v.Sound c f where
  order := ⟨q.slices ▸ h.order.sorted, q.slices ▸ h.order.closed, q.slices ▸ q.highWater ▸ h.order.below,
    q.slices ▸ q.heating ▸ h.order.heats⟩
  spans := by
    unfold Stk.Spans
    rw [q.slices]
    exact h.spans
  account := by
    unfold Stk.Accounts
    rw [q.tally, q.exceptions]
    exact h.account
  counted hne := q.summaryOpen.trans (h.counted (q.slices ▸ hne))

/-- A tracker that holds no slice. -/
theorem of_empty (hs : k.slices = []) (ha : k.Accounts) : k.Sound c f where
  order := ⟨by rw [hs]; exact .nil, by simp [hs], by simp [hs], by simp [hs]⟩
  spans := by simp [Stk.Spans, hs]
  account := ha
  counted hne := absurd hs hne

/-! ## Closing (R98, R101, R102) -/

/-- Every slice closed, heating noted or not. -/
theorem closeAll (h : k.Sound c f) (hs : v.slices = k.slices.map fun e => (e.1, false))
    (hw : v.highWater = k.highWater) (ht : v.tally = k.tally) (he : v.exceptions.length = k.exceptions.length) :
    v.Sound c f where
  order := by
    refine ⟨?_, ?_, ?_, ?_⟩
    · rw [hs, List.pairwise_map]
      exact h.order.sorted
    · rw [hs]
      intro e hmem
      obtain ⟨a, -, rfl⟩ := List.mem_map.1 ((List.dropLast_sublist _).subset hmem)
      rfl
    · rw [hs, hw]
      intro e hmem
      obtain ⟨a, ha, rfl⟩ := List.mem_map.1 hmem
      exact h.order.below a ha
    · rw [hs]
      intro e hmem hopen
      obtain ⟨a, -, rfl⟩ := List.mem_map.1 hmem
      exact absurd hopen Bool.false_ne_true
  spans := by
    unfold Stk.Spans
    rw [hs]
    intro e hmem
    obtain ⟨a, ha, rfl⟩ := List.mem_map.1 hmem
    obtain ⟨hlow, hhigh, -⟩ := h.spans a ha
    exact ⟨hlow, hhigh, fun hopen => absurd hopen Bool.false_ne_true⟩
  account := by
    unfold Stk.Accounts
    rw [ht, he]
    exact h.account
  counted hne := by
    rw [Stk.summaryOpen_eq, ht, ← Stk.summaryOpen_eq]
    exact h.counted fun hnil => hne (by rw [hs, hnil]; rfl)

theorem closeOpen_slices (now : Nat) (brk : Bool) (k : Stk) :
    (k.closeOpen c now brk).slices = k.slices.map fun e => (e.1, false) := by
  unfold Stk.slices Stk.closeOpen
  simp only [List.map_map]
  refine List.map_congr_left fun r _ => ?_
  simp only [Function.comp_apply]
  split
  · rfl
  · next hclosed => simpa using hclosed

theorem closeOpen (h : k.Sound c f) (now : Nat) (brk : Bool) : (k.closeOpen c now brk).Sound c f :=
  h.closeAll (closeOpen_slices now brk k) rfl rfl rfl

theorem heatingEnd (h : k.Sound c f) (now : Nat) : (k.heatingEnd c now).Sound c f ∧
    (k.heatingEnd c now).heating = false ∧ (k.heatingEnd c now).summaryOpen = k.summaryOpen := by
  have hended : ({ k.closeOpen c now false with heating := false } : Stk).Sound c f :=
    h.closeAll (closeOpen_slices now false k) rfl rfl rfl
  have hquiet {v : Stk} (q : Quiet { k.closeOpen c now false with heating := false } v) :
      v.Sound c f ∧ v.heating = false ∧ v.summaryOpen = k.summaryOpen :=
    ⟨hended.of_quiet q, q.heating, q.summaryOpen⟩
  unfold Stk.heatingEnd
  dsimp only
  split
  · exact hquiet (.refl _)
  · exact hquiet (.skip _ _)

theorem holdBreak (h : k.Sound c f) (now : Nat) : (k.holdBreak c now).Sound c f :=
  h.closeAll (closeOpen_slices now true k) rfl rfl rfl

end Stk.Sound

/-! ## The account (R112, R113) -/

section
variable {held delivered nonconforming : Nat} {incomplete : Bool}

theorem addCount_one (n : Nat) : addCount n 1 = min (n + 1) (2 ^ 32 - 1) := rfl

/-- A nonconforming slice whose exception is kept. -/
theorem Balanced.keep (h : Balanced held delivered nonconforming incomplete) :
    Balanced (held + 1) delivered (addCount nonconforming 1) incomplete := by
  intro hbound
  rw [addCount_one] at hbound ⊢
  obtain ⟨hfull, hpart⟩ := h (by omega)
  exact ⟨fun hi => by have := hfull hi; omega, fun hi => by have := hpart hi; omega⟩

/-- A nonconforming slice without room for its exception. -/
theorem Balanced.mark (h : Balanced held delivered nonconforming incomplete) :
    Balanced held delivered (addCount nonconforming 1) true := by
  intro hbound
  rw [addCount_one] at hbound ⊢
  obtain ⟨hfull, hpart⟩ := h (by omega)
  refine ⟨fun hi => absurd hi (by decide), fun _ => ?_⟩
  cases incomplete with
  | false => have := hfull rfl; omega
  | true => have := hpart rfl; omega

/-- An exception delivered. -/
theorem Balanced.deliver (h : Balanced (held + 1) delivered nonconforming incomplete) :
    Balanced held (addCount delivered 1) nonconforming incomplete := by
  intro hbound
  rw [addCount_one]
  obtain ⟨hfull, hpart⟩ := h hbound
  exact ⟨fun hi => by have := hfull hi; omega, fun hi => by have := hpart hi; omega⟩

end

theorem Stk.accounts_some {k : Stk} {u : Summary} (hu : k.summary = some u) :
    k.Accounts ↔ Balanced k.exceptions.length u.delivered u.nonconforming u.detailIncomplete := by
  unfold Stk.Accounts Stk.tally
  rw [hu]
  exact ⟨fun h => h _ rfl, fun h v hv => by cases hv; exact h⟩

theorem Stk.summaryOpen_some {k : Stk} {u : Summary} (hu : k.summary = some u) :
    k.summaryOpen = (u.status == .opened) := by
  unfold Stk.summaryOpen
  rw [hu]

theorem Stk.exists_of_summaryOpen {k : Stk} (ho : k.summaryOpen = true) :
    ∃ u, k.summary = some u ∧ (u.status == .opened) = true := by
  cases hu : k.summary with
  | none => simp [Stk.summaryOpen, hu] at ho
  | some u => exact ⟨u, rfl, Stk.summaryOpen_some hu ▸ ho⟩

/-- The exception of a slice just counted, kept where there is room, or else the detail marked incomplete. -/
theorem except_account {k : Stk} {u : Summary} {n : Nat} (e : ExceptionRecord) (hu : k.summary = some u)
    (ho : (u.status == .opened) = true) (hn : u.nonconforming = addCount n 1)
    (hb : Balanced k.exceptions.length u.delivered n u.detailIncomplete) :
    (k.except e).Accounts ∧ (k.except e).summaryOpen = true := by
  unfold Stk.except Stk.onOpenSummary
  split
  · have hkept : ({ k with exceptions := k.exceptions ++ [e] } : Stk).summary = some u := hu
    rw [Stk.accounts_some hkept, Stk.summaryOpen_some hkept, hn, List.length_append]
    exact ⟨hb.keep, ho⟩
  · simp only [hu, ho, if_true]
    rw [Stk.accounts_some rfl]
    exact ⟨hn ▸ hb.mark, ho⟩

/-! ## Departures (R108, R110 to R112) -/

/-- A departure under an open summary leaves it open and the account right: a slice with a reason is counted with its
exception, another one leaves the nonconforming slices as they are. -/
theorem depart_account (c : TrackRecipe) (q : QuenchCondition) (now : Nat) (flooded : Bool) (r : SliceRecord)
    {k : Stk} (ha : k.Accounts) (ho : k.summaryOpen = true) :
    (k.depart c q now flooded r).Accounts ∧ (k.depart c q now flooded r).summaryOpen = true := by
  obtain ⟨u, hu, hopen⟩ := Stk.exists_of_summaryOpen ho
  rw [Stk.accounts_some hu] at ha
  unfold Stk.depart
  simp only [Stk.onOpenSummary, hu, hopen, if_true]
  split
  · next hany => exact except_account _ rfl hopen (if_pos hany) ha
  · next hnone =>
    rw [Stk.accounts_some rfl]
    refine ⟨?_, hopen⟩
    simpa only [Summary.count, if_neg hnone] using ha

theorem departs_account (c : TrackRecipe) (q : QuenchCondition) (now : Nat) (flooded : Bool) (l : List SliceRecord) :
    ∀ k : Stk, k.Accounts → k.summaryOpen = true →
      (l.foldl (fun v r => v.depart c q now flooded r) k).Accounts ∧
      (l.foldl (fun v r => v.depart c q now flooded r) k).summaryOpen = true := by
  induction l with
  | nil => exact fun k ha ho => ⟨ha, ho⟩
  | cons r rest ih =>
    intro k ha ho
    obtain ⟨ha', ho'⟩ := depart_account c q now flooded r ha ho
    exact ih _ ha' ho'

namespace Stk.Sound

variable {c : TrackRecipe} {f : Int} {k v : Stk}

/-- Departures of records of the track, or of none, leave the account right and the summary as it was. -/
theorem departs (h : k.Sound c f) (q : QuenchCondition) (now : Nat) (flooded : Bool) {l : List SliceRecord}
    (hl : k.track = [] → l = []) :
    (l.foldl (fun v r => v.depart c q now flooded r) k).Accounts ∧
    (l.foldl (fun v r => v.depart c q now flooded r) k).summaryOpen = k.summaryOpen := by
  by_cases hempty : k.track = []
  · rw [hl hempty]
    exact ⟨h.account, rfl⟩
  · have hopen := h.counted (mt Stk.slices_eq_nil.1 hempty)
    obtain ⟨ha, ho⟩ := departs_account c q now flooded l k h.account hopen
    exact ⟨ha, ho.trans hopen.symm⟩

/-- A flood's start leaves no slice, and the account right (R111). -/
theorem floodStart (h : k.Sound c f) (q : QuenchCondition) (now : Nat) :
    (k.floodStart c q now).Sound c f ∧ (k.floodStart c q now).slices = [] ∧
    (k.floodStart c q now).heating = false ∧ (k.floodStart c q now).summaryOpen = k.summaryOpen := by
  obtain ⟨ha, ho⟩ := h.departs q now true (l := k.track.map (closedNow c k.dwellAccount now)) (by simp +contextual)
  rw [floodStart_eq]
  exact ⟨of_empty rfl ha, rfl, rfl, ho⟩

/-! ## The close and the departures of an advance (R98, R108) -/

/-- A slice after the close at a frontier, and whether it departs there. -/
def passedSlice (c : TrackRecipe) (f : Int) (e : Nat × Bool) : Nat × Bool :=
  (e.1, e.2 && decide (f < (((e.1 + 1) * c.pitch : Nat) : Int)))

def sliceGone (c : TrackRecipe) (f : Int) (e : Nat × Bool) : Bool :=
  !e.2 && decide ((((e.1 + 1) * c.pitch + c.offsetD : Nat) : Int) ≤ f)

theorem closed_of_order (h : k.InOrder) : ∀ r ∈ k.track.dropLast, r.closeTime ≠ none := by
  intro r hr hopen
  have hmem : (r.index, r.isOpen) ∈ k.slices.dropLast := by
    rw [Stk.slices, ← List.map_dropLast]
    exact List.mem_map_of_mem hr
  have := h.closed _ hmem
  simp [SliceRecord.isOpen, hopen] at this

theorem advance_slices (h : k.Sound c f) (q : QuenchCondition) (f' : Int) (now : Nat) :
    (k.advance c q f' now).slices = (k.slices.map (passedSlice c f')).dropWhile (sliceGone c f') := by
  have hpassed (r : SliceRecord) : ((closedAt c k.dwellAccount f' now r).index,
      (closedAt c k.dwellAccount f' now r).isOpen) = passedSlice c f' (r.index, r.isOpen) := by
    unfold closedAt endsAt passedSlice SliceRecord.isOpen
    by_cases he : (((r.index + 1) * c.pitch : Nat) : Int) ≤ f'
    · rw [decide_eq_true he, decide_eq_false (Int.not_lt.2 he)]
      cases hopen : r.closeTime <;> simp [hopen]
    · rw [decide_eq_false he, decide_eq_true (Int.not_le.1 he)]
      simp
  have hgone : (sliceGone c f' ∘ fun r : SliceRecord => (r.index, r.isOpen)) = departsAt c f' := by
    funext r
    simp only [Function.comp_apply, sliceGone, departsAt, SliceRecord.isOpen]
    cases r.closeTime <;> rfl
  rw [advance_eq c q f' now k (closed_of_order h.order)]
  unfold Stk.slices passedStk
  simp only [List.map_map]
  rw [← hgone, ← List.dropWhile_map, List.map_map]
  congr 1
  exact List.map_congr_left fun r _ => hpassed r

/-- What an advance leaves on the track: the slices between the new frontier and the quench, in their order. -/
theorem advance_spans (h : k.Sound c f) {f' : Int} (hf : f ≤ f') :
    ∀ e ∈ (k.slices.map (passedSlice c f')).dropWhile (sliceGone c f'), ((e.1 * c.pitch : Nat) : Int) ≤ f' ∧
      f' < (((e.1 + 1) * c.pitch + c.offsetD : Nat) : Int) ∧
      (e.2 = true → f' < (((e.1 + 1) * c.pitch : Nat) : Int)) := by
  have hsorted : (k.slices.map (passedSlice c f')).Pairwise fun a b => a.1 < b.1 := by
    rw [List.pairwise_map]
    exact h.order.sorted
  have hpassed : ∀ e ∈ k.slices.map (passedSlice c f'), ((e.1 * c.pitch : Nat) : Int) ≤ f' ∧
      (e.2 = true → f' < (((e.1 + 1) * c.pitch : Nat) : Int)) := by
    intro e hmem
    obtain ⟨a, ha, rfl⟩ := List.mem_map.1 hmem
    refine ⟨Int.le_trans (h.spans a ha).1 hf, fun hopen => ?_⟩
    simp only [passedSlice, Bool.and_eq_true, decide_eq_true_eq] at hopen
    exact hopen.2
  cases hrest : (k.slices.map (passedSlice c f')).dropWhile (sliceGone c f') with
  | nil => simp
  | cons oldest rest =>
    have hsublist := List.dropWhile_sublist (sliceGone c f') (l := k.slices.map (passedSlice c f'))
    rw [hrest] at hsublist
    have hstays : sliceGone c f' oldest = false := by
      have := List.head?_dropWhile_not (sliceGone c f') (k.slices.map (passedSlice c f'))
      rw [hrest] at this
      simpa using this
    have holdest : f' < (((oldest.1 + 1) * c.pitch + c.offsetD : Nat) : Int) := by
      cases hopen : oldest.2 with
      | true =>
        have := (hpassed oldest (hsublist.subset List.mem_cons_self)).2 hopen
        omega
      | false =>
        simp only [sliceGone, hopen, Bool.not_false, Bool.true_and, decide_eq_false_iff_not] at hstays
        omega
    intro e hmem
    obtain ⟨hlow, hclosed⟩ := hpassed e (hsublist.subset hmem)
    refine ⟨hlow, ?_, hclosed⟩
    have horder : oldest.1 ≤ e.1 := by
      rcases List.mem_cons.1 hmem with rfl | hlater
      · exact Nat.le_refl _
      · exact Nat.le_of_lt (List.rel_of_pairwise_cons (hsorted.sublist hsublist) hlater)
    have hreach : (oldest.1 + 1) * c.pitch ≤ (e.1 + 1) * c.pitch := Nat.mul_le_mul_right _ (by omega)
    omega

theorem departs_highWater (c : TrackRecipe) (q : QuenchCondition) (now : Nat) (b : Bool) (l : List SliceRecord)
    (k : Stk) : (l.foldl (fun v r => v.depart c q now b r) k).highWater = k.highWater := by
  induction l generalizing k with
  | nil => rfl
  | cons r rest ih => rw [List.foldl_cons, ih, depart_eq]

/-- An advance keeps the account and the working state of the tracker. -/
theorem advance_account (h : k.Sound c f) (q : QuenchCondition) (f' : Int) (now : Nat) :
    (k.advance c q f' now).Accounts ∧ (k.advance c q f' now).summaryOpen = k.summaryOpen ∧
    (k.advance c q f' now).heating = k.heating ∧ (k.advance c q f' now).highWater = k.highWater := by
  have hsettled : Stk.Sound c f { k with dwellAccount := accountLeft (endsAt c f') k } :=
    h.of_quiet ⟨rfl, rfl, rfl, rfl, rfl⟩
  obtain ⟨ha, ho⟩ := hsettled.departs q now false
    (l := (k.track.map (closedAt c k.dwellAccount f' now)).takeWhile (departsAt c f')) (by simp +contextual)
  rw [advance_eq c q f' now k (closed_of_order h.order)]
  exact ⟨ha, ho, passedStk_heating _ _ _ _ _, departs_highWater _ _ _ _ _ _⟩

/-- An advance of the frontier: what is left has its place at the new one, and what departs is accounted for. -/
theorem advance (h : k.Sound c f) (q : QuenchCondition) {f' : Int} (hf : f ≤ f') (now : Nat) :
    (k.advance c q f' now).Sound c f' := by
  obtain ⟨haccount, hopen, hheating, hhigh⟩ := h.advance_account q f' now
  have hslices := h.advance_slices q f' now
  have hsuffix := List.dropWhile_suffix (sliceGone c f') (l := k.slices.map (passedSlice c f'))
  refine ⟨⟨?_, ?_, ?_, ?_⟩, ?_, haccount, ?_⟩
  · rw [hslices]
    refine List.Pairwise.sublist hsuffix.sublist ?_
    rw [List.pairwise_map]
    exact h.order.sorted
  · rw [hslices]
    intro e hmem
    have hin : e ∈ (k.slices.map (passedSlice c f')).dropLast := by
      obtain ⟨gone, hsplit⟩ := hsuffix
      rw [← hsplit, List.dropLast_append_of_ne_nil (by rintro hnil; simp [hnil] at hmem)]
      exact List.mem_append_right _ hmem
    rw [← List.map_dropLast] at hin
    obtain ⟨a, ha, rfl⟩ := List.mem_map.1 hin
    simp [passedSlice, h.order.closed a ha]
  · rw [hslices, hhigh]
    intro e hmem
    obtain ⟨a, ha, rfl⟩ := List.mem_map.1 (hsuffix.subset hmem)
    exact h.order.below a ha
  · rw [hslices, hheating]
    intro e hmem he
    obtain ⟨a, ha, rfl⟩ := List.mem_map.1 (hsuffix.subset hmem)
    exact h.order.heats a ha (Bool.and_eq_true_iff.1 he).1
  · unfold Stk.Spans
    rw [hslices]
    exact h.advance_spans hf
  · rw [hopen, hslices]
    intro hne
    refine h.counted fun hnil => hne ?_
    rw [hnil]
    rfl

/-! ## Opening (R99, R100) -/

/-- The slice that holds a frontier, opened above the high-water index while every other slice is closed. -/
theorem openNew (h : k.Sound c f) (hs : v.slices = k.slices ++ [(f.toNat / c.pitch, true)])
    (hw : v.highWater = some (f.toNat / c.pitch)) (hheats : v.heating = true) (ht : v.tally = k.tally)
    (he : v.exceptions.length = k.exceptions.length) (hclosed : ∀ e ∈ k.slices, e.2 = false)
    (habove : ∀ w, k.highWater = some w → w < f.toNat / c.pitch) (hfrom : 0 ≤ f) (hpitch : 0 < c.pitch)
    (hopen : k.summaryOpen = true) : v.Sound c f where
  order := by
    have hbelow : ∀ e ∈ k.slices, e.1 < f.toNat / c.pitch := fun e hmem => by
      obtain ⟨w, hwater, hle⟩ := h.order.below e hmem
      exact Nat.lt_of_le_of_lt hle (habove w hwater)
    refine ⟨?_, ?_, ?_, fun _ _ _ => hheats⟩
    · rw [hs, List.pairwise_append]
      exact ⟨h.order.sorted, List.pairwise_singleton _ _, fun a ha b hb => by
        rw [List.mem_singleton.1 hb]
        exact hbelow a ha⟩
    · rw [hs, List.dropLast_concat]
      exact hclosed
    · rw [hs, hw]
      intro e hmem
      refine ⟨_, rfl, ?_⟩
      rcases List.mem_append.1 hmem with hold | hnew
      · exact Nat.le_of_lt (hbelow e hold)
      · exact Nat.le_of_eq (congrArg Prod.fst (List.mem_singleton.1 hnew))
  spans := by
    have hlow : f.toNat / c.pitch * c.pitch ≤ f.toNat := Nat.div_mul_le_self _ _
    have hhigh : f.toNat < (f.toNat / c.pitch + 1) * c.pitch := by
      have := Nat.lt_mul_div_succ f.toNat hpitch
      rwa [Nat.mul_comm] at this
    unfold Stk.Spans
    rw [hs]
    intro e hmem
    rcases List.mem_append.1 hmem with hold | hnew
    · exact h.spans e hold
    · rw [List.mem_singleton.1 hnew]
      dsimp only
      generalize f.toNat / c.pitch * c.pitch = low at hlow
      generalize (f.toNat / c.pitch + 1) * c.pitch = high at hhigh
      exact ⟨by omega, by omega, fun _ => by omega⟩
  account := by
    unfold Stk.Accounts
    rw [ht, he]
    exact h.account
  counted _ := by rwa [Stk.summaryOpen_eq, ht, ← Stk.summaryOpen_eq]

theorem below_of_aboveHighWater {k : Stk} {j : Nat} (h : k.aboveHighWater j = true) :
    ∀ w, k.highWater = some w → w < j := by
  intro w hw
  unfold Stk.aboveHighWater at h
  rw [hw] at h
  exact of_decide_eq_true h

theorem openSlice (h : k.Sound c f) (hheating : k.heating = true) (hclosed : k.anyOpen = false) (hfrom : 0 ≤ f)
    (habove : k.aboveHighWater (f.toNat / c.pitch) = true) (hpitch : 0 < c.pitch) (hopen : k.summaryOpen = true) :
    (k.openSlice c (f.toNat / c.pitch)).Sound c f ∧
    (k.openSlice c (f.toNat / c.pitch)).summaryOpen = k.summaryOpen ∧
    (k.openSlice c (f.toNat / c.pitch)).heating = k.heating := by
  have hnone : ∀ e ∈ k.slices, e.2 = false := fun e hmem => by
    obtain ⟨r, hr, rfl⟩ := Stk.mem_slices.1 hmem
    exact Bool.eq_false_iff.2 (List.any_eq_false.1 hclosed r hr)
  have hnew {v w : Stk} (q : Quiet v w) (hs : v.slices = k.slices ++ [(f.toNat / c.pitch, true)])
      (hw : v.highWater = some (f.toNat / c.pitch)) (hheats : v.heating = k.heating) (ht : v.tally = k.tally)
      (he : v.exceptions = k.exceptions) : w.Sound c f ∧ w.summaryOpen = k.summaryOpen ∧ w.heating = k.heating :=
    ⟨(h.openNew hs hw (hheats.trans hheating) ht (congrArg List.length he) hnone (below_of_aboveHighWater habove)
      hfrom hpitch hopen).of_quiet q, by rw [q.summaryOpen, Stk.summaryOpen_eq, ht, ← Stk.summaryOpen_eq],
      q.heating.trans hheats⟩
  unfold Stk.openSlice
  dsimp only
  split
  · exact hnew (.refl _) List.map_append rfl rfl rfl rfl
  · exact hnew (.skip _ _) List.map_append rfl rfl rfl rfl

/-- The opening test: the slice that opens is the one at the frontier, and the newest. -/
theorem tryOpen (h : k.Sound c f) (hpitch : k.heating = true → 0 < c.pitch)
    (hopen : k.heating = true → k.summaryOpen = true) :
    (k.tryOpen c f).Sound c f ∧ (k.tryOpen c f).summaryOpen = k.summaryOpen ∧
    (k.tryOpen c f).heating = k.heating := by
  unfold Stk.tryOpen
  dsimp only
  split
  · next hopens =>
    simp only [Bool.and_eq_true, decide_eq_true_eq, Bool.not_eq_true'] at hopens
    obtain ⟨⟨⟨⟨hheating, hclosed⟩, hfrom⟩, habove⟩, -⟩ := hopens
    obtain ⟨hsound, hquiet⟩ := h.openSlice hheating hclosed hfrom habove (hpitch hheating) (hopen hheating)
    exact ⟨hsound, hquiet⟩
  · exact ⟨h, rfl, rfl⟩

theorem heatingStart (h : k.Sound c f) (hpitch : 0 < c.pitch) (hopen : k.summaryOpen = true) :
    (k.heatingStart c f).Sound c f ∧ (k.heatingStart c f).summaryOpen = k.summaryOpen := by
  unfold Stk.heatingStart
  split
  · exact ⟨h, rfl⟩
  · next hcold =>
    have hheated : Stk.Sound c f { k with heating := true } :=
      ⟨⟨h.order.sorted, h.order.closed, h.order.below, fun _ _ _ => rfl⟩, h.spans, h.account, h.counted⟩
    obtain ⟨hsound, hsame, -⟩ := hheated.tryOpen (fun _ => hpitch) (fun _ => hopen)
    exact ⟨hsound, hsame⟩

/-! ## The summary and the exceptions (R113, R116, R117) -/

theorem openSummary (k : Stk) (hs : k.slices = []) (scan : Word32) (identifier : Nat) :
    (k.openSummary scan identifier).Sound c f :=
  of_empty hs ((Stk.accounts_some rfl).2 fun _ => ⟨fun _ => rfl, fun hi => absurd hi Bool.false_ne_true⟩)

/-- A summary closed while no slice is held. -/
theorem closeSummary (h : k.Sound c f) (hs : k.slices = []) {status : SummaryStatus}
    (hstatus : (status == .opened) = false) (code : Option FaultCode) :
    (k.closeSummary status code).Sound c f ∧ (k.closeSummary status code).summaryOpen = false := by
  cases hu : k.summary with
  | none =>
    have hnone : (k.closeSummary status code).summary = none := congrArg (Option.map _) hu
    exact ⟨of_empty hs fun v hv => by simp [Stk.tally, hnone] at hv, by simp [Stk.summaryOpen, hnone]⟩
  | some u =>
    have hsome : (k.closeSummary status code).summary = some { u with status := status, faultCode := code } :=
      congrArg (Option.map _) hu
    exact ⟨of_empty hs ((Stk.accounts_some hsome).2 ((Stk.accounts_some hu).1 h.account)),
      (Stk.summaryOpen_some hsome).trans hstatus⟩

/-- An exception delivered is counted. -/
theorem dropException (h : k.Sound c f) (hne : k.exceptions ≠ []) :
    k.dropException.Sound c f ∧ k.dropException.summaryOpen = k.summaryOpen := by
  have hlength : k.exceptions.length = k.dropException.exceptions.length + 1 := by
    have := List.length_pos_iff.2 hne
    simp only [Stk.dropException, List.length_tail]
    omega
  cases hu : k.summary with
  | none =>
    have hnone : k.dropException.summary = none := congrArg (Option.map _) hu
    have hsame : k.dropException.summaryOpen = k.summaryOpen := by unfold Stk.summaryOpen; rw [hnone, hu]
    exact ⟨⟨⟨h.order.sorted, h.order.closed, h.order.below, h.order.heats⟩, h.spans,
      fun v hv => by simp [Stk.tally, hnone] at hv, fun hs => hsame.trans (h.counted hs)⟩, hsame⟩
  | some u =>
    have hsome : k.dropException.summary = some { u with delivered := addCount u.delivered 1 } :=
      congrArg (Option.map _) hu
    have hsame : k.dropException.summaryOpen = k.summaryOpen :=
      (Stk.summaryOpen_some hsome).trans (Stk.summaryOpen_some hu).symm
    have hbalanced := (Stk.accounts_some hu).1 h.account
    rw [hlength] at hbalanced
    exact ⟨⟨⟨h.order.sorted, h.order.closed, h.order.below, h.order.heats⟩, h.spans,
      (Stk.accounts_some hsome).2 hbalanced.deliver, fun hs => hsame.trans (h.counted hs)⟩, hsame⟩

/-! ## The bound of the track (R33, R97) -/

/-- An increasing list of numbers within a range is no longer than the range. -/
theorem length_le_of_increasing {l : List Nat} {low width : Nat} (hsorted : l.Pairwise (· < ·))
    (hwithin : ∀ j ∈ l, low ≤ j ∧ j < low + width) : l.length ≤ width := by
  induction l generalizing low width with
  | nil => exact Nat.zero_le _
  | cons j l ih =>
    obtain ⟨hlow, hhigh⟩ := hwithin j List.mem_cons_self
    have hlater : ∀ i ∈ l, low + 1 ≤ i ∧ i < low + 1 + (width - 1) := fun i hi => by
      have hgt : j < i := List.rel_of_pairwise_cons hsorted hi
      have := (hwithin i (List.mem_cons_of_mem _ hi)).2
      omega
    have hrest := ih hsorted.of_cons hlater
    rw [List.length_cons]
    omega

/-- The slices of the track are less than a pitch and the quench offset apart, so that a header that passes check 4
leaves room for them all. -/
theorem length_le (h : k.Sound c f) (hpitch : 0 < c.pitch) (hroom : ceilDiv c.offsetD c.pitch + 2 ≤ 64) :
    k.track.length ≤ 64 := by
  have hindices : (k.slices.map Prod.fst).length = k.track.length := by simp [Stk.slices]
  cases hs : k.slices with
  | nil => simp [← hindices, hs]
  | cons oldest rest =>
    have hoffset : c.offsetD ≤ ceilDiv c.offsetD c.pitch * c.pitch := by
      have hceil := Nat.lt_mul_div_succ (c.offsetD + c.pitch - 1) hpitch
      rw [Nat.mul_comm, Nat.add_mul, Nat.one_mul] at hceil
      unfold ceilDiv
      omega
    have hsorted : (k.slices.map Prod.fst).Pairwise (· < ·) := by
      rw [List.pairwise_map]
      exact h.order.sorted
    have hwithin : ∀ j ∈ k.slices.map Prod.fst,
        oldest.1 ≤ j ∧ j < oldest.1 + (ceilDiv c.offsetD c.pitch + 1) := by
      intro j hj
      obtain ⟨e, hmem, rfl⟩ := List.mem_map.1 hj
      have hlow := (h.spans e hmem).1
      have hhigh := (h.spans oldest (hs ▸ List.mem_cons_self)).2.1
      have hfrom : oldest.1 ≤ e.1 := by
        have hsorted := h.order.sorted
        rw [hs] at hsorted hmem
        rcases List.mem_cons.1 hmem with rfl | hlater
        · exact Nat.le_refl _
        · exact Nat.le_of_lt (List.rel_of_pairwise_cons hsorted hlater)
      have hapart : e.1 * c.pitch < (oldest.1 + 1 + ceilDiv c.offsetD c.pitch) * c.pitch := by
        rw [Nat.add_mul (oldest.1 + 1)]
        omega
      have := Nat.lt_of_mul_lt_mul_right hapart
      exact ⟨hfrom, by omega⟩
    have hcount := length_le_of_increasing hsorted hwithin
    rw [hindices] at hcount
    omega

end Stk.Sound

end Sys2Proof.Machine
end

section
/-! PROOF. Every step keeps the scan (O59): the tracker at the frontier, and what it, the summary and the held-from
record have to do with the sequencer's state. Every entry of a state leaves both in agreement, and between an edge's
step and its advance the track stays judged at the frontier before; the predicate names the frontier it is judged at. -/

namespace Sys2Proof.Machine

/-! ## The tracker and the state -/

/-- What the tracker has to do with the sequencer's state (R100, R108, R116, R117, R123, R139). -/
structure Stk.Suits (k : Stk) (st : SeqState) : Prop where
  heats : k.heating = true → st.isHeat = true
  tracks : k.slices ≠ [] → tracks st = true
  summary : k.summaryOpen = (st.inScan || st == .fault .flood)

/-- The states with a held-from record (R124, R125). -/
def SeqState.holdsRecord (st : SeqState) : Bool :=
  st == .held || st == .quenchout .travel || st == .quenchout .postQuench

/-- The scan's invariant, with the frontier at which the track has been judged. -/
structure Scanning (f : Int) (s : State) : Prop where
  bank : BankInv s
  stk : s.stk.Sound s.trackCtx f
  suits : s.stk.Suits s.sq.st
  held : s.sq.heldFrom.isSome = s.sq.st.holdsRecord
  startUp : s.rs.startUp = .loading → s.sq.st = .idle ∧ LoadInFlight s

theorem scanning_iff (s : State) :
    Scanning s.cu.frontier s ↔ ScanInv s ∧ ExceptionInv s ∧ BankInv s ∧ TrackInv s := by
  have hopen (r : SliceRecord) : r.isOpen = true ↔ r.closeTime = none := Option.isNone_iff_eq_none
  constructor
  · rintro ⟨hbank, ⟨⟨hsorted, hclosed, hbelow, hheats⟩, hspans, haccount, -⟩, ⟨hheat, htracks, hsummary⟩, hheld, hload⟩
    refine ⟨⟨?_, ?_, ?_, hheat, ?_, ?_, hsummary, hheld⟩, ?_, hbank, ?_, hload⟩
    · rwa [Stk.slices, List.pairwise_map] at hsorted
    · intro r hr
      exact hclosed _ (by rw [Stk.slices, ← List.map_dropLast]; exact List.mem_map_of_mem hr)
    · exact fun r hr => hbelow _ (List.mem_map_of_mem hr)
    · intro hany
      obtain ⟨r, hr, ho⟩ := List.any_eq_true.1 hany
      exact hheats _ (List.mem_map_of_mem hr) ho
    · exact fun hne => htracks (mt Stk.slices_eq_nil.1 hne)
    · exact fun u hu => (Stk.accounts_some hu).1 haccount
    · intro r hr
      obtain ⟨hlow, hhigh, hfar⟩ := hspans _ (List.mem_map_of_mem hr)
      exact ⟨hlow, hhigh, fun hn => hfar ((hopen r).2 hn)⟩
  · rintro ⟨⟨hsorted, hclosed, hbelow, hheat, hany, htracks, hsummary, hheld⟩, haccount, hbank, hspans, hload⟩
    have hscans {st : SeqState} (ht : tracks st = true) : (st.inScan || st == .fault .flood) = true := by
      cases st with
      | heating | dwell ph | runout ph | quenchout ph => rfl
      | idle | armed | seek | approach ph | done | held | fault ph => exact absurd ht Bool.false_ne_true
    refine ⟨hbank, ⟨⟨?_, ?_, ?_, ?_⟩, ?_, ?_, ?_⟩, ⟨hheat, ?_, hsummary⟩, hheld, hload⟩
    · exact List.pairwise_map.2 hsorted
    · intro e he
      rw [Stk.slices, ← List.map_dropLast] at he
      obtain ⟨r, hr, rfl⟩ := List.mem_map.1 he
      exact hclosed r hr
    · intro e he
      obtain ⟨r, hr, rfl⟩ := Stk.mem_slices.1 he
      exact hbelow r hr
    · intro e he ho
      obtain ⟨r, hr, rfl⟩ := Stk.mem_slices.1 he
      exact hany (List.any_eq_true.2 ⟨r, hr, ho⟩)
    · intro e he
      obtain ⟨r, hr, rfl⟩ := Stk.mem_slices.1 he
      obtain ⟨hlow, hhigh, hfar⟩ := hspans r hr
      exact ⟨hlow, hhigh, fun ho => hfar ((hopen r).1 ho)⟩
    · cases hu : s.stk.summary with
      | none => exact fun u hv => by simp [Stk.tally, hu] at hv
      | some u => exact (Stk.accounts_some hu).2 (haccount u hu)
    · exact fun hne => hsummary.trans (hscans (htracks (mt Stk.slices_eq_nil.2 hne)))
    · exact fun hne => htracks (mt Stk.slices_eq_nil.2 hne)

/-! ## What a validated bank says of the slices (R33) -/

theorem headerFailure_of_validate {k : Nat} {b : Bank} (h : validate k b = none) :
    headerFailure k b.header = none := by
  unfold validate at h
  split at h
  · exact absurd h nofun
  · next hpassed => exact hpassed

/-- A header that passes checks 1 to 4: every judgement of check 2, and the room that check 4 leaves. -/
theorem header_of_validate {k : Nat} {b : Bank} {h : RecipeHeader} (hvalid : validate k b = none)
    (hheader : b.header = some h) : (∀ c ∈ headerChecks h, c.2 = true) ∧ ceilDiv h.offsetD h.pitch + 2 ≤ 64 := by
  have hpassed := headerFailure_of_validate hvalid
  unfold headerFailure at hpassed
  rw [hheader] at hpassed
  dsimp only at hpassed
  split at hpassed
  · exact absurd hpassed nofun
  · next hchecks =>
    split at hpassed
    · exact absurd hpassed nofun
    · next hroom => exact ⟨fun c hc => by simpa using List.find?_eq_none.1 hchecks c hc, Nat.le_of_not_lt hroom⟩

theorem exists_header_of_validate {k : Nat} {b : Bank} (hvalid : validate k b = none) : ∃ h, b.header = some h := by
  have hpassed := headerFailure_of_validate hvalid
  cases hheader : b.header with
  | none => rw [hheader] at hpassed; exact absurd hpassed nofun
  | some h => exact ⟨h, rfl⟩

/-- The slices of a validated bank have a length, and the track has room for them. -/
theorem trackRecipe_of_validate {k : Nat} {b : Bank} (hvalid : validate k b = none) :
    0 < (trackRecipe b).pitch ∧ ceilDiv (trackRecipe b).offsetD (trackRecipe b).pitch + 2 ≤ 64 := by
  obtain ⟨h, hheader⟩ := exists_header_of_validate hvalid
  obtain ⟨hchecks, hroom⟩ := header_of_validate hvalid hheader
  have hpitch := hchecks (3, h.pitch == 250 || h.pitch == 500 || h.pitch == 1000 || h.pitch == 2000)
    (by simp [headerChecks])
  simp only [Bool.or_eq_true, beq_iff_eq] at hpitch
  simp only [trackRecipe, hheader, Option.map_some, Option.getD_some]
  exact ⟨by omega, hroom⟩

/-! ## Updates and changes of state, for the tracker -/

theorem updateCore_quiet (s : State) : s.stk.Quiet s.updateCore.stk := by
  rw [updateCore_stk, ← powerLimited_eq]
  split
  · exact .powerLimited _
  · exact .refl _

theorem handOn_quiet (s : State) : s.stk.Quiet s.handOn.stk := by
  have hcore := updateCore_quiet s.clearIndications.announce
  rwa [State.announce_stk, State.clearIndications_stk] at hcore

theorem change_quiet (st : SeqState) (s : State) : s.stk.Quiet (s.change st).stk := handOn_quiet (s.enter st none)

theorem updateCore_heldFrom (s : State) : s.updateCore.sq.heldFrom = s.sq.heldFrom := by rw [updateCore_sq]

theorem handOn_st (s : State) : s.handOn.sq.st = s.sq.st := by
  unfold State.handOn
  rw [updateCore_st, State.announce_sq, State.clearIndications_sq]

theorem handOn_heldFrom (s : State) : s.handOn.sq.heldFrom = s.sq.heldFrom := by
  unfold State.handOn
  rw [updateCore_heldFrom, State.announce_sq, State.clearIndications_sq]

theorem change_heldFrom (st : SeqState) (s : State) : (s.change st).sq.heldFrom = s.sq.heldFrom :=
  handOn_heldFrom (s.enter st none)

theorem Stk.Suits.of_quiet {k v : Stk} {st : SeqState} (h : k.Suits st) (q : k.Quiet v) : v.Suits st where
  heats hv := h.heats (q.heating.symm.trans hv)
  tracks hv := h.tracks (q.slices ▸ hv)
  summary := q.summaryOpen.trans h.summary

namespace Scanning

variable {f f' : Int} {s t : State}

/-! ## One block written -/

/-- The fields that the invariant reads, as they were; of the store, while a start-up load is in flight. -/
theorem of_quiet (h : Scanning f s) (hbank : t.zt.activeBank = s.zt.activeBank)
    (hload : t.rs.startUp = .loading → s.rs.startUp = .loading ∧ t.rs.inFlight = s.rs.inFlight)
    (hst : t.sq.st = s.sq.st) (hheld : t.sq.heldFrom = s.sq.heldFrom) (q : s.stk.Quiet t.stk) : Scanning f t where
  bank := by
    unfold BankInv
    rw [hst, hbank]
    exact h.bank
  stk := by
    unfold State.trackCtx
    rw [hbank]
    exact h.stk.of_quiet q
  suits := by
    rw [hst]
    exact h.suits.of_quiet q
  held := by
    rw [hst, hheld]
    exact h.held
  startUp hl := by
    obtain ⟨hloading, hflight⟩ := hload hl
    unfold LoadInFlight
    rw [hst, hflight]
    exact h.startUp hloading

/-- The blocks that the invariant reads, as they were. -/
theorem of_frame (h : Scanning f s) (hz : t.zt = s.zt) (hr : t.rs = s.rs) (hq : t.sq = s.sq) (hk : t.stk = s.stk) :
    Scanning f t :=
  h.of_quiet (by rw [hz]) (fun hl => ⟨hr ▸ hl, by rw [hr]⟩) (by rw [hq]) (by rw [hq]) (hk ▸ .refl _)

theorem setCu (h : Scanning f s) (v : Cu) : Scanning f (s.setCu v) := h.of_frame rfl rfl rfl rfl
theorem setPe (h : Scanning f s) (v : Pe) : Scanning f (s.setPe v) := h.of_frame rfl rfl rfl rfl
theorem setLu (h : Scanning f s) (v : Lu) : Scanning f (s.setLu v) := h.of_frame rfl rfl rfl rfl
theorem setLp (h : Scanning f s) (v : Lp) : Scanning f (s.setLp v) := h.of_frame rfl rfl rfl rfl
theorem setPending (h : Scanning f s) (v : List Instr) : Scanning f (s.setPending v) := h.of_frame rfl rfl rfl rfl
theorem drawn (h : Scanning f s) : Scanning f s.drawn := h.of_frame rfl rfl rfl rfl

/-- The sequencer written in fields that the invariant does not read. -/
theorem keepSq (h : Scanning f s) {v : Sq} (hst : v.st = s.sq.st) (hheld : v.heldFrom = s.sq.heldFrom) :
    Scanning f (s.setSq v) :=
  h.of_quiet rfl (fun hl => ⟨hl, rfl⟩) hst hheld (.refl _)

/-- The tracker written in fields that the invariant does not read. -/
theorem keepStk (h : Scanning f s) {v : Stk} (q : s.stk.Quiet v) : Scanning f (s.setStk v) :=
  h.of_quiet rfl (fun hl => ⟨hl, rfl⟩) rfl rfl q

theorem ite {p : Prop} [Decidable p] (hs : Scanning f s) (ht : Scanning f t) : Scanning f (if p then s else t) := by
  split
  · exact hs
  · exact ht

theorem handOn (h : Scanning f s) : Scanning f s.handOn :=
  h.of_quiet (by rw [State.handOn_zt]) (fun hl => by rw [State.handOn_rs] at hl ⊢; exact ⟨hl, rfl⟩)
    (handOn_st s) (handOn_heldFrom s) (handOn_quiet s)

theorem updateCore (h : Scanning f s) : Scanning f s.updateCore :=
  h.of_quiet (by rw [State.updateCore_zt]) (fun hl => by rw [State.updateCore_rs] at hl ⊢; exact ⟨hl, rfl⟩)
    (updateCore_st s) (updateCore_heldFrom s) (updateCore_quiet s)

/-! ## What the state says of the tracker -/

theorem empty (h : Scanning f s) (hst : tracks s.sq.st = false) : s.stk.slices = [] :=
  Decidable.byContradiction fun hne => Bool.false_ne_true (hst.symm.trans (h.suits.tracks hne))

theorem cold (h : Scanning f s) (hst : s.sq.st.isHeat = false) : s.stk.heating = false :=
  Bool.eq_false_iff.2 fun hheating => Bool.false_ne_true (hst.symm.trans (h.suits.heats hheating))

theorem pitch_pos (h : Scanning f s) (hst : s.sq.st ≠ .idle) : 0 < s.trackCtx.pitch := by
  obtain ⟨k, hvalid⟩ := h.bank hst
  exact (trackRecipe_of_validate hvalid).1

/-- A state entered from another than IDLE, whose tracker suits it. -/
theorem entered (h : Scanning f s) (hne : s.sq.st ≠ .idle) (hz : t.zt = s.zt) (hr : t.rs = s.rs)
    (hk : t.stk.Sound s.trackCtx f') (hsuits : t.stk.Suits t.sq.st)
    (hheld : t.sq.heldFrom.isSome = t.sq.st.holdsRecord) : Scanning f' t where
  bank _ := by
    rw [hz]
    exact h.bank hne
  stk := by
    unfold State.trackCtx
    rw [hz]
    exact hk
  suits := hsuits
  held := hheld
  startUp hl := absurd (h.startUp (hr ▸ hl)).1 hne

/-! ## Faults (R130, R139) -/

end Scanning

/-- Without a scan no heat is on and no slice is held (R108, R123). -/
theorem at_rest {st : SeqState} (h : st.inScan = false) : st.isHeat = false ∧ tracks st = false := by
  cases st with
  | idle | armed | done | fault ph => exact ⟨rfl, rfl⟩
  | seek | approach ph | heating | dwell ph | runout ph | quenchout ph | held => cases h

/-- No report is taken in IDLE, nor in FAULT but as a secondary fault (R130). -/
theorem state_of_enters {code : FaultCode} {st : SeqState} {quenchOn : Bool}
    (h : State.faultTaking code st quenchOn = .enters) : st ≠ .idle ∧ st.isFault = false := by
  constructor
  · rintro rfl
    cases code <;> cases quenchOn <;> cases h
  · cases st with
    | fault ph => cases ph <;> cases code <;> cases quenchOn <;> cases h
    | _ => rfl

namespace Scanning

variable {f f' : Int} {s t : State}

/-- FAULT entered: a flood where the scan leaves slices, which empties the track; else there is none to hold (R139). -/
theorem enterFault (h : Scanning f s) (hne : s.sq.st ≠ .idle) (hfault : s.sq.st.isFault = false) (code : FaultCode)
    (source : FaultSource) : Scanning f (s.enterFault code source) := by
  have hflood : (s.sq.st == .fault .flood) = false := beq_eq_false_iff_ne.2 fun e => by rw [e] at hfault; cases hfault
  have hsummary := h.suits.summary
  rw [hflood, Bool.or_false] at hsummary
  have hentered : Scanning f (((s.enter (.fault (State.faultPhase s.sq.st))
      (some (s.recordOf code source))).dropScan).floodIf s.sq.st.inScan) := by
    unfold State.floodIf State.faultPhase
    cases hin : s.sq.st.inScan with
    | true =>
      obtain ⟨hsound, hslices, hheating, hopen⟩ := h.stk.floodStart s.quenchCondition s.now
      exact h.entered hne rfl rfl hsound
        ⟨fun hon => absurd (hheating.symm.trans hon) Bool.false_ne_true, fun hs => absurd hslices hs,
          hopen.trans (hsummary.trans hin)⟩ rfl
    | false =>
      obtain ⟨hcold, htracks⟩ := at_rest hin
      exact h.entered hne rfl rfl h.stk
        ⟨fun hon => absurd ((h.cold hcold).symm.trans hon) Bool.false_ne_true, fun hs => absurd (h.empty htracks) hs,
          hsummary.trans hin⟩ rfl
  exact hentered.handOn

theorem reportFault (h : Scanning f s) (code : FaultCode) (source : FaultSource) :
    Scanning f (s.reportFault code source) := by
  unfold State.reportFault
  split
  · next htaken =>
    obtain ⟨hne, hfault⟩ := state_of_enters htaken
    exact h.enterFault hne hfault code source
  · exact h.keepSq rfl rfl
  · exact h

theorem travelCheck (h : Scanning f s) (bounded : Bool) : Scanning f (s.travelCheck bounded) :=
  ite (h.reportFault _ _) h

theorem reversalCheck (h : Scanning f s) : Scanning f s.reversalCheck := ite (h.reportFault _ _) h

end Scanning

end Sys2Proof.Machine
end

section
/-! PROOF. The scan kept by the sequencer's operations (O59): faults, post-quench, dwell, runout, holds, HEATING and the
approach. -/

namespace Sys2Proof.Machine

/-! ## What the scan's invariant asks of a state -/

/-- What the invariant asks of a state: heat, slices, an open summary, a held-from record. -/
def SeqState.role (st : SeqState) : Bool × Bool × Bool × Bool :=
  (st.isHeat, tracks st, st.inScan || st == .fault .flood, st.holdsRecord)

theorem ne_idle_of_inScan {st : SeqState} (h : st.inScan = true) : st ≠ .idle := by
  rintro rfl
  cases h

theorem ne_idle_of_isHeat {st : SeqState} (h : st.isHeat = true) : st ≠ .idle := by
  rintro rfl
  cases h

namespace Stk.Suits

variable {k v : Stk} {st st' : SeqState}

theorem of_role (h : k.Suits st) (hr : st'.role = st.role) : k.Suits st' := by
  simp only [SeqState.role, Prod.mk.injEq] at hr
  obtain ⟨hheat, htracks, hsummary, -⟩ := hr
  exact ⟨fun hon => hheat.trans (h.heats hon), fun hs => htracks.trans (h.tracks hs), h.summary.trans hsummary.symm⟩

/-- A tracker at rest suits every state that its summary suits. -/
theorem of_rest (hh : k.heating = false) (hs : k.slices = [])
    (ho : k.summaryOpen = (st.inScan || st == .fault .flood)) : k.Suits st :=
  ⟨fun hon => absurd (hh.symm.trans hon) Bool.false_ne_true, fun hne => absurd hs hne, ho⟩

end Stk.Suits

namespace Scanning

variable {f f' : Int} {s t : State}

/-- A state of the same role entered, with the tracker and the held-from record as they were. -/
theorem enteredAlike (h : Scanning f s) (hne : s.sq.st ≠ .idle) (hz : t.zt = s.zt) (hr : t.rs = s.rs)
    (hk : t.stk = s.stk) (hrole : t.sq.st.role = s.sq.st.role) (hheld : t.sq.heldFrom = s.sq.heldFrom) :
    Scanning f t := by
  have hsame := congrArg (fun r => r.2.2.2) hrole
  exact h.entered hne hz hr (hk ▸ h.stk) (hk ▸ h.suits.of_role hrole) (hheld ▸ h.held.trans hsame.symm)

/-- A change to a state of the same role. -/
theorem changeAlike (h : Scanning f s) (hne : s.sq.st ≠ .idle) {st : SeqState} (hrole : st.role = s.sq.st.role) :
    Scanning f (s.change st) :=
  (h.enteredAlike (t := s.enter st none) hne rfl rfl rfl hrole rfl).handOn

theorem heldFrom_none (h : Scanning f s) (hst : s.sq.st.holdsRecord = false) : s.sq.heldFrom = none := by
  have hnone := h.held.trans hst
  rwa [Option.isSome_eq_false_iff, Option.isNone_iff_eq_none] at hnone

theorem summaryOpen (h : Scanning f s) (hin : s.sq.st.inScan = true) : s.stk.summaryOpen = true := by
  rw [h.suits.summary, hin, Bool.true_or]

/-! ## Post-quench, dwell and runout (R84 to R87, R101, R103, R123) -/

/-- Post-quench begins with the track empty. -/
theorem startPostQuench (h : Scanning f s) (hempty : s.stk.track = []) (hheat : s.sq.st.isHeat = false)
    (hin : s.sq.st.inScan = true) {st : SeqState} (hst : st.inScan = true)
    (hheld : st.holdsRecord = s.sq.st.holdsRecord) : Scanning f (s.startPostQuench st) := by
  have hopen : s.stk.summaryOpen = (st.inScan || st == .fault .flood) := by
    rw [h.summaryOpen hin, hst, Bool.true_or]
  have hphased : Scanning f (s.setPhase st).startPostTimer :=
    h.entered (ne_idle_of_inScan hin) rfl rfl h.stk (.of_rest (h.cold hheat) (Stk.slices_eq_nil.2 hempty) hopen)
      (h.held.trans hheld.symm)
  exact hphased.updateCore

theorem judgePostQuench (h : Scanning f s) : Scanning f s.judgePostQuench := by
  unfold State.judgePostQuench
  split
  · next hst =>
    split
    · next hdrained =>
      exact h.startPostQuench hdrained.2 (by rw [hst]; rfl) (by rw [hst]; rfl) rfl (by rw [hst]; rfl)
    · exact h
  · split
    · next hst =>
      split
      · next hempty => exact h.startPostQuench hempty (by rw [hst]; rfl) (by rw [hst]; rfl) rfl (by rw [hst]; rfl)
      · exact h
    · exact h

theorem settle (h : Scanning f s) : Scanning f s.settle := by
  unfold State.settle
  split
  · next hsettled =>
    have hst := hsettled.1
    exact h.enteredAlike (by rw [hst]; exact nofun) rfl rfl rfl (by rw [hst]; rfl) rfl
  · exact h

theorem enterDwell (h : Scanning f s) (hst : s.sq.st = .heating) (z : Nat) : Scanning f (s.enterDwell z) := by
  have hpointed : Scanning f (s.pointDwell z) := h.keepSq rfl rfl
  have hchanged : Scanning f ((s.pointDwell z).change (.dwell .settling)) :=
    hpointed.changeAlike (by rw [State.pointDwell, State.setSq_sq, hst]; exact nofun)
      (by rw [State.pointDwell, State.setSq_sq, hst]; rfl)
  exact (hchanged.keepStk (.dwellNotice _ _ _ _ _)).settle

/-- RUNOUT ends heating, so that every slice is closed (R101). -/
theorem enterRunout (h : Scanning f s) (hst : s.sq.st = .heating) : Scanning f s.enterRunout := by
  have hquiet := change_quiet (.runout .travel) s
  have htravels : (s.change (.runout .travel)).noticeHeatingEnd.sq.st = .runout .travel := by
    rw [State.noticeHeatingEnd_sq, change_st]
  obtain ⟨hsound, hcold, hopen⟩ := (h.stk.of_quiet hquiet).heatingEnd (s.change (.runout .travel)).now
  have hctx : (s.change (.runout .travel)).trackCtx = s.trackCtx := by
    unfold State.trackCtx
    rw [State.change_zt]
  have hended : Scanning f (s.change (.runout .travel)).noticeHeatingEnd := by
    refine h.entered (by rw [hst]; exact nofun) (by simp) (by simp) ?_ ?_ ?_
    · unfold State.noticeHeatingEnd
      rw [hctx]
      exact hsound
    · rw [htravels]
      unfold State.noticeHeatingEnd
      rw [hctx]
      exact ⟨fun hon => absurd (hcold.symm.trans hon) Bool.false_ne_true, fun _ => rfl,
        (hopen.trans hquiet.summaryOpen).trans (h.summaryOpen (by rw [hst]; rfl))⟩
    · rw [State.noticeHeatingEnd_sq, change_heldFrom, change_st, h.held, hst]
      rfl
  exact hended.judgePostQuench

theorem arrivalChecks (h : Scanning f s) : Scanning f s.arrivalChecks := by
  unfold State.arrivalChecks
  split
  · next hst =>
    split
    · exact h.enterDwell hst _
    · exact ite (h.enterRunout hst) h
  · exact h

/-! ## Holds (R102, R121, R122, R125) -/

theorem enterHeld (h : Scanning f s) (hin : s.sq.st.inScan = true) (htracks : tracks s.sq.st = false)
    (hheat : s.sq.st.isHeat = false) (brk : HeldFrom) : Scanning f (s.enterHeld brk) := by
  have hentered : Scanning f ((s.setSq { s.sq with
      heldFrom := some brk, startRecord := StartRecord.cleared }).enter .held none) :=
    h.entered (ne_idle_of_inScan hin) rfl rfl h.stk
      (.of_rest (h.cold hheat) (h.empty htracks) (h.summaryOpen hin)) rfl
  exact hentered.handOn

/-- QUENCHOUT breaks the heating, so that every slice is closed (R102). -/
theorem enterQuenchout (h : Scanning f s) (hheat : s.sq.st.isHeat = true) (brk : HeldFrom) :
    Scanning f (s.enterQuenchout brk) := by
  have hin := inScan_of_isMotion (isMotion_of_isHeat hheat)
  unfold State.enterQuenchout
  have hzt : ((s.setSq { s.sq with heldFrom := some brk, dwellZone := none }).change (.quenchout .travel)).zt = s.zt :=
    State.change_zt _ _
  have hrs : ((s.setSq { s.sq with heldFrom := some brk, dwellZone := none }).change (.quenchout .travel)).rs = s.rs :=
    State.change_rs _ _
  have hst := change_st (s.setSq { s.sq with heldFrom := some brk, dwellZone := none }) (.quenchout .travel)
  have hheld := change_heldFrom (.quenchout .travel) (s.setSq { s.sq with heldFrom := some brk, dwellZone := none })
  have hquiet := change_quiet (.quenchout .travel) (s.setSq { s.sq with heldFrom := some brk, dwellZone := none })
  generalize (s.setSq { s.sq with heldFrom := some brk, dwellZone := none }).change (.quenchout .travel) = u at *
  have hctx : u.trackCtx = s.trackCtx := by
    unfold State.trackCtx
    rw [hzt]
  have hbroken : Scanning f u.noticeHoldBreak := by
    refine h.entered (ne_idle_of_inScan hin) hzt hrs ?_ ?_ ?_
    · unfold State.noticeHoldBreak
      rw [hctx]
      exact (h.stk.of_quiet hquiet).holdBreak u.now
    · rw [State.noticeHoldBreak_sq, hst]
      exact ⟨fun hon => absurd hon Bool.false_ne_true, fun _ => rfl, hquiet.summaryOpen.trans (h.summaryOpen hin)⟩
    · rw [State.noticeHoldBreak_sq, hheld, hst]
      rfl
  exact hbroken.judgePostQuench

theorem holdRequest (h : Scanning f s) : Scanning f s.holdRequest := by
  unfold State.holdRequest
  cases hst : s.sq.st with
  | seek | approach ph =>
    exact h.enterHeld (by rw [hst]; rfl) (by rw [hst]; rfl) (by rw [hst]; rfl) _
  | heating | dwell ph => exact h.enterQuenchout (by rw [hst]; rfl) _
  | idle | armed | runout ph | done | quenchout ph | held | fault ph => exact h

theorem writeHold (h : Scanning f s) (field : Port) (v : Bool) : Scanning f (s.writeHold field v) :=
  ite (h.setLp _).holdRequest (h.setLp _)

/-! ## The fields every port may carry -/

theorem takeHold (h : Scanning f s) (port field : Port) (w : ControlWord) : Scanning f (s.takeHold port field w) :=
  ite (h.writeHold _ _) h

theorem takeAbort (h : Scanning f s) (port : Port) (w : ControlWord) : Scanning f (s.takeAbort port w) :=
  ite (h.reportFault _ _) h

theorem takeKeepOn (h : Scanning f s) (port : Port) (w : ControlWord) : Scanning f (s.takeKeepOn port w) :=
  ite (h.setLp _) h

theorem takeShared (h : Scanning f s) (port : Port) (w : ControlWord) : Scanning f (s.takeShared port w) :=
  (((((h.takeHold port .s w).takeHold port .p w).takeHold port .m w).takeHold port .q w).takeAbort port w).takeKeepOn
    port w

/-! ## An advance, but for the opening and the start of HEATING -/

theorem movePointer (h : Scanning f s) : Scanning f s.movePointer := by
  unfold State.movePointer
  split
  · exact h
  · exact h.keepSq rfl rfl

theorem drainCheck (h : Scanning f s) (limit : Int) : Scanning f (s.drainCheck limit) := ite (h.reportFault _ _) h

end Scanning

/-! ## The scan at the frontier -/

/-- The scan's invariant at the frontier, as it is between two commands. -/
def Settled (s : State) : Prop := Scanning s.cu.frontier s

namespace Settled

variable {s t : State}

/-- An operation that leaves the coordinate unit. -/
theorem of_scanning (h : Scanning s.cu.frontier t) (hc : t.cu = s.cu) : Settled t := by
  unfold Settled
  rw [hc]
  exact h

/-- The blocks that the invariant reads, and the frontier, as they were. -/
theorem of_frame (h : Settled s) (hf : t.cu.frontier = s.cu.frontier) (hz : t.zt = s.zt) (hr : t.rs = s.rs)
    (hq : t.sq = s.sq) (hk : t.stk = s.stk) : Settled t := by
  unfold Settled
  rw [hf]
  exact Scanning.of_frame h hz hr hq hk

theorem setLp (h : Settled s) (v : Lp) : Settled (s.setLp v) := Scanning.setLp h v
theorem setLu (h : Settled s) (v : Lu) : Settled (s.setLu v) := Scanning.setLu h v
theorem setPe (h : Settled s) (v : Pe) : Settled (s.setPe v) := Scanning.setPe h v
theorem setPending (h : Settled s) (v : List Instr) : Settled (s.setPending v) := Scanning.setPending h v
theorem drawn (h : Settled s) : Settled s.drawn := Scanning.drawn h

/-- The coordinate unit written with the frontier as it was. -/
theorem keepCu (h : Settled s) {v : Cu} (hv : v.frontier = s.cu.frontier) : Settled (s.setCu v) :=
  h.of_frame hv rfl rfl rfl rfl

theorem keepSq (h : Settled s) {v : Sq} (hst : v.st = s.sq.st) (hheld : v.heldFrom = s.sq.heldFrom) :
    Settled (s.setSq v) := Scanning.keepSq h hst hheld

theorem keepStk (h : Settled s) {v : Stk} (q : s.stk.Quiet v) : Settled (s.setStk v) := Scanning.keepStk h q

theorem ite {p : Prop} [Decidable p] (hs : Settled s) (ht : Settled t) : Settled (if p then s else t) := by
  split
  · exact hs
  · exact ht

theorem reportFault (h : Settled s) (code : FaultCode) (source : FaultSource) : Settled (s.reportFault code source) :=
  of_scanning (Scanning.reportFault h code source) (State.reportFault_cu s code source)

theorem travelCheck (h : Settled s) (bounded : Bool) : Settled (s.travelCheck bounded) := ite (h.reportFault _ _) h

theorem reversalCheck (h : Settled s) : Settled s.reversalCheck := ite (h.reportFault _ _) h

theorem judgePostQuench (h : Settled s) : Settled s.judgePostQuench :=
  of_scanning (Scanning.judgePostQuench h) (State.judgePostQuench_cu s)

theorem settle (h : Settled s) : Settled s.settle := of_scanning (Scanning.settle h) (State.settle_cu s)

theorem arrivalChecks (h : Settled s) : Settled s.arrivalChecks :=
  of_scanning (Scanning.arrivalChecks h) (State.arrivalChecks_cu s)

theorem updateCore (h : Settled s) : Settled s.updateCore := of_scanning (Scanning.updateCore h) (State.updateCore_cu s)

theorem changeAlike (h : Settled s) (hne : s.sq.st ≠ .idle) {st : SeqState} (hrole : st.role = s.sq.st.role) :
    Settled (s.change st) := of_scanning (Scanning.changeAlike h hne hrole) (State.change_cu s st)

theorem takeShared (h : Settled s) (port : Port) (w : ControlWord) : Settled (s.takeShared port w) :=
  of_scanning (Scanning.takeShared h port w) (State.takeShared_cu s port w)

/-! ## HEATING (R83, R100) -/

/-- HEATING entered in a scan, from a state that the invariant holds in but for the sequencer's records of it. -/
theorem heated (h : Settled s) (hin : s.sq.st.inScan = true) {u : State} (hz : u.zt = s.zt) (hr : u.rs = s.rs)
    (hc : u.cu = s.cu) (hk : u.stk = s.stk) (hheld : u.sq.heldFrom = none) : Settled u.enterHeating := by
  have hne := ne_idle_of_inScan hin
  have hzt : ((u.enter .heating none).startWatches).handOn.zt = s.zt := (by simp [hz])
  have hrs : ((u.enter .heating none).startWatches).handOn.rs = s.rs := (by simp [hr])
  have hcu : ((u.enter .heating none).startWatches).handOn.cu = s.cu := (by simp [hc])
  have hst : ((u.enter .heating none).startWatches).handOn.sq.st = .heating := handOn_st _
  have hnone : ((u.enter .heating none).startWatches).handOn.sq.heldFrom = none := (handOn_heldFrom _).trans hheld
  have hquiet : s.stk.Quiet ((u.enter .heating none).startWatches).handOn.stk := by
    have hhanded := handOn_quiet ((u.enter .heating none).startWatches)
    rwa [State.startWatches_stk, State.enter_stk, hk] at hhanded
  have hentering : u.enterHeating =
    ((((u.enter .heating none).startWatches).handOn).noticeHeatingStart).reversalCheck.arrivalChecks := rfl
  rw [hentering]
  generalize ((u.enter .heating none).startWatches).handOn = v at *
  have hctx : v.trackCtx = s.trackCtx := by
    unfold State.trackCtx
    rw [hzt]
  obtain ⟨hsound, hopen⟩ := (Stk.Sound.of_quiet h.stk hquiet).heatingStart (h.pitch_pos hne)
    (hquiet.summaryOpen.trans (h.summaryOpen hin))
  have hstarted : Settled v.noticeHeatingStart := by
    refine of_scanning (s := s) (Scanning.entered h hne hzt hrs ?_ ?_ ?_) hcu
    · unfold State.noticeHeatingStart
      rw [hctx, hcu]
      exact hsound
    · rw [State.noticeHeatingStart_sq, hst]
      unfold State.noticeHeatingStart
      rw [hctx, hcu]
      exact ⟨fun _ => rfl, fun _ => rfl, hopen.trans (hquiet.summaryOpen.trans (h.summaryOpen hin))⟩
    · rw [State.noticeHeatingStart_sq, hnone, hst]
      rfl
  exact hstarted.reversalCheck.arrivalChecks

/-- HEATING entered in a state of the scan that holds no held-from record. -/
theorem enterHeating (h : Settled s) (hin : s.sq.st.inScan = true) (hheld : s.sq.st.holdsRecord = false) :
    Settled s.enterHeating := h.heated hin rfl rfl rfl rfl (h.heldFrom_none hheld)

/-! ## The approach (R80 to R82) -/

theorem judgeStart (h : Settled s) (expired : Bool) : Settled (s.judgeStart expired) := h.keepSq rfl rfl

theorem rejudge (h : Settled s) : Settled s.rejudge := by
  unfold State.rejudge
  split
  · next hst =>
    have hjudged := h.judgeStart s.sq.startRecord.waitExpired
    exact ite (hjudged.enterHeating (by rw [State.judgeStart, State.setSq_sq, hst]; rfl)
      (by rw [State.judgeStart, State.setSq_sq, hst]; rfl)) hjudged
  · exact h

theorem update (h : Settled s) : Settled s.update := ite h.updateCore h.updateCore.rejudge

theorem startWait (h : Settled s) (hst : s.sq.st = .approach .travel) : Settled s.startWait := by
  have hwaits : Settled (s.setSq { s.sq with
      st := .approach .wait, approachWait := some (s.now + Config.approachWait) }) :=
    Scanning.enteredAlike h (by rw [hst]; exact nofun) rfl rfl rfl (by rw [hst]; rfl) rfl
  exact hwaits.update

theorem heatOrWait (h : Settled s) (hst : s.sq.st = .approach .travel) : Settled s.heatOrWait :=
  ite (h.enterHeating (by rw [hst]; rfl) (by rw [hst]; rfl)) (h.startWait hst)

theorem arriveRunIn (h : Settled s) (hst : s.sq.st = .approach .travel) : Settled s.arriveRunIn :=
  ite (h.reportFault _ _) ((h.judgeStart false).heatOrWait hst)

theorem runInCheck (h : Settled s) : Settled s.runInCheck := by
  unfold State.runInCheck
  split
  · next hst => exact ite (h.reportFault _ _) (ite (h.arriveRunIn hst) h)
  · exact h

end Settled

end Sys2Proof.Machine
end

section
/-! PROOF. The scan kept by an edge and its advance, and by the control word (O59). -/

namespace Sys2Proof.Machine

/-! ## An edge and its advance (R15, R16, R98, R99, R108) -/

theorem Scanning.withStk {f f' : Int} {s : State} (h : Scanning f s) {v : Stk} (hk : v.Sound s.trackCtx f')
    (hsuits : v.Suits s.sq.st) : Scanning f' (s.setStk v) :=
  ⟨h.bank, hk, hsuits, h.held, h.startUp⟩

/-- The advance takes the slices from the frontier before to the present one. -/
theorem Scanning.passFrontier {f : Int} {s : State} (h : Scanning f s) (hf : f ≤ s.cu.frontier) :
    Settled s.passFrontier := by
  have hslices := h.stk.advance_slices s.quenchCondition s.cu.frontier s.now
  obtain ⟨-, hopen, hheating, -⟩ := h.stk.advance_account s.quenchCondition s.cu.frontier s.now
  refine h.withStk (h.stk.advance _ hf _) ⟨fun hon => h.suits.heats (hheating.symm.trans hon), fun hne => ?_,
    hopen.trans h.suits.summary⟩
  refine h.suits.tracks fun hnil => hne ?_
  rw [hslices, hnil]
  rfl

theorem advanceFrontier_le (c : Cu) : c.frontier ≤ c.advanceFrontier.frontier := by
  unfold Cu.advanceFrontier
  split
  · next hbehind => exact Int.le_of_lt hbehind
  · exact Int.le_refl _

namespace Settled

variable {s t : State}

/-- Where heating is noted, the newest slice is opened in a scan. -/
theorem openAtFrontier (h : Settled s) : Settled s.openAtFrontier := by
  cases hheating : s.stk.heating with
  | false =>
    rw [openAtFrontier_cold s hheating]
    exact h
  | true =>
    have hheat := h.suits.heats hheating
    obtain ⟨hsound, hopen, hsame⟩ := Stk.Sound.tryOpen h.stk (fun _ => h.pitch_pos (ne_idle_of_isHeat hheat))
      (fun _ => h.summaryOpen (inScan_of_isMotion (isMotion_of_isHeat hheat)))
    refine Scanning.withStk h hsound ⟨fun _ => hheat, fun _ => ?_, hopen.trans h.suits.summary⟩
    unfold tracks
    rw [hheat]
    rfl

theorem marksAdvance (h : Settled s) (old : Int) : Settled (s.marksAdvance old) :=
  h.of_frame (marksAdvance_frontier old s) (by simp) (by simp) (by simp) (by simp)

theorem drainCheck (h : Settled s) (limit : Int) : Settled (s.drainCheck limit) := ite (h.reportFault _ _) h

theorem movePointer (h : Settled s) : Settled s.movePointer :=
  of_scanning (Scanning.movePointer h) (State.movePointer_cu s)

theorem seqAdvance (h : Settled s) : Settled s.seqAdvance := by
  unfold State.seqAdvance
  split
  · exact ite (h.reportFault _ _) h
  · next hst => exact ite (h.arriveRunIn hst) h
  · exact ite (h.reportFault _ _) h
  · exact h.arrivalChecks
  · split
    · exact h
    · exact ite (h.reportFault _ _) h
  · exact h.judgePostQuench.drainCheck _
  · exact h
  · exact h.movePointer.drainCheck _
  · exact h.movePointer
  · exact h.movePointer
  all_goals exact h

end Settled

theorem Scanning.advance {f : Int} {s : State} (h : Scanning f s) (hf : f ≤ s.cu.frontier) (old : Int) :
    Settled (s.advance old) := by
  have hpassed := h.passFrontier hf
  have hnoticed : Settled (s.passFrontier.noticeEmpty s.stk.track) := .ite hpassed.judgePostQuench hpassed
  exact (hnoticed.openAtFrontier.marksAdvance old).seqAdvance

/-- The edge is checked with the track as it was before it, and handed on only where it has advanced the frontier. -/
theorem Scanning.handAdvance {f : Int} {s : State} (h : Scanning f s) (hf : f ≤ s.cu.frontier) :
    Settled (s.handAdvance f) := by
  unfold State.handAdvance
  split
  · exact h.advance hf f
  · next hstill =>
    have hsame : f = s.cu.frontier := Int.le_antisymm hf (Int.not_lt.1 hstill)
    rw [hsame] at h
    exact h

namespace Settled

variable {s t : State}

theorem takeEdge (h : Settled s) (up : Bool) : Settled (s.takeEdge up) := by
  have hmoved : Scanning s.cu.frontier (s.moveEdge up) := Scanning.setCu h _
  refine ((hmoved.travelCheck (s.cu.stepEdge up).2).reversalCheck).handAdvance ?_
  rw [State.reversalCheck_cu, State.travelCheck_cu]
  exact advanceFrontier_le (s.cu.stepEdge up).1

theorem setEncPhase (h : Settled s) (p : EncPhase) : Settled (s.setEncPhase p) := h.keepCu rfl

theorem takeLevels (h : Settled s) (a b : Bool) : Settled (s.takeLevels a b) := by
  have hlegal : ∀ p forward, Settled (s.legalTransition p forward) := fun p forward =>
    ite ((h.setEncPhase p).takeEdge _) (h.setEncPhase p)
  have hmarked (p : EncPhase) : Settled (s.setCu { s.cu with phase := p, encoderError := true }) := h.keepCu rfl
  unfold State.takeLevels
  dsimp only
  split
  · exact h
  · exact hlegal _ _
  · exact hlegal _ _
  · exact (hmarked _).reportFault _ _

/-! ## Fault clear, RUN and resume (R75 to R77, R126 to R128, R143) -/

theorem judgeClear (h : Settled s) : Settled s.judgeClear.1 := by
  unfold State.judgeClear
  split
  · exact h
  · split
    · next hst =>
      split
      · exact h
      · have hcleared : Settled (s.setSq { s.sq with secondaryCount := 0, latestSecondary := none }) :=
          h.keepSq rfl rfl
        exact hcleared.changeAlike (by rw [State.setSq_sq, hst]; exact nofun) (by rw [State.setSq_sq, hst]; rfl)
    · exact h

/-- A state of the scan's approach entered by a RUN: its summary opened over an empty track. -/
theorem enterRun (h : Settled s) (hne : s.sq.st ≠ .idle) (hin : s.sq.st.inScan = false) {u : State} {st : SeqState}
    (hrole : st.role = SeqState.role .seek) (hz : u.zt = s.zt) (hr : u.rs = s.rs) (hheld : u.sq.heldFrom = none)
    {scan : Word32} {identifier : Nat} (hk : u.stk = s.stk.openSummary scan identifier) : Settled (u.change st) := by
  have hslices : s.stk.slices = [] := h.empty (at_rest hin).2
  have hopened : (s.stk.openSummary scan identifier).Suits st :=
    .of_role (.of_rest rfl hslices rfl) hrole
  have hentered : Scanning u.cu.frontier (u.enter st none) := by
    refine Scanning.entered h hne hz hr ?_ ?_ ?_
    · rw [State.enter_stk, hk]
      exact .openSummary _ hslices _ _
    · rw [State.enter_stk, hk]
      exact hopened
    · exact (congrArg Option.isSome hheld).trans (congrArg (fun r => r.2.2.2) hrole).symm
  exact of_scanning hentered.handOn (State.change_cu u st)

theorem acceptRun (h : Settled s) (hne : s.sq.st ≠ .idle) (hin : s.sq.st.inScan = false) : Settled s.acceptRun := by
  have happroaches : Settled (s.fillScanRecord.openScan.change (.approach .travel)) :=
    h.enterRun hne hin rfl rfl rfl rfl rfl
  have hseeks : Settled ((s.fillScanRecord.openScan.setSq { s.fillScanRecord.openScan.sq with
      seekStart := some s.fillScanRecord.openScan.cu.frontier }).change .seek) :=
    h.enterRun hne hin rfl rfl rfl rfl rfl
  exact ite (hseeks.travelCheck false) (happroaches.travelCheck false).runInCheck

theorem judgeRun (h : Settled s) (hne : s.sq.st ≠ .idle) (hin : s.sq.st.inScan = false) : Settled s.judgeRun.1 := by
  unfold State.judgeRun
  split
  · exact h
  · split
    · exact h
    · split
      · exact h
      · exact h.acceptRun hne hin

theorem arriveIfReached (h : Settled s) : Settled s.arriveIfReached := by
  unfold State.arriveIfReached
  split
  · next hreached => exact h.arriveRunIn hreached.1
  · exact h

/-- SEEK or APPROACH entered by a resume, its held-from record emptied. -/
theorem resumed (h : Settled s) (hst : s.sq.st = .held) {st : SeqState} (hrole : st.role = SeqState.role .seek) :
    Settled ((s.setSq { s.sq with heldFrom := none }).change st) := by
  have hsuits : s.stk.Suits st := by
    refine .of_role (.of_rest (h.cold (by rw [hst]; rfl)) (h.empty (by rw [hst]; rfl)) ?_) hrole
    exact h.summaryOpen (by rw [hst]; rfl)
  have hentered : Scanning s.cu.frontier ((s.setSq { s.sq with heldFrom := none }).enter st none) :=
    Scanning.entered h (by rw [hst]; exact nofun) rfl rfl h.stk hsuits (congrArg (fun r => r.2.2.2) hrole).symm
  exact of_scanning hentered.handOn (State.change_cu _ st)

theorem acceptResume (h : Settled s) (hst : s.sq.st = .held) (brk : HeldFrom) : Settled (s.acceptResume brk) := by
  have hheated : Settled (s.setSq { s.sq with heldFrom := none }).enterHeating :=
    h.heated (by rw [hst]; rfl) rfl rfl rfl rfl rfl
  cases brk with
  | seek => exact (h.resumed hst (st := .seek) rfl).travelCheck _
  | approach => exact ((h.resumed hst (st := .approach .travel) rfl).travelCheck _).arriveIfReached
  | heating brk | dwell brk => exact hheated.travelCheck _

theorem judgeResume (h : Settled s) (hst : s.sq.st = .held) : Settled s.judgeResume.1 := by
  unfold State.judgeResume
  split
  · exact h
  · split
    · exact h
    · split
      · exact h
      · split
        · exact h
        · exact h.acceptResume hst _

theorem takeRun (h : Settled s) : Settled s.takeRun.1 := by
  unfold State.takeRun
  cases hst : s.sq.st with
  | armed | done => exact h.judgeRun (by rw [hst]; exact nofun) (by rw [hst]; rfl)
  | held => exact h.judgeResume hst
  | idle | fault ph | seek | approach ph | heating | dwell ph | runout ph | quenchout ph => exact h

theorem takeClearField (h : Settled s) (w : ControlWord) : Settled (s.takeClearField w).1 := by
  unfold State.takeClearField
  split
  · exact h.judgeClear
  · exact h

theorem takeRunField (h : Settled s) (w : ControlWord) : Settled (s.takeRunField w).1 := by
  unfold State.takeRunField
  split
  · exact h.takeRun
  · exact h

theorem arrive (h : Settled s) (w : Port) : Settled (s.arrive w) := h.setLp _

theorem answer (h : Settled s) (tag : Byte) (a : Answer) : Settled (s.answer tag a) := h.setLp _

theorem superviseWord (h : Settled s) (tag : Byte) (w : ControlWord) : Settled (s.superviseWord tag w) :=
  (((h.takeShared .s w).takeClearField w).takeRunField w).answer _ _

theorem takeControl (h : Settled s) (port : Port) (tag : Byte) (w : ControlWord) : Settled (s.takeControl port tag w) :=
  ite (ite (h.arrive .s) (ite ((h.arrive .s).answer _ _) ((h.arrive .s).superviseWord tag w)))
    ((h.arrive port).takeShared port w)

theorem takeControlPayload (h : Settled s) (port : Port) (tag : Byte) (l : List Byte) :
    Settled (s.takeControlPayload port tag l) := by
  unfold State.takeControlPayload
  split
  · exact h.takeControl port tag _
  · exact ite (h.arrive port) ((h.arrive port).answer _ _)

end Settled

end Sys2Proof.Machine
end

section
/-! PROOF. The scan kept by the recipe store, COMMIT, the resets and the requests (O59). -/

namespace Sys2Proof.Machine

namespace Settled

variable {s t : State}

/-! ## The recipe store (R40 to R47) -/

/-- Where no load is in flight, no start-up load is under way. -/
theorem not_loading (h : Settled s) (hn : ¬ LoadInFlight s) : s.rs.startUp ≠ .loading := fun hl =>
  hn (h.startUp hl).2

/-- The store and the shadow bank written while no start-up load is under way. -/
theorem keepActive (h : Settled s) (hf : t.cu.frontier = s.cu.frontier) (hz : t.zt.activeBank = s.zt.activeBank)
    (hr : t.rs.startUp ≠ .loading) (hq : t.sq = s.sq) (hk : t.stk = s.stk) : Settled t := by
  unfold Settled
  rw [hf]
  exact Scanning.of_quiet h hz (fun hl => absurd hl hr) (by rw [hq]) (by rw [hq]) (hk ▸ .refl _)

theorem setShadow (h : Settled s) (b : Bank) : Settled (s.setShadow b) :=
  Scanning.of_quiet h (StoredKept.setShadow_activeBank s.zt b) (fun hl => ⟨hl, rfl⟩) rfl rfl (.refl _)

/-- The completion of an operation that is not a load. -/
theorem complete (h : Settled s) {op : RsOp} (hop : s.completed = some op) (hload : ∀ k, op ≠ .load k) {v : Rs}
    (hv : v.startUp = s.rs.startUp) : Settled ((s.setRs v).endOp) := by
  obtain ⟨f, hf, -, rfl⟩ := (completed_eq_some s op).1 hop
  have hn : ¬ LoadInFlight s := by
    rintro ⟨g, k, hg, hk⟩
    rw [hf] at hg
    cases hg
    exact hload k hk
  exact h.keepActive rfl rfl (hv ▸ h.not_loading hn) rfl rfl

theorem completeStore (h : Settled s) : Settled s.completeStore := by
  unfold State.completeStore
  split
  · next hop => exact h.complete hop nofun rfl
  · exact h

theorem completeErase (h : Settled s) : Settled s.completeErase := by
  unfold State.completeErase
  split
  · next hop => exact h.complete hop nofun rfl
  · exact h

theorem completeOptions (h : Settled s) : Settled s.completeOptions := by
  have hwritten (o : OptionBlock) : (s.rs.writeCopy o).startUp = s.rs.startUp := by
    unfold Rs.writeCopy
    split <;> rfl
  unfold State.completeOptions
  split
  · next hop => exact h.complete hop nofun (hwritten _)
  · exact h

/-- An operation is begun only when none is in flight. -/
theorem startOp (h : Settled s) (hfree : ¬ s.rs.inFlight.isSome = true) (op : RsOp) (time : Nat) :
    Settled (s.startOp op time) := by
  have hn : ¬ LoadInFlight s := by
    rintro ⟨g, k, hg, -⟩
    exact hfree (by rw [hg]; rfl)
  exact h.keepActive rfl rfl (h.not_loading hn) rfl rfl

theorem loadRecipe (h : Settled s) (n : Nat) : Settled (State.loadRecipe n s).1 := by
  unfold State.loadRecipe
  split
  · split
    · exact h
    · next hfree =>
      split
      · exact h.startOp hfree _ _
      · exact h
  · exact h

theorem storeRecipe (h : Settled s) (n : Nat) : Settled (State.storeRecipe n s).1 := by
  unfold State.storeRecipe
  split
  · split
    · exact h
    · split
      · exact h
      · next hfree => exact h.startOp hfree _ _
  · exact h

theorem eraseRecipe (h : Settled s) (n : Nat) : Settled (State.eraseRecipe n s).1 := by
  unfold State.eraseRecipe
  split
  · split
    · exact h
    · split
      · exact h
      · next hfree => exact h.startOp hfree _ _
  · exact h

theorem writeOptions (h : Settled s) (w : OptionsWrite) : Settled (State.writeOptions w s).1 := by
  unfold State.writeOptions
  split
  · exact h
  · split
    · exact h
    · next hfree => exact h.startOp hfree _ _

/-! ## COMMIT and DISARM (R32, R38, R74) -/

theorem at_commit {st : SeqState} (h : State.commitAllowed st = true) :
    st.inScan = false ∧ st.role = SeqState.role .armed := by
  cases st with
  | idle | armed | done => exact ⟨rfl, rfl⟩
  | seek | approach ph | heating | dwell ph | runout ph | quenchout ph | held | fault ph => cases h

theorem exchange_quiet (u : State) : u.stk.Quiet u.exchange.stk := by
  have hjudged : ((u.setZt u.zt.exchange).takeOrigin.rejudgeQuench).stk = u.stk := by simp
  unfold State.exchange State.arm
  split
  · exact hjudged ▸ .refl _
  · exact hjudged ▸ change_quiet _ _

theorem exchange_st (u : State) : u.exchange.sq.st = .armed := by
  unfold State.exchange State.arm
  split
  · next hst => exact hst
  · exact change_st _ _

theorem exchange_heldFrom (u : State) : u.exchange.sq.heldFrom = u.sq.heldFrom := by
  have hjudged : ((u.setZt u.zt.exchange).takeOrigin.rejudgeQuench).sq = u.sq := by simp
  unfold State.exchange State.arm
  split
  · rw [hjudged]
  · rw [change_heldFrom, hjudged]

/-- A commit makes the bank that it has validated the active one, while the track is empty. -/
theorem exchanged (h : Settled s) (hallowed : State.commitAllowed s.sq.st = true) {u : State} (hq : u.sq = s.sq)
    (hk : u.stk = s.stk) (hvalid : validate u.cu.scaleK u.zt.shadowBank = none) {v : Rs} (hv : v.startUp ≠ .loading) :
    Settled (u.exchange.setRs v) := by
  obtain ⟨hin, hrole⟩ := at_commit hallowed
  have hquiet : s.stk.Quiet u.exchange.stk := hk ▸ exchange_quiet u
  refine ⟨fun _ => ⟨u.cu.scaleK, ?_⟩, ?_, ?_, ?_, fun hl => absurd hl hv⟩
  · have hbank : u.exchange.zt = u.zt.exchange := by simp [State.exchange]
    rw [State.setRs_zt, hbank]
    exact hvalid
  · exact .of_empty (hquiet.slices.trans (h.empty (at_rest hin).2)) (Stk.Sound.of_quiet h.stk hquiet).account
  · rw [State.setRs_sq, exchange_st]
    exact (h.suits.of_quiet hquiet).of_role hrole.symm
  · rw [State.setRs_sq, exchange_st, exchange_heldFrom, hq, h.held]
    exact congrArg (fun r => r.2.2.2) hrole

theorem commit (h : Settled s) (u : Unit) : Settled (State.commit u s).1 := by
  unfold State.commit
  split
  · exact h
  · next hfree =>
    split
    · exact h
    · next hallowed =>
      split
      · exact h
      · next hvalid =>
        have hstarted := h.not_loading (mt (loading_iff s).2 hfree)
        rw [← State.exchange_rs s] at hstarted
        exact h.exchanged (by simpa using hallowed) rfl rfl hvalid hstarted

/-- A start-up load finds the part in IDLE, and is committed there or leaves it so (R47). -/
theorem completeLoad (h : Settled s) : Settled s.completeLoad := by
  unfold State.completeLoad
  split
  · next slot hop =>
    have hbank : (s.copyImage slot).zt.activeBank = s.zt.activeBank := StoredKept.setShadow_activeBank s.zt _
    split
    · next hloading =>
      have hidle := (h.startUp hloading).1
      unfold State.commitStartUp
      split
      · next hvalid => exact h.exchanged (by rw [hidle]; rfl) (u := (s.copyImage slot).endOp) rfl rfl hvalid nofun
      · exact h.keepActive rfl hbank nofun rfl rfl
    · next hloaded => exact h.keepActive rfl hbank hloaded rfl rfl
  · exact h

theorem disarm (h : Settled s) (u : Unit) : Settled (State.disarm u s).1 := by
  unfold State.disarm
  split
  · next hst => rcases hst with hst | hst <;> exact h.changeAlike (by rw [hst]; exact nofun) (by rw [hst]; rfl)
  · split
    · next hst =>
      have hslices : s.stk.slices = [] := h.empty (by rw [hst]; rfl)
      obtain ⟨hsound, hclosed⟩ := Stk.Sound.closeSummary h.stk hslices (status := .abandoned) rfl none
      have hentered : Scanning s.cu.frontier (s.abandon.enter .idle none) :=
        Scanning.entered h (by rw [hst]; exact nofun) rfl rfl hsound
          (.of_rest (h.cold (by rw [hst]; rfl)) hslices hclosed) rfl
      exact of_scanning hentered.handOn (State.change_cu s.abandon .idle)
    · exact h

/-! ## The resets (R24, R47, R93, R94) -/

/-- A reset leaves an empty track in IDLE, and a start-up load under way only with its load in flight. -/
theorem reset (v : State) (time : Nat) (scan : Word32) (phase : EncPhase) (pins : Vector PinDrive 8) (railMv : Nat)
    (rs : Rs) : Settled (v.blocksReset time scan phase pins railMv rs).startUpLoad := by
  generalize hblocks : v.blocksReset time scan phase pins railMv rs = w
  have hstk : w.stk = Stk.resetValue := hblocks ▸ rfl
  have hst : w.sq.st = .idle := hblocks ▸ rfl
  have hheld : w.sq.heldFrom = none := hblocks ▸ rfl
  refine ⟨fun hne => absurd ?_ hne, ?_, ?_, ?_, fun hl => ⟨?_, ?_⟩⟩
  · rw [State.startUpLoad_sq, hst]
  · rw [State.startUpLoad_stk, hstk]
    exact .of_empty rfl nofun
  · rw [State.startUpLoad_stk, State.startUpLoad_sq, hstk, hst]
    exact .of_rest rfl rfl rfl
  · rw [State.startUpLoad_sq, hst, hheld]
    rfl
  · rw [State.startUpLoad_sq, hst]
  · revert hl
    unfold State.startUpLoad
    split
    · exact nofun
    · split
      · exact fun _ => ⟨_, _, rfl, rfl⟩
      · exact nofun

theorem powerOn (e : ResetEnd) (s : State) : Settled (s.powerOn e) := reset _ _ _ _ _ _ _

theorem warmReset (s : State) : Settled s.warmReset := reset _ _ _ _ _ _ _

/-! ## The requests -/

theorem takeRequest {α : Type} (h : Settled s) (tag : Byte) (p : Payload α) {body : α → State → State × Answer}
    (hbody : ∀ f u, Settled u → Settled (body f u).1) : Settled (takeRequest tag p body s) := by
  unfold Machine.takeRequest judgeRequest
  refine ite (h.arrive .s) (ite ((h.arrive .s).answer _ _) ?_)
  cases p with
  | wrongLength => exact (h.arrive .s).answer _ _
  | fields f => exact (hbody f _ (h.arrive .s)).answer _ _

/-- A request whose own rule leaves the frontier and the blocks that the invariant reads. -/
theorem frameRequest {α : Type} (h : Settled s) (tag : Byte) (p : Payload α) {body : α → State → State × Answer}
    (hf : ∀ f u, (body f u).1.cu.frontier = u.cu.frontier) (hz : ∀ f u, (body f u).1.zt = u.zt)
    (hr : ∀ f u, (body f u).1.rs = u.rs) (hq : ∀ f u, (body f u).1.sq = u.sq)
    (hk : ∀ f u, (body f u).1.stk = u.stk) : Settled (Machine.takeRequest tag p body s) :=
  h.takeRequest tag p fun f u hu => hu.of_frame (hf f u) (hz f u) (hr f u) (hq f u) (hk f u)

theorem readCapture_frontier (u : Unit) (s : State) : (State.readCapture u s).1.cu.frontier = s.cu.frontier := by
  unfold State.readCapture
  split <;> rfl

theorem writePosition_frontier (w : PositionWrite) (s : State) :
    (State.writePosition w s).1.cu.frontier = s.cu.frontier := by
  unfold State.writePosition
  split
  · rfl
  · split <;> rfl

theorem setStaging (h : Settled s) (v : Option HeaderPart1) : Settled (s.setStaging v) := h.setLp _

theorem writeHeader (h : Settled s) (w : HeaderWrite) : Settled (State.writeHeader w s).1 := by
  unfold State.writeHeader
  split
  · split
    · split
      · exact h.setStaging _
      · exact (h.setStaging _).setShadow _
    · exact h.setStaging _
  · split
    · exact h
    · split
      · exact h
      · exact (h.setStaging _).setShadow _
  · exact h

theorem writeZone (h : Settled s) (w : ZoneWrite) : Settled (State.writeZone w s).1 := by
  unfold State.writeZone
  split
  · split
    · exact h
    · split
      · exact h
      · exact h.setShadow _
  · exact h

theorem readSummary (h : Settled s) (part : Nat) : Settled (State.readSummary part s).1 := by
  have hdelivered (k : BufferKind) (l : List (List Byte)) : Settled (s.deliverFirst k l).1 := h.setLp _
  unfold State.readSummary
  split
  · split
    · exact h
    · exact (hdelivered _ _).keepStk (.markRead _)
  · exact h.of_frame (by simp) (by simp) (by simp) (by simp) (by simp)

theorem readException (h : Settled s) (u : Unit) : Settled (State.readException u s).1 := by
  unfold State.readException
  split
  · exact h
  · next hexceptions =>
    obtain ⟨hsound, hopen⟩ := Stk.Sound.dropException h.stk (by rw [hexceptions]; exact nofun)
    exact Scanning.withStk h hsound ⟨h.suits.heats, h.suits.tracks, hopen.trans h.suits.summary⟩

theorem answerRole (h : Settled s) (tag : Byte) : Settled (s.answerRole tag) :=
  ite (h.arrive .s) ((h.arrive .s).answer _ _)

theorem takeSupervisor (h : Settled s) (k : FrameKind) (tag : Byte) (l : List Byte) :
    Settled (s.takeSupervisor k tag l) := by
  cases k with
  | control => exact h.takeControlPayload .s tag l
  | writeHeader => exact h.takeRequest tag _ fun f _ hu => hu.writeHeader f
  | writeZone => exact h.takeRequest tag _ fun f _ hu => hu.writeZone f
  | commit => exact h.takeRequest tag _ fun f _ hu => hu.commit f
  | disarm => exact h.takeRequest tag _ fun f _ hu => hu.disarm f
  | loadRecipe => exact h.takeRequest tag _ fun f _ hu => hu.loadRecipe f
  | storeRecipe => exact h.takeRequest tag _ fun f _ hu => hu.storeRecipe f
  | eraseRecipe => exact h.takeRequest tag _ fun f _ hu => hu.eraseRecipe f
  | writeOptions => exact h.takeRequest tag _ fun f _ hu => hu.writeOptions f
  | readSummary => exact h.takeRequest tag _ fun f _ hu => hu.readSummary f
  | readException => exact h.takeRequest tag _ fun f _ hu => hu.readException f
  | readCapture => exact h.frameRequest tag _ readCapture_frontier (by simp) (by simp) (by simp) (by simp)
  | writePositionConfig => exact h.frameRequest tag _ writePosition_frontier (by simp) (by simp) (by simp) (by simp)
  | readStatus | readZone | readFault | writeLineConfig | writeLine | readLines | writeMark | reset =>
    exact h.frameRequest tag _ (by simp) (by simp) (by simp) (by simp) (by simp)
  | powerReport | driveStatus | quenchReport | sentByPart => exact h.answerRole tag

end Settled

end Sys2Proof.Machine
end

section
/-! PROOF. The scan kept by the links, the reports, the timers, the lines and the step (O59). -/

namespace Sys2Proof.Machine

namespace Settled

variable {s t : State}

/-! ## The links' own commands and the reports -/

theorem takeRail (h : Settled s) (railMv : Nat) : Settled (s.takeRail railMv) := by
  have hset : Settled (s.setRail railMv) := h.keepSq rfl rfl
  exact ite (hset.reportFault _ _) hset

theorem livenessExpiry (h : Settled s) (port : Port) : Settled (s.livenessExpiry port) := by
  have hlost : Settled (s.loseLink port) := h.setLp _
  unfold State.livenessExpiry
  split
  · cases port with
    | s =>
      have hheld : Settled ((s.loseLink .s).writeHold .s true) :=
        of_scanning (Scanning.writeHold hlost _ _) (State.writeHold_cu _ _ _)
      have hpolicy : Settled (s.loseLink .s).applyLossPolicy := ite hheld hlost
      exact ite (warmReset _) hpolicy
    | p | m => exact hlost.reportFault _ _
    | q =>
      have hjudged : Settled (s.loseLink .q).loseQuench := ite (hlost.setLp _) hlost
      exact hjudged.reportFault _ _
  · exact h

theorem creditPower (h : Settled s) (r : PowerReport) : Settled (s.creditPower r) := h.keepStk (.credit _ _)

theorem takePower (h : Settled s) (r : PowerReport) (st : InverterState) : Settled (s.takePower r st) := by
  have hkept : Settled (s.keepPower r st) := h.setLp _
  have hcredited := hkept.creditPower r
  have htripped : Settled ((s.keepPower r st).takeTrip r) :=
    ite ((hkept.drawn.reportFault _ _).creditPower r) ((hkept.drawn.creditPower r).reportFault _ _)
  have hnoted : Settled (((s.keepPower r st).creditPower r).noteLimiting st) :=
    ite (hcredited.keepStk (.powerLimited _)) hcredited
  exact ite htripped hnoted.rejudge

theorem powerReport (h : Settled s) (p : Payload PowerReport) : Settled (s.powerReport p) := by
  unfold State.powerReport
  split
  · exact h.arrive .p
  · split
    · exact h.arrive .p
    · exact (h.arrive .p).takePower _ _

theorem driveStatus (h : Settled s) (p : Payload Nat) : Settled (s.driveStatus p) := by
  have hkept (st : DriveState) : Settled ((s.arrive .m).keepDrive st) := (h.arrive .m).setLp _
  unfold State.driveStatus
  split
  · exact h.arrive .m
  · split
    · exact h.arrive .m
    · exact ite ((hkept _).reportFault _ _) (hkept _)

theorem watchPressure (h : Settled s) (r : QuenchReport) : Settled (s.watchPressure r) := by
  unfold State.watchPressure
  split
  · exact h
  · exact ite (ite (h.keepSq rfl rfl) h) (h.keepSq rfl rfl)

theorem quenchReport (h : Settled s) (p : Payload QuenchReport) : Settled (s.quenchReport p) := by
  unfold State.quenchReport
  split
  · exact h.arrive .q
  · next r =>
    have hkept : Settled ((s.arrive .q).keepQuench (State.boundQuench r)) := (h.arrive .q).setLp _
    have hjudged : Settled ((s.arrive .q).keepQuench (State.boundQuench r)).judgeIndications :=
      hkept.of_frame (by simp) (by simp) (by simp) (by simp) (by simp)
    exact hjudged.watchPressure _

/-! ## The receivers -/

theorem takeFrame (h : Settled s) (port : Port) (kind tag : Byte) (l : List Byte) :
    Settled (s.takeFrame port kind tag l) := by
  unfold State.takeFrame
  split
  · exact h.arrive _
  · exact h.takeSupervisor _ tag l
  · exact h.takeControlPayload _ tag l
  · exact h.powerReport _
  · exact h.driveStatus _
  · exact h.quenchReport _
  · exact h.arrive _

theorem discardFrame (h : Settled s) (port : Port) : Settled (s.discardFrame port) := h.setLp _

theorem takeCharacter (h : Settled s) (port : Port) (c : Byte) (stopHigh : Bool) :
    Settled (s.takeCharacter port c stopHigh) := by
  have hgood : Settled (s.goodCharacter port c) := by
    unfold State.goodCharacter
    dsimp only
    split
    · exact ite (h.setLp _) h
    · exact h.setLp _
    · exact h.setLp _
    · exact ite (h.discardFrame _) (h.setLp _)
    · exact ite (h.setLp _) (h.setLp _)
    · exact h.setLp _
    · exact ite (h.takeFrame _ _ _ _) (h.discardFrame _)
  exact ite hgood (h.discardFrame _)

/-! ## The timers -/

theorem updateExpiry (h : Settled s) : Settled s.updateExpiry := by
  have hdue : Settled (s.setPe { s.pe with nextUpdate := s.pe.nextUpdate + Config.updatePeriod }) := h.setPe _
  exact ite hdue.update.settle h

theorem waitExpiry (h : Settled s) : Settled s.waitExpiry :=
  ite (ite (h.reportFault _ _) (ite (h.reportFault _ _) (h.keepSq rfl rfl))) h

theorem dwellExpiry (h : Settled s) : Settled s.dwellExpiry := by
  unfold State.dwellExpiry
  split
  · next hended =>
    have hleft : Settled (s.setSq { s.sq with dwellZone := none }) := h.keepSq rfl rfl
    exact hleft.enterHeating (by rw [State.setSq_sq, hended.1]; rfl) (by rw [State.setSq_sq, hended.1]; rfl)
  · exact h

/-- DONE entered with the track empty, and the summary closed (R89). -/
theorem enterDone (h : Settled s) (hst : s.sq.st = .runout .postQuench) : Settled s.enterDone := by
  have hquiet := change_quiet .done s
  have hslices : (s.change .done).stk.slices = [] := hquiet.slices.trans (h.empty (by rw [hst]; rfl))
  have hcold : (s.change .done).stk.heating = false := hquiet.heating.trans (h.cold (by rw [hst]; rfl))
  obtain ⟨hsound, hclosed⟩ := (Stk.Sound.of_quiet h.stk hquiet).closeSummary hslices (status := .complete) rfl none
  have hentered : Scanning s.cu.frontier s.enterDone := by
    refine Scanning.entered h (by rw [hst]; exact nofun) (by simp [State.enterDone]) (by simp [State.enterDone]) hsound
      ?_ ?_
    · rw [State.enterDone, State.closeSummary_sq, change_st]
      exact .of_rest hcold hslices hclosed
    · rw [State.enterDone, State.closeSummary_sq, change_st, change_heldFrom, h.held, hst]
      rfl
  exact of_scanning hentered (State.enterDone_cu s)

theorem postQuenchExpiry (h : Settled s) : Settled s.postQuenchExpiry := by
  unfold State.postQuenchExpiry
  split
  · split
    · next hst => exact h.enterDone hst
    · split
      · next hst => exact h.changeAlike (by rw [hst]; exact nofun) (by rw [hst]; rfl)
      · exact h
  · exact h

theorem floodStatus_closed (code : Option FaultCode) : (State.floodStatus code == .opened) = false := by
  unfold State.floodStatus
  split <;> rfl

/-- The flood's end closes the summary, with the track empty since its start (R142). -/
theorem floodExpiry (h : Settled s) : Settled s.floodExpiry := by
  unfold State.floodExpiry
  split
  · next hended =>
    have hst := hended.1
    have hslices : s.stk.slices = [] := h.empty (by rw [hst]; rfl)
    obtain ⟨hsound, hclosed⟩ := Stk.Sound.closeSummary h.stk hslices
      (floodStatus_closed (s.sq.faultRecord.map (·.code))) (s.sq.faultRecord.map (·.code))
    have hstands : Settled (s.closeSummary (State.floodStatus (s.sq.faultRecord.map (·.code)))
        (s.sq.faultRecord.map (·.code))).endFlood :=
      Scanning.entered h (by rw [hst]; exact nofun) rfl rfl hsound
        (.of_rest (h.cold (by rw [hst]; rfl)) hslices hclosed) (h.held.trans (by rw [hst]; rfl))
    exact hstands.update
  · exact h

theorem pressureWatchExpiry (h : Settled s) : Settled s.pressureWatchExpiry := by
  have hstopped : Settled (s.setSq { s.sq with pressureWatch := none }) := h.keepSq rfl rfl
  exact ite (hstopped.reportFault _ _) h

/-! ## The lines -/

theorem endSeek (h : Settled s) : Settled s.endSeek := by
  unfold State.endSeek
  split
  · next hst => exact (h.changeAlike (by rw [hst]; exact nofun) (by rw [hst]; rfl)).runInCheck
  · exact h

/-- The datum step moves the frontier while the track is empty (R19). -/
theorem datumStep (h : Settled s) (hst : s.sq.st = .seek) (r : RecipeHeader) (c : Int) :
    Settled (s.datumStep r c) := by
  have hmoved : Settled (s.setCu (s.cu.datumStep (r.datumCoord - c)).1) :=
    ⟨h.bank, .of_empty (h.empty (by rw [hst]; rfl)) h.stk.account, h.suits, h.held, h.startUp⟩
  exact (hmoved.travelCheck _).endSeek

theorem datumEdge (h : Settled s) (c : Int) : Settled (s.datumEdge c) := by
  unfold State.datumEdge
  split
  · exact h
  · split
    · next hst => exact h.datumStep hst _ c
    · exact ite (h.keepStk (.noteDrift _ _ _)) h

theorem indexEdge (h : Settled s) : Settled s.indexEdge := by
  have hmeasured : Settled (s.setLu (s.lu.indexEdge s.now s.cu.frontier).1) := h.setLu _
  have hcounted : Settled (s.setLu (s.lu.indexEdge s.now s.cu.frontier).1).countRevolution := hmeasured.keepSq rfl rfl
  exact ite (ite (ite (hcounted.reportFault _ _) hcounted) hmeasured.rejudge) hmeasured

theorem handLevel (h : Settled s) (fn : InputFn) (taken level : Bool) (c : Int) :
    Settled (s.handLevel fn taken level c) := by
  cases fn with
  | datum => exact ite (h.datumEdge c) h
  | endProbe => exact ite (ite (h.reportFault _ _) h) h
  | spindleIndex => exact ite h.indexEdge h
  | coilWater => exact ite h.rejudge (h.reportFault _ _).rejudge
  | interlock => exact ite h (h.reportFault _ _)
  | general => exact h

theorem filterExpiry (h : Settled s) (k : LineNo) : Settled (s.filterExpiry k) := by
  have haccepted : Settled (s.acceptLine k) := h.setLu _
  unfold State.filterExpiry
  dsimp only
  split
  · exact h
  · exact ite (ite haccepted (handLevel (ite (haccepted.keepCu (capture_frontier _ _)) haccepted) _ _ _ _)) h

theorem withdrawalExpiry (h : Settled s) : Settled s.withdrawalExpiry := by
  have hwithdrawn : Settled (s.setLu { s.lu with rpm := none, withdrawal := none }) := h.setLu _
  exact ite hwithdrawn.rejudge h

theorem latchIndex (h : Settled s) : Settled s.latchIndex := h.keepCu rfl

/-! ## Every command -/

theorem next (h : Settled s) (e : (.next s : Host.Outcome State Fault Refusal) = .next t) : Settled t := by
  cases e; exact h

theorem exec (h : Settled s) (c : Instr) (e : exec c s = .next t) : Settled t := by
  cases c with
  | encoderTransition a b => exact next (h.takeLevels a b) e
  | indexRisingEdge => exact next h.latchIndex e
  | updateExpiry => exact next h.updateExpiry e
  | holdRequest port tag field word | holdFieldCleared port tag field word => exact next (h.takeControl port tag _) e
  | abort port tag word => exact next (h.takeControl port tag _) e
  | quenchKeepOn port tag on word => exact next (h.takeControl port tag _) e
  | faultClear tag word | run tag word => exact next (h.takeControl .s tag _) e
  | writeHeader tag p => exact next (h.takeRequest tag p fun f _ hu => hu.writeHeader f) e
  | writeZone tag p => exact next (h.takeRequest tag p fun f _ hu => hu.writeZone f) e
  | commit tag p => exact next (h.takeRequest tag p fun f _ hu => hu.commit f) e
  | disarm tag p => exact next (h.takeRequest tag p fun f _ hu => hu.disarm f) e
  | loadRecipe tag p => exact next (h.takeRequest tag p fun f _ hu => hu.loadRecipe f) e
  | storeRecipe tag p => exact next (h.takeRequest tag p fun f _ hu => hu.storeRecipe f) e
  | eraseRecipe tag p => exact next (h.takeRequest tag p fun f _ hu => hu.eraseRecipe f) e
  | writeOptions tag p => exact next (h.takeRequest tag p fun f _ hu => hu.writeOptions f) e
  | readSummary tag p => exact next (h.takeRequest tag p fun f _ hu => hu.readSummary f) e
  | readException tag p => exact next (h.takeRequest tag p fun f _ hu => hu.readException f) e
  | readCapture tag p =>
    exact next (h.frameRequest tag p readCapture_frontier (by simp) (by simp) (by simp) (by simp)) e
  | writePositionConfig tag p =>
    exact next (h.frameRequest tag p writePosition_frontier (by simp) (by simp) (by simp) (by simp)) e
  | readStatus tag p | readZone tag p | readFault tag p | writeLineConfig tag p | writeLine tag p | readLines tag p
  | writeMark tag p | reset tag p =>
    exact next (h.frameRequest tag p (by simp) (by simp) (by simp) (by simp) (by simp)) e
  | answeredRole tag => exact next (h.answerRole tag) e
  | frameDiscard port => exact next (h.discardFrame port) e
  | interCharacterTimeout port => exact next (ite (h.discardFrame port) h) e
  | powerReport p => exact next (h.powerReport p) e
  | driveStatus p => exact next (h.driveStatus p) e
  | quenchReport p => exact next (h.quenchReport p) e
  | livenessExpiry port => exact next (h.livenessExpiry port) e
  | transmitComplete port => exact next (ite (h.setLp _) h) e
  | powerSendExpiry | quenchSendExpiry => exact next (ite (h.setLp _) h) e
  | warmReset => exact next (ite (warmReset _) h) e
  | powerOnReset levels => exact next (powerOn levels s) e
  | supply railMv | supplyRestored railMv => exact next (h.takeRail railMv) e
  | loadComplete => exact next h.completeLoad e
  | storeComplete => exact next h.completeStore e
  | eraseComplete => exact next h.completeErase e
  | optionWriteComplete => exact next h.completeOptions e
  | approachWaitExpiry => exact next h.waitExpiry e
  | dwellTimerExpiry => exact next h.dwellExpiry e
  | postQuenchExpiry => exact next h.postQuenchExpiry e
  | floodExpiry => exact next h.floodExpiry e
  | indexWatchExpiry => exact next (ite (h.reportFault _ _) h) e
  | pressureWatchExpiry => exact next h.pressureWatchExpiry e
  | auxPinChange line drive => exact next (h.setLu _) e
  | filterExpiry line => exact next (h.filterExpiry line) e
  | markPulseExpiry mark => exact next (ite (h.setLu _) h) e
  | withdrawalExpiry => exact next h.withdrawalExpiry e
  | discardedKindArrival port => exact next (h.arrive port) e
  | characterReceived port char stopHigh => exact next (h.takeCharacter port char stopHigh) e

theorem idle (h : Settled s) : Settled s.idle := by
  have hqueued : Settled s.queueDue := h.of_frame rfl rfl rfl rfl rfl
  exact ite (h.keepCu rfl) hqueued

theorem step (h : Settled s) (e : step s = .next t) : Settled t := by
  unfold Machine.step at e
  split at e
  · exact next h.idle e
  · exact (h.setPending _).exec _ e

/-- The track is empty, or its slices lie within the room that the header leaves (R33). -/
theorem length_le (h : Settled s) : s.stk.track.length ≤ 64 := by
  by_cases hempty : s.stk.track = []
  · simp [hempty]
  · have hheld := h.suits.tracks (mt Stk.slices_eq_nil.1 hempty)
    obtain ⟨k, hvalid⟩ := h.bank (by rintro hidle; rw [hidle] at hheld; cases hheld)
    obtain ⟨hpitch, hroom⟩ := trackRecipe_of_validate hvalid
    exact Stk.Sound.length_le h.stk hpitch hroom

end Settled

/-- Settles O59: the tracker at the frontier, the sequencer and the bank in force keep in agreement through the passing
of time and every command, each by the operations it is made of. -/
theorem stepKeepsTheScan : Obligations.StepKeepsTheScan := by
  intro s t hscan hexceptions hbank htrack e
  have hkept : Settled t := Settled.step ((scanning_iff s).2 ⟨hscan, hexceptions, hbank, htrack⟩) e
  obtain ⟨hscan', hexceptions', -, htrack'⟩ := (scanning_iff t).1 hkept
  exact ⟨hscan', hexceptions', htrack', hkept.length_le⟩

end Sys2Proof.Machine
end

section
/-! PROOF. The requests that write and read the banks: WRITE_HEADER (O28), WRITE_ZONE (O29) and READ_ZONE (O30). -/

namespace Sys2Proof.Machine

/-! ## WRITE_HEADER's rule (R29, R185) -/

section
variable {h1 : HeaderPart1} {h2 : HeaderPart2} {s : State}

theorem exec_writeHeader (tag : Byte) (w : HeaderWrite) (htaken : Taken s) : exec (.writeHeader tag (.fields w)) s =
    .next ((State.writeHeader w (s.arrive .s)).1.answer tag (State.writeHeader w (s.arrive .s)).2) :=
  congrArg Host.Outcome.next (takeRequest_taken tag w State.writeHeader s htaken)

theorem writeHeader_stages (hid : h1.identifier ≠ 0) :
    State.writeHeader (.part1 h1) s = (s.setStaging (some h1), Answer.ok []) := if_neg hid

theorem writeHeader_empty_locked (hid : h1.identifier = 0) (hlocked : s.shadowLocked = true) :
    State.writeHeader (.part1 h1) s = (s.setStaging none, Answer.refuse .busy) :=
  (if_pos hid).trans (if_pos hlocked)

theorem writeHeader_empties (hid : h1.identifier = 0) (hfree : ¬ s.shadowLocked = true) :
    State.writeHeader (.part1 h1) s = ((s.setStaging none).putHeader none, Answer.ok []) :=
  (if_pos hid).trans (if_neg hfree)

theorem writeHeader_unstaged (hstaging : s.lp.staging = none) :
    State.writeHeader (.part2 h2) s = (s, Answer.invalid 53 none) := by
  unfold State.writeHeader
  rw [hstaging]

theorem writeHeader_locked (hstaging : s.lp.staging = some h1) (hlocked : s.shadowLocked = true) :
    State.writeHeader (.part2 h2) s = (s, Answer.refuse .busy) := by
  unfold State.writeHeader
  rw [hstaging]
  exact if_pos hlocked

theorem writeHeader_replaces (hstaging : s.lp.staging = some h1) (hid : h1.identifier ≠ 0)
    (hfree : ¬ s.shadowLocked = true) : State.writeHeader (.part2 h2) s =
      ((s.setStaging none).putHeader (some { toHeaderPart1 := h1, toHeaderPart2 := h2 }), Answer.ok []) := by
  have hjoined : joinHeader h1 h2 = some { toHeaderPart1 := h1, toHeaderPart2 := h2 } := if_neg hid
  unfold State.writeHeader
  rw [hstaging, ← hjoined]
  exact if_neg hfree

end

/-- Settles O28: the rule's cases on the state after the arrival, which has left the staging, the banks and the
operation in flight. -/
theorem writeHeaderStagesAndReplaces : Obligations.WriteHeaderStagesAndReplaces := by
  intro tag h1 h2 n s htaken r unstaged header
  have hlocked : r.shadowLocked = true ↔ ShadowLocked s := by rw [arrive_shadowLocked]; exact shadowLocked_iff s
  have hstaging : r.lp.staging = s.lp.staging := State.arrive_lp_staging s .s
  refine ⟨fun hid => ?_, fun hid hl => ?_, fun hid hf => ?_, fun hs => ?_, fun hs hl => ?_, fun hs hid hf => ?_, ?_⟩ <;>
    rw [exec_writeHeader tag _ htaken]
  · rw [writeHeader_stages hid]; rfl
  · rw [writeHeader_empty_locked hid (hlocked.2 hl)]; rfl
  · rw [writeHeader_empties hid (mt hlocked.1 hf)]; rfl
  · rw [writeHeader_unstaged (hstaging.trans hs)]; rfl
  · rw [writeHeader_locked (hstaging.trans hs) (hlocked.2 hl)]; rfl
  · rw [writeHeader_replaces (hstaging.trans hs) hid (mt hlocked.1 hf)]; rfl
  · rfl

/-! ## WRITE_ZONE's rule (R30) -/

section
variable {w : ZoneWrite} {s : State}

theorem writeZone_outside (hpos : 64 ≤ w.position) : State.writeZone w s = (s, Answer.invalid 51 none) :=
  dif_neg (Nat.not_lt.2 hpos)

theorem writeZone_noKind (hpos : w.position < 64) (hentry : carriedZone w = none) :
    State.writeZone w s = (s, Answer.invalid 32 (some w.position)) := by
  unfold State.writeZone
  rw [dif_pos hpos, carriedEntry_eq, hentry]

theorem writeZone_locked (hpos : w.position < 64) {e : Option ZoneEntry} (hentry : carriedZone w = some e)
    (hlocked : s.shadowLocked = true) : State.writeZone w s = (s, Answer.refuse .busy) := by
  unfold State.writeZone
  rw [dif_pos hpos, carriedEntry_eq, hentry]
  exact if_pos hlocked

theorem writeZone_replaces {p : ZonePos} (hpos : w.position = p.val) {e : Option ZoneEntry}
    (hentry : carriedZone w = some e) (hfree : ¬ s.shadowLocked = true) :
    State.writeZone w s = (s.setShadow (s.zt.shadowBank.setZone p e), Answer.ok []) := by
  have hlt : w.position < 64 := hpos ▸ p.isLt
  obtain rfl : p = ⟨w.position, hlt⟩ := Fin.ext hpos.symm
  unfold State.writeZone
  rw [dif_pos hlt, carriedEntry_eq, hentry]
  exact if_neg hfree

end

/-- Settles O29: position, kind and operation in flight are judged in turn, on the state after the arrival. -/
theorem writeZoneReplacesOnePosition : Obligations.WriteZoneReplacesOnePosition := by
  intro tag w s htaken
  have hexec : exec (.writeZone tag (.fields w)) s =
      .next ((State.writeZone w (s.arrive .s)).1.answer tag (State.writeZone w (s.arrive .s)).2) :=
    congrArg Host.Outcome.next (takeRequest_taken tag w State.writeZone s htaken)
  have hlocked : (s.arrive .s).shadowLocked = true ↔ ShadowLocked s := by
    rw [arrive_shadowLocked]
    exact shadowLocked_iff s
  rw [hexec]
  refine ⟨fun hpos => ?_, fun hpos he => ?_, fun e hpos he hl => ?_, fun e p hpos he hf => ?_⟩
  · rw [writeZone_outside hpos]; rfl
  · rw [writeZone_noKind hpos he]; rfl
  · rw [writeZone_locked hpos he (hlocked.2 hl)]; rfl
  · rw [writeZone_replaces hpos he (mt hlocked.1 hf)]; rfl

/-! ## READ_ZONE's rule (R31, R181, R186) -/

theorem readPosition_some (p : ZonePos) : State.readPosition (some p.val) = .ok (some p) := dif_pos p.isLt

theorem readPosition_outside {n : Nat} (hn : 64 ≤ n) : State.readPosition (some n) = .error () :=
  dif_neg (Nat.not_lt.2 hn)

theorem partData_one (d : List Byte) : State.partData 1 [d] = [1, 1] ++ d := by
  unfold State.partData
  simp only [beBytes_one]
  rfl

section
variable {code : Nat} {pos : Option Nat} {part : Nat} {bank : BankId} {s : State}

theorem exec_readZone (tag : Byte) (r : ZoneRead) (htaken : Taken s) : exec (.readZone tag (.fields r)) s =
    .next ((State.readZone r (s.arrive .s)).1.answer tag (State.readZone r (s.arrive .s)).2) :=
  congrArg Host.Outcome.next (takeRequest_taken tag r State.readZone s htaken)

theorem readZone_noBank (h1 : code ≠ 1) (h2 : code ≠ 2) :
    State.readZone { bankCode := code, position := pos, part := part } s = (s, Answer.invalid 56 none) :=
  if_pos ⟨h1, h2⟩

/-- A part after the first is the buffer's alone. -/
theorem readZone_later (hcode : code = 1 ∨ code = 2) (hpart : part ≠ 1) :
    State.readZone { bankCode := code, position := pos, part := part } s =
      s.deliverLater (.zone code pos) part := by
  have hbank : ¬ (code ≠ 1 ∧ code ≠ 2) := by omega
  exact (if_neg hbank).trans (if_pos hpart)

theorem readZone_outside (hcode : code = 1 ∨ code = 2) {n : Nat} (hn : 64 ≤ n) :
    State.readZone { bankCode := code, position := some n, part := 1 } s = (s, Answer.invalid 51 none) := by
  have hbank : ¬ (code ≠ 1 ∧ code ≠ 2) := by omega
  unfold State.readZone
  dsimp only
  rw [if_neg hbank, if_neg (not_not_intro rfl), readPosition_outside hn]

/-- The first part of a read whose bank may be read forms the buffer from the bank's contents. -/
theorem readZone_first {p : Option ZonePos} (hpos : State.readPosition pos = .ok p)
    (hbank : code = 1 ∧ bank = s.zt.active ∨ code = 2 ∧ bank = s.zt.active.other ∧ ¬ s.rs.loading = true) :
    State.readZone { bankCode := code, position := pos, part := 1 } s =
      s.deliverFirst (.zone code pos) (State.zoneParts (s.zt.bank bank) p) := by
  unfold State.readZone
  rcases hbank with ⟨rfl, rfl⟩ | ⟨rfl, rfl, hfree⟩
  · dsimp only
    rw [if_neg (by decide), if_neg (not_not_intro rfl), hpos]
    exact if_neg (by decide)
  · dsimp only
    rw [if_neg (by decide), if_neg (not_not_intro rfl), hpos]
    exact (if_pos rfl).trans (if_neg hfree)

theorem readZone_loading {p : Option ZonePos} (hpos : State.readPosition pos = .ok p) (hloading : s.rs.loading = true) :
    State.readZone { bankCode := 2, position := pos, part := 1 } s = (s, Answer.refuse .busy) := by
  unfold State.readZone
  dsimp only
  rw [if_neg (by decide), if_neg (not_not_intro rfl), hpos]
  exact (if_pos rfl).trans (if_pos hloading)

end

/-- Settles O30: bank, part and position are judged in turn, on the state after the arrival, which has left the banks,
the buffer and the operation in flight. -/
theorem readZoneDeliversTheContents : Obligations.ReadZoneDeliversTheContents := by
  intro tag bank code n s htaken b r first
  have hloading : r.rs.loading = true ↔ LoadInFlight s := loading_iff s
  have hbuffer : r.lp.buffer = s.lp.buffer := State.arrive_lp_buffer s .s
  simp only [exec_readZone tag _ htaken]
  refine ⟨fun hbank => ?_, fun hcode => ⟨fun hn => ?_, fun d1 d2 hb => ?_, fun pos hn hb => ?_⟩,
    fun pos part h1 h2 => ?_, fun hl => ⟨?_, fun p => ?_⟩⟩
  · have hread : code = 1 ∧ bank = r.zt.active ∨ code = 2 ∧ bank = r.zt.active.other ∧ ¬ r.rs.loading = true := by
      rwa [hloading]
    refine ⟨?_, fun p => ?_⟩
    · rw [readZone_first (p := none) rfl hread]
      unfold State.deliverFirst State.zoneParts
      rw [(partData_two _ _).1]
      rfl
    · rw [readZone_first (readPosition_some p) hread]
      unfold State.deliverFirst State.zoneParts
      rw [partData_one]
      rfl
  · rw [readZone_outside hcode hn]; rfl
  · rw [readZone_later hcode (by decide),
      deliverLater_held (.zone code none) 2 [d1, d2] _ (hbuffer.trans hb) (by decide) (by simp), (partData_two d1 d2).2]
    rfl
  · rw [readZone_later hcode hn, deliverLater_missing _ _ _ (by rwa [hbuffer])]
    rfl
  · rw [readZone_noBank h1 h2]; rfl
  · rw [readZone_loading (p := none) rfl (hloading.2 hl)]; rfl
  · rw [readZone_loading (readPosition_some p) (hloading.2 hl)]; rfl

end Sys2Proof.Machine
end

section
/-! PROOF. The requests of the recipe store (O33). -/

namespace Sys2Proof.Machine

/-! ## The settings of a WRITE_OPTIONS (R46) -/

theorem JudgedBy.map {α β : Type} {table : List (Bool × Nat)} {passes : α → Prop} {passes' : β → Prop}
    {r : Except Nat α} (h : JudgedBy table passes r) {g : α → β} (hg : ∀ a, passes a → passes' (g a)) :
    JudgedBy table passes' (r.map g) := by
  obtain ⟨hfails, hpasses⟩ := h
  refine ⟨fun f hf => by rw [hfails f hf]; rfl, fun hf => ?_⟩
  obtain ⟨a, ha, hp⟩ := hpasses hf
  exact ⟨g a, by rw [ha]; rfl, hg a hp⟩

/-- The checks of a WRITE_OPTIONS, in their order, each with its field. -/
def optionsTable (w : OptionsWrite) : List (Bool × Nat) :=
  [(decide (w.protectedCount ≠ 0 ∧ w.protectedCount ≠ 2 ∧ w.protectedCount ≠ 4 ∧ w.protectedCount ≠ 8), 90),
   (decide (1 < w.lossCode), 91), (w.startUp.any (fun k => decide (16 ≤ k)), 92)]

/-- The block that a WRITE_OPTIONS carries. -/
def CarriedOptions (w : OptionsWrite) (o : OptionBlock) : Prop :=
  o.protectedCount = w.protectedCount ∧ o.loss = (if w.lossCode = 1 then .hold else .none) ∧
  o.startUp.map (·.val) = w.startUp

theorem readStartUp_judged (v : Option Nat) :
    JudgedBy [(v.any (fun k => decide (16 ≤ k)), 92)] (fun n : Option SlotNo => n.map (·.val) = v)
      (State.readStartUp v) := by
  cases v with
  | none => exact .skip rfl (.pure rfl)
  | some n =>
    unfold State.readStartUp
    dsimp only
    by_cases hn : n < 16
    · rw [dif_pos hn]
      exact .skip (decide_eq_false (Nat.not_le.2 hn)) (.pure rfl)
    · rw [dif_neg hn, Option.any_some, decide_eq_true (Nat.not_lt.1 hn)]
      exact .error

theorem readOptions_judged (w : OptionsWrite) :
    JudgedBy (optionsTable w) (CarriedOptions w) (State.readOptions w) := by
  unfold State.readOptions optionsTable
  dsimp only
  by_cases hcount : w.protectedCount ≠ 0 ∧ w.protectedCount ≠ 2 ∧ w.protectedCount ≠ 4 ∧ w.protectedCount ≠ 8
  · rw [if_pos hcount, decide_eq_true hcount]
    exact .error
  · rw [if_neg hcount]
    refine .skip (decide_eq_false hcount) ?_
    unfold LossPolicy.ofCode
    by_cases hnone : w.lossCode = 0
    · rw [if_pos hnone]
      exact .skip (decide_eq_false (by omega))
        ((readStartUp_judged w.startUp).map fun n hn => ⟨rfl, (if_neg (by omega)).symm, hn⟩)
    · by_cases hhold : w.lossCode = 1
      · rw [if_neg hnone, if_pos hhold]
        exact .skip (decide_eq_false (by omega))
          ((readStartUp_judged w.startUp).map fun n hn => ⟨rfl, (if_pos hhold).symm, hn⟩)
      · rw [if_neg hnone, if_neg hhold, decide_eq_true (by omega)]
        exact .error

/-! ## The rules of the recipe store's requests (R40 to R43, R46) -/

section
variable {n : Nat} {slot : SlotNo} {s : State}

theorem protects_iff : s.rs.protects slot = true ↔ slot.val < s.rs.inForce.protectedCount := decide_eq_true_iff

/-- An operation in flight, or none. -/
theorem isSome_inFlight_iff : s.rs.inFlight.isSome = true ↔ s.rs.inFlight ≠ none := Option.isSome_iff_ne_none

theorem loadRecipe_outside (hn : 16 ≤ n) : State.loadRecipe n s = (s, Answer.invalid 52 none) :=
  dif_neg (Nat.not_lt.2 hn)

theorem loadRecipe_busy (hbusy : s.rs.inFlight ≠ none) : State.loadRecipe slot.val s = (s, Answer.refuse .busy) :=
  (dif_pos slot.isLt).trans (if_pos (isSome_inFlight_iff.2 hbusy))

theorem loadRecipe_slotInvalid (hfree : s.rs.inFlight = none) (hslot : (s.rs.slots[slot]).condition ≠ .valid) :
    State.loadRecipe slot.val s = (s, Answer.refuse .slotInvalid) :=
  (dif_pos slot.isLt).trans ((if_neg (mt isSome_inFlight_iff.1 (not_not_intro hfree))).trans (if_neg hslot))

theorem loadRecipe_starts (hfree : s.rs.inFlight = none) (hslot : (s.rs.slots[slot]).condition = .valid) :
    State.loadRecipe slot.val s = (s.startOp (.load slot) 1000, Answer.ok []) :=
  (dif_pos slot.isLt).trans ((if_neg (mt isSome_inFlight_iff.1 (not_not_intro hfree))).trans (if_pos hslot))

theorem storeRecipe_outside (hn : 16 ≤ n) : State.storeRecipe n s = (s, Answer.invalid 52 none) :=
  dif_neg (Nat.not_lt.2 hn)

theorem storeRecipe_protected (hslot : slot.val < s.rs.inForce.protectedCount) :
    State.storeRecipe slot.val s = (s, Answer.refuse .protect) :=
  (dif_pos slot.isLt).trans (if_pos (protects_iff.2 hslot))

theorem storeRecipe_busy (hslot : s.rs.inForce.protectedCount ≤ slot.val) (hbusy : s.rs.inFlight ≠ none) :
    State.storeRecipe slot.val s = (s, Answer.refuse .busy) :=
  (dif_pos slot.isLt).trans ((if_neg (mt protects_iff.1 (Nat.not_lt.2 hslot))).trans
    (if_pos (isSome_inFlight_iff.2 hbusy)))

theorem storeRecipe_starts (hslot : s.rs.inForce.protectedCount ≤ slot.val) (hfree : s.rs.inFlight = none) :
    State.storeRecipe slot.val s = (s.startOp (.store slot s.zt.active.other) s.storeDuration, Answer.ok []) :=
  (dif_pos slot.isLt).trans ((if_neg (mt protects_iff.1 (Nat.not_lt.2 hslot))).trans
    (if_neg (mt isSome_inFlight_iff.1 (not_not_intro hfree))))

theorem eraseRecipe_outside (hn : 16 ≤ n) : State.eraseRecipe n s = (s, Answer.invalid 52 none) :=
  dif_neg (Nat.not_lt.2 hn)

theorem eraseRecipe_protected (hslot : slot.val < s.rs.inForce.protectedCount) :
    State.eraseRecipe slot.val s = (s, Answer.refuse .protect) :=
  (dif_pos slot.isLt).trans (if_pos (protects_iff.2 hslot))

theorem eraseRecipe_busy (hslot : s.rs.inForce.protectedCount ≤ slot.val) (hbusy : s.rs.inFlight ≠ none) :
    State.eraseRecipe slot.val s = (s, Answer.refuse .busy) :=
  (dif_pos slot.isLt).trans ((if_neg (mt protects_iff.1 (Nat.not_lt.2 hslot))).trans
    (if_pos (isSome_inFlight_iff.2 hbusy)))

theorem eraseRecipe_starts (hslot : s.rs.inForce.protectedCount ≤ slot.val) (hfree : s.rs.inFlight = none) :
    State.eraseRecipe slot.val s = (s.startOp (.erase slot) 5000, Answer.ok []) :=
  (dif_pos slot.isLt).trans ((if_neg (mt protects_iff.1 (Nat.not_lt.2 hslot))).trans
    (if_neg (mt isSome_inFlight_iff.1 (not_not_intro hfree))))

theorem writeOptions_error {w : OptionsWrite} {f : Nat} (hread : State.readOptions w = .error f) :
    State.writeOptions w s = (s, Answer.invalid f none) := by
  unfold State.writeOptions
  rw [hread]

theorem writeOptions_busy {w : OptionsWrite} {o : OptionBlock} (hread : State.readOptions w = .ok o)
    (hbusy : s.rs.inFlight ≠ none) : State.writeOptions w s = (s, Answer.refuse .busy) := by
  unfold State.writeOptions
  rw [hread]
  exact if_pos (isSome_inFlight_iff.2 hbusy)

theorem writeOptions_starts {w : OptionsWrite} {o : OptionBlock} (hread : State.readOptions w = .ok o)
    (hfree : s.rs.inFlight = none) : State.writeOptions w s = (s.startOp (.options o) 5000, Answer.ok []) := by
  unfold State.writeOptions
  rw [hread]
  exact if_neg (mt isSome_inFlight_iff.1 (not_not_intro hfree))

end

/-- Settles O33: slot or settings, protection and operation in flight are judged in turn, on the state after the
arrival, which has left the store. -/
theorem recipeStoreRequests : Obligations.RecipeStoreRequests := by
  intro tag n slot w s htaken started replied filled badOptions
  have hload (k : Nat) : exec (.loadRecipe tag (.fields k)) s =
      .next ((State.loadRecipe k (s.arrive .s)).1.answer tag (State.loadRecipe k (s.arrive .s)).2) :=
    congrArg Host.Outcome.next (takeRequest_taken tag k State.loadRecipe s htaken)
  have hstore (k : Nat) : exec (.storeRecipe tag (.fields k)) s =
      .next ((State.storeRecipe k (s.arrive .s)).1.answer tag (State.storeRecipe k (s.arrive .s)).2) :=
    congrArg Host.Outcome.next (takeRequest_taken tag k State.storeRecipe s htaken)
  have herase (k : Nat) : exec (.eraseRecipe tag (.fields k)) s =
      .next ((State.eraseRecipe k (s.arrive .s)).1.answer tag (State.eraseRecipe k (s.arrive .s)).2) :=
    congrArg Host.Outcome.next (takeRequest_taken tag k State.eraseRecipe s htaken)
  have hoptions : exec (.writeOptions tag (.fields w)) s =
      .next ((State.writeOptions w (s.arrive .s)).1.answer tag (State.writeOptions w (s.arrive .s)).2) :=
    congrArg Host.Outcome.next (takeRequest_taken tag w State.writeOptions s htaken)
  obtain ⟨hfails, hpasses⟩ := readOptions_judged w
  simp only [hload, hstore, herase, hoptions]
  refine ⟨fun hn => ⟨?_, ?_, ?_⟩, fun hprotected => ⟨?_, ?_⟩,
    fun hbusy => ⟨?_, fun hopen => ⟨?_, ?_⟩, fun hgood => ?_⟩,
    fun hfree => ⟨fun hslot => ?_, fun hslot => ?_, fun hopen => ⟨?_, ?_⟩, fun hgood => ?_⟩, fun f hf => ?_⟩
  · rw [loadRecipe_outside hn]; rfl
  · rw [storeRecipe_outside hn]; rfl
  · rw [eraseRecipe_outside hn]; rfl
  · rw [storeRecipe_protected (s := s.arrive .s) hprotected]; rfl
  · rw [eraseRecipe_protected (s := s.arrive .s) hprotected]; rfl
  · rw [loadRecipe_busy (s := s.arrive .s) hbusy]; rfl
  · rw [storeRecipe_busy (s := s.arrive .s) hopen hbusy]; rfl
  · rw [eraseRecipe_busy (s := s.arrive .s) hopen hbusy]; rfl
  · obtain ⟨o, hread, -⟩ := hpasses hgood
    rw [writeOptions_busy (s := s.arrive .s) hread hbusy]; rfl
  · rw [loadRecipe_slotInvalid (s := s.arrive .s) hfree hslot]; rfl
  · rw [loadRecipe_starts (s := s.arrive .s) hfree hslot]; rfl
  · rw [storeRecipe_starts (s := s.arrive .s) hopen hfree]; rfl
  · rw [eraseRecipe_starts (s := s.arrive .s) hopen hfree]; rfl
  · obtain ⟨o, hread, hcount, hloss, hstart⟩ := hpasses hgood
    rw [writeOptions_starts (s := s.arrive .s) hread hfree]
    exact ⟨o, hcount, hloss, hstart, rfl⟩
  · rw [writeOptions_error (hfails f hf)]; rfl

end Sys2Proof.Machine
end

section
/-! PROOF. COMMIT (O31) and the completions of the recipe store (O34): what the exchange of the banks brings, once for
the request and for the start-up load. -/

namespace Sys2Proof.Machine

/-! ## The exchange of the banks (R13, R15, R28, R38, R160) -/

/-- The banks exchanged, origin and direction taken from the header, the frontier set to x, and the quench conditions
judged against it, before the change to ARMED. -/
def exchangedTo (h : RecipeHeader) (s : State) : State :=
  ((s.setZt { s.zt with active := s.zt.active.other }).setCu { s.cu with
      origin := h.originCoord, direction := h.direction
      frontier := if h.directionCode = 2 then h.originCoord - s.cu.s else s.cu.s - h.originCoord }).setLp { s.lp with
    pressureLow := s.lp.quench.any (fun r => decide (r.pressure < h.pressureMin))
    quenchantOut := s.lp.quench.any (fun r => decide (r.temperature < h.windowLow ∨ h.windowHigh < r.temperature)) }

/-- The frontier taken at a commit is x in the direction of the header (R14, R15). -/
theorem takeHeader_eq (h : RecipeHeader) (c : Cu) : c.takeHeader h = { c with
    origin := h.originCoord, direction := h.direction
    frontier := if h.directionCode = 2 then h.originCoord - c.s else c.s - h.originCoord } := by
  have hx : ({ c with origin := h.originCoord, direction := h.direction } : Cu).x =
      if h.directionCode = 2 then h.originCoord - c.s else c.s - h.originCoord := by
    unfold Cu.x HeaderPart1.direction
    by_cases hminus : h.directionCode = 2 <;> simp only [hminus, if_true, if_false] <;> rfl
  unfold Cu.takeHeader Cu.resetFrontier
  rw [hx]

theorem judgeQuench_eq (h : RecipeHeader) (l : Lp) : l.judgeQuench h = { l with
    pressureLow := l.quench.any (fun r => decide (r.pressure < h.pressureMin))
    quenchantOut := l.quench.any (fun r => decide (r.temperature < h.windowLow ∨ h.windowHigh < r.temperature)) } := by
  unfold Lp.judgeQuench
  cases l.quench with
  | none => rfl
  | some b =>
    simp only [Option.map_some, Option.getD_some, Option.any_some, quenchantOutside_eq]
    rfl

theorem exchange_eq {h : RecipeHeader} {s : State} (hheader : s.zt.shadowBank.header = some h) :
    s.exchange = (exchangedTo h s).arm := by
  have hrecipe : (s.setZt s.zt.exchange).recipe = some h := hheader
  have htaken : (s.setZt s.zt.exchange).takeOrigin = (s.setZt s.zt.exchange).setCu (s.cu.takeHeader h) := by
    unfold State.takeOrigin
    rw [hrecipe]
    rfl
  have hjudged : ((s.setZt s.zt.exchange).setCu (s.cu.takeHeader h)).rejudgeQuench =
      ((s.setZt s.zt.exchange).setCu (s.cu.takeHeader h)).setLp (s.lp.judgeQuench h) := by
    have hactive : ((s.setZt s.zt.exchange).setCu (s.cu.takeHeader h)).recipe = some h := hheader
    unfold State.rejudgeQuench
    rw [hactive]
    rfl
  unfold State.exchange
  rw [htaken, hjudged, takeHeader_eq, judgeQuench_eq]
  rfl

/-- The part is ARMED: in ARMED nothing more, from IDLE and DONE by a change. -/
theorem exchange_armed {h : RecipeHeader} {s : State} (hheader : s.zt.shadowBank.header = some h) :
    (s.sq.st = .armed → s.exchange = exchangedTo h s) ∧
    (s.sq.st ≠ .armed → Changed h .armed (exchangedTo h s) s.exchange) := by
  rw [exchange_eq hheader]
  unfold State.arm
  refine ⟨fun hst => if_pos hst, fun hst => ?_⟩
  rw [if_neg (show (exchangedTo h s).sq.st ≠ .armed from hst)]
  exact change_changed h .armed (exchangedTo h s) hheader nofun nofun rfl

/-- In ARMED every set-point is 0 (R54, R59, R62, R68). -/
theorem armed_points {h : RecipeHeader} {b : Bool} {t : State} (hpoints : SetPointsOf h b t) (hst : t.sq.st = .armed) :
    t.pe.power = 0 ∧ t.pe.speed = 0 ∧ t.pe.spindle = 0 ∧ t.pe.flow = 0 := by
  obtain ⟨-, hother, -, -, -, -, hdry⟩ := hpoints
  obtain ⟨-, -, -, -, hpower, hspeed, hspindle, -⟩ := hother (by rw [hst]; exact nofun)
  rw [hst] at hpower hspeed hspindle hdry
  obtain ⟨-, hflow, -⟩ := hdry (by rintro (hs | ⟨_, hs⟩ | ⟨_, hs⟩) <;> cases hs) nofun (fun hd => nomatch hd.1)
  exact ⟨hpower rfl, hspeed, hspindle, hflow⟩

/-- What the exchange leaves of each block. -/
theorem exchange_result {h : RecipeHeader} {s : State} (hheader : s.zt.shadowBank.header = some h) :
    s.exchange.zt = { s.zt with active := s.zt.active.other } ∧
    s.exchange.cu = (exchangedTo h s).cu ∧ s.exchange.sq.st = .armed ∧
    s.exchange.sq.scanNumber = s.sq.scanNumber ∧
    s.exchange.sq.faultRecord = (if s.sq.st = .armed then s.sq.faultRecord else none) ∧
    s.exchange.lp.pressureLow = (exchangedTo h s).lp.pressureLow ∧
    s.exchange.lp.quenchantOut = (exchangedTo h s).lp.quenchantOut ∧
    (s.sq.st ≠ .armed → s.exchange.pe.power = 0 ∧ s.exchange.pe.speed = 0 ∧ s.exchange.pe.spindle = 0 ∧
      s.exchange.pe.flow = 0) ∧
    s.exchange.stk = s.stk ∧ s.exchange.rs = s.rs ∧ s.exchange.lp.control = s.lp.control ∧
    s.exchange.lp.acks = s.lp.acks ∧ s.exchange.pending = s.pending := by
  obtain ⟨harmed, hchanged⟩ := exchange_armed hheader
  by_cases hst : s.sq.st = .armed
  · rw [harmed hst]
    exact ⟨rfl, rfl, hst, rfl, (if_pos hst).symm, rfl, rfl, fun hne => absurd hst hne, rfl, rfl, rfl, rfl, rfl⟩
  · obtain ⟨⟨hcu, hzt, hrs, hkept, hacks, hpending, -, -⟩, -, hstk, hpoints, hsq, -⟩ := hchanged hst
    obtain ⟨hcontrol, -, -, -, hpressure, hquenchant, -⟩ := hkept
    have hentered : s.exchange.sq.st = .armed := congrArg Sq.st hsq
    exact ⟨hzt, hcu, hentered, by rw [hsq]; rfl, by rw [hsq, if_neg hst]; rfl,
      hpressure, hquenchant, fun _ => armed_points hpoints hentered, hstk, hrs, hcontrol, hacks, hpending⟩

/-! ## COMMIT's rule (R32, R37, R38) -/

theorem commitAllowed_iff {st : SeqState} :
    State.commitAllowed st = true ↔ st = .idle ∨ st = .armed ∨ st = .done := by
  simp only [State.commitAllowed, Bool.or_eq_true, beq_iff_eq, or_assoc]

section
variable {s : State}

theorem commit_loading (hloading : s.rs.loading = true) : State.commit () s = (s, Answer.refuse .busy) :=
  if_pos hloading

theorem commit_scanning (hfree : ¬ s.rs.loading = true) (hst : ¬ State.commitAllowed s.sq.st = true) :
    State.commit () s = (s, Answer.refuse .scanning) :=
  (if_neg hfree).trans (if_pos (by simpa using hst))

theorem commit_invalid (hfree : ¬ s.rs.loading = true) (hst : State.commitAllowed s.sq.st = true) {f : CommitFailure}
    (hinvalid : validate s.cu.scaleK s.zt.shadowBank = some f) :
    State.commit () s = (s, Answer.invalid f.field f.zone) := by
  unfold State.commit
  rw [if_neg hfree, if_neg (by simp [hst]), hinvalid]

theorem commit_exchanges (hfree : ¬ s.rs.loading = true) (hst : State.commitAllowed s.sq.st = true)
    (hvalid : validate s.cu.scaleK s.zt.shadowBank = none) : State.commit () s = (s.exchange, Answer.ok []) := by
  unfold State.commit
  rw [if_neg hfree, if_neg (by simp [hst]), hvalid]

end

/-- Settles O31: the cases of COMMIT's rule on the state after the arrival, and the exchange of the banks. -/
theorem commitExchangesTheBanks : Obligations.CommitExchangesTheBanks := by
  intro tag s htaken ready
  have hexec : exec (.commit tag (.fields ())) s =
      .next ((State.commit () (s.arrive .s)).1.answer tag (State.commit () (s.arrive .s)).2) :=
    congrArg Host.Outcome.next (takeRequest_taken tag () State.commit s htaken)
  have hloading : (s.arrive .s).rs.loading = true ↔ LoadInFlight s := loading_iff s
  have hready : State.commitAllowed (s.arrive .s).sq.st = true ↔ ready := commitAllowed_iff
  rw [hexec]
  refine ⟨fun hl => ?_, fun hl hr => ?_, fun f hl hr hinvalid => ?_, fun h hl hr hvalid hheader => ?_⟩
  · rw [commit_loading (hloading.2 hl)]; rfl
  · rw [commit_scanning (mt hloading.1 hl) (mt hready.1 hr)]; rfl
  · rw [commit_invalid (s := s.arrive .s) (mt hloading.1 hl) (hready.2 hr) hinvalid]; rfl
  · rw [commit_exchanges (s := s.arrive .s) (mt hloading.1 hl) (hready.2 hr) hvalid]
    dsimp only
    have harrived : exchangedTo h (s.arrive .s) = (((s.arrive .s).setZt { s.zt with active := s.zt.active.other }).setCu
        { s.cu with
          origin := h.originCoord, direction := h.direction
          frontier := if h.directionCode = 2 then h.originCoord - s.cu.s else s.cu.s - h.originCoord }).setLp
        { (s.arrive .s).lp with
          pressureLow := s.lp.quench.any (fun r => decide (r.pressure < h.pressureMin))
          quenchantOut := s.lp.quench.any
            (fun r => decide (r.temperature < h.windowLow ∨ h.windowHigh < r.temperature)) } := by
      unfold exchangedTo
      rw [State.arrive_lp_quench]
      rfl
    obtain ⟨harmed, hchanged⟩ := exchange_armed (s := s.arrive .s) hheader
    rw [← harrived]
    have hresult := exchange_result (s := s.arrive .s) hheader
    have hpressure : (exchangedTo h (s.arrive .s)).lp.pressureLow =
        s.lp.quench.any (fun r => decide (r.pressure < h.pressureMin)) := by rw [harrived]; rfl
    have hquenchant : (exchangedTo h (s.arrive .s)).lp.quenchantOut = s.lp.quench.any
        (fun r => decide (r.temperature < h.windowLow ∨ h.windowHigh < r.temperature)) := by rw [harrived]; rfl
    rw [hpressure, hquenchant, State.arrive_lp_control, State.arrive_lp_acks] at hresult
    exact ⟨(s.arrive .s).exchange, rfl, harmed, hchanged, hresult⟩

/-! ## The completions (R40 to R43, R46, R47) -/

theorem setShadow_active (z : Zt) (b : Bank) : (z.setShadow b).active = z.active := by
  obtain ⟨_, _, active⟩ := z
  cases active <;> rfl

theorem setShadow_shadowBank (z : Zt) (b : Bank) : (z.setShadow b).shadowBank = b := by
  obtain ⟨_, _, active⟩ := z
  cases active <;> rfl

section
variable {f : InFlight} {s : State} (hflight : s.rs.inFlight = some f) (hdue : f.completes ≤ s.cu.cellTime)
include hflight hdue

theorem completed_eq : s.completed = some f.op := (completed_eq_some s f.op).2 ⟨f, hflight, hdue, rfl⟩

theorem completeLoad_eq {slot : SlotNo} (hop : f.op = .load slot) : s.completeLoad =
    if s.rs.startUp = .loading then ((s.copyImage slot).endOp).commitStartUp else (s.copyImage slot).endOp := by
  unfold State.completeLoad
  rw [completed_eq hflight hdue, hop]

theorem completeStore_eq {slot : SlotNo} {bank : BankId} (hop : f.op = .store slot bank) : s.completeStore =
    (s.setRs (s.rs.setSlot slot (RecipeSlot.written (s.zt.bank bank)))).endOp := by
  unfold State.completeStore
  rw [completed_eq hflight hdue, hop]

theorem completeErase_eq {slot : SlotNo} (hop : f.op = .erase slot) : s.completeErase =
    (s.setRs (s.rs.setSlot slot (RecipeSlot.written Bank.empty))).endOp := by
  unfold State.completeErase
  rw [completed_eq hflight hdue, hop]

theorem completeOptions_eq {o : OptionBlock} (hop : f.op = .options o) : s.completeOptions =
    (s.setRs (s.rs.writeCopy o)).endOp := by
  unfold State.completeOptions
  rw [completed_eq hflight hdue, hop]

end

/-- Whether the write number of the second copy is the greater, and whether the first copy is written (R46). -/
theorem writesFirst_eq (c1 c2 : OptionCopy) : writesFirst c1 c2 =
    if c1.checkAgrees && c2.checkAgrees then
      decide (1 ≤ (c2.writeNumber - c1.writeNumber).toNat ∧ (c2.writeNumber - c1.writeNumber).toNat < 2 ^ 31)
    else !c1.checkAgrees := by
  rw [Bool.decide_and]
  rfl

theorem writeCopy_first {r : Rs} (o : OptionBlock) (hfirst : writesFirst r.copy1 r.copy2 = true) : r.writeCopy o =
    { r with copy1 := { options := o, writeNumber := r.copy2.writeNumber + 1, checkAgrees := true } } := if_pos hfirst

theorem writeCopy_second {r : Rs} (o : OptionBlock) (hsecond : writesFirst r.copy1 r.copy2 = false) : r.writeCopy o =
    { r with copy2 := { options := o, writeNumber := r.copy1.writeNumber + 1, checkAgrees := true } } :=
  if_neg (Bool.eq_false_iff.1 hsecond)

/-- The start-up load's commit (R47). -/
theorem commitStartUp_invalid {s : State} {c : CommitFailure}
    (hinvalid : validate s.cu.scaleK s.zt.shadowBank = some c) :
    s.commitStartUp = s.setStartUp (.autoloadInvalid c.field c.zone) := by
  unfold State.commitStartUp
  rw [hinvalid]

theorem commitStartUp_valid {s : State} (hvalid : validate s.cu.scaleK s.zt.shadowBank = none) :
    s.commitStartUp = s.exchange.setStartUp .autoloaded := by
  unfold State.commitStartUp
  rw [hvalid]

/-- The exchange of the start-up load's commit, in IDLE: a change to ARMED, with the slot's image active (R38, R47). -/
theorem startUp_exchange {h : RecipeHeader} {slot : SlotNo} {s : State}
    (hheader : (s.rs.slots[slot]).image.header = some h) (hst : s.sq.st = .idle) :
    Changed h .armed (exchangedTo h (s.copyImage slot).endOp) (s.copyImage slot).endOp.exchange ∧
    (s.copyImage slot).endOp.exchange.rs = { s.rs with inFlight := none } ∧
    (s.copyImage slot).endOp.exchange.zt =
      { s.zt.setShadow (s.rs.slots[slot]).image with active := s.zt.active.other } ∧
    (s.copyImage slot).endOp.exchange.sq.st = .armed ∧
    (s.copyImage slot).endOp.exchange.cu = s.cu.takeHeader h ∧
    (s.copyImage slot).endOp.exchange.stk = s.stk := by
  have hheld : (s.copyImage slot).endOp.zt.shadowBank.header = some h :=
    (congrArg Bank.header (setShadow_shadowBank s.zt _)).trans hheader
  have hidle : (s.copyImage slot).endOp.sq.st ≠ .armed := by
    rw [show (s.copyImage slot).endOp.sq.st = .idle from hst]
    exact nofun
  have hactive : (s.copyImage slot).endOp.zt.active = s.zt.active := setShadow_active s.zt _
  obtain ⟨hzt, hcu, harmed, -, -, -, -, -, hstk, hrs, -⟩ := exchange_result hheld
  refine ⟨(exchange_armed hheld).2 hidle, hrs, ?_, harmed, hcu.trans (takeHeader_eq h s.cu).symm, hstk⟩
  rw [hzt, hactive]
  rfl

/-- Settles O34: each operation's completion by its rule, and the start-up load's commit by the exchange of the
banks. -/
theorem recipeStoreCompletions : Obligations.RecipeStoreCompletions := by
  intro slot bank o f s hflight hdue idle image written
  have hshadow : (s.copyImage slot).endOp.zt.shadowBank = image := setShadow_shadowBank s.zt image
  have hload {t : State} (hop : f.op = .load slot) (ht : s.completeLoad = t) : exec .loadComplete s = .next t :=
    congrArg Host.Outcome.next ht
  refine ⟨fun hop => ⟨fun hl => ?_, fun c hl hinvalid => ?_, fun h hl hvalid hheader hst => ?_⟩,
    fun hop => ?_, fun hop => ?_, fun hop => ?_⟩
  · refine hload hop ((completeLoad_eq hflight hdue hop).trans (if_neg hl))
  · refine hload hop ((completeLoad_eq hflight hdue hop).trans ((if_pos hl).trans ?_))
    exact commitStartUp_invalid (by rw [hshadow]; exact hinvalid)
  · intro exchanged
    have hexchanged : exchangedTo h (s.copyImage slot).endOp = exchanged := by
      unfold exchangedTo
      rw [show (s.copyImage slot).endOp.zt.active = s.zt.active from setShadow_active s.zt image]
      rfl
    have hcommits : s.completeLoad = (s.copyImage slot).endOp.exchange.setStartUp .autoloaded :=
      (completeLoad_eq hflight hdue hop).trans
        ((if_pos hl).trans (commitStartUp_valid (by rw [hshadow]; exact hvalid)))
    obtain ⟨hchanged, hrs, hzt, harmed, hcu, hstk⟩ := startUp_exchange hheader hst
    rw [hexchanged] at hchanged
    have hstore : ((s.copyImage slot).endOp.exchange.setStartUp .autoloaded).rs =
        { idle with startUp := .autoloaded } := congrArg (fun r : Rs => { r with startUp := .autoloaded }) hrs
    refine ⟨_, _, hload hop hcommits, hchanged, congrArg (State.setRs _) hstore, hstore, hzt, harmed, ?_, ?_, ?_,
      hstk⟩ <;>
      rw [State.setStartUp_cu, hcu] <;> rfl
  · exact congrArg Host.Outcome.next (completeStore_eq hflight hdue hop)
  · exact congrArg Host.Outcome.next (completeErase_eq hflight hdue hop)
  · intro greater first
    have hfirst : first = writesFirst s.rs.copy1 s.rs.copy2 := (writesFirst_eq _ _).symm
    rw [hfirst]
    refine ⟨fun hw => ?_, fun hw => ?_⟩
    · refine congrArg Host.Outcome.next ((completeOptions_eq hflight hdue hop).trans ?_)
      rw [writeCopy_first o hw]
      rfl
    · refine congrArg Host.Outcome.next ((completeOptions_eq hflight hdue hop).trans ?_)
      rw [writeCopy_second o hw]
      rfl

end Sys2Proof.Machine
end

section
/-! PROOF. What a power-on reset does to the recipe store (O6): the operation in flight ended, then a reset's judgement
of slots and copies and the start-up load. -/

namespace Sys2Proof.Machine

/-! ## The operation in flight ended (R45) -/

/-- A store or an erase of a slot is in flight. -/
def Rs.CutsShort (r : Rs) (k : SlotNo) : Prop :=
  ∃ f, r.inFlight = some f ∧ ((∃ bank, f.op = .store k bank) ∨ f.op = .erase k)

section
variable {r : Rs} {f : InFlight} (draw : Nat)

/-- Only the operation in flight is ended; with none, nothing changes. -/
theorem interrupt_none (hflight : r.inFlight = none) : r.interrupt draw = r := by
  unfold Rs.interrupt
  rw [hflight]

section
variable (hflight : r.inFlight = some f)
include hflight

theorem interrupt_load {k : SlotNo} (hop : f.op = .load k) : r.interrupt draw = r := by
  unfold Rs.interrupt
  rw [hflight]
  dsimp only
  rw [hop]

theorem interrupt_store {k : SlotNo} {bank : BankId} (hop : f.op = .store k bank) :
    r.interrupt draw = r.setSlot k (RecipeSlot.torn draw) := by
  unfold Rs.interrupt
  rw [hflight]
  dsimp only
  rw [hop]

theorem interrupt_erase {k : SlotNo} (hop : f.op = .erase k) :
    r.interrupt draw = r.setSlot k (RecipeSlot.torn draw) := by
  unfold Rs.interrupt
  rw [hflight]
  dsimp only
  rw [hop]

theorem interrupt_options {o : OptionBlock} (hop : f.op = .options o) :
    r.interrupt draw = if writesFirst r.copy1 r.copy2 then { r with copy1 := { r.copy1 with checkAgrees := false } }
      else { r with copy2 := { r.copy2 with checkAgrees := false } } := by
  unfold Rs.interrupt
  rw [hflight]
  dsimp only
  rw [hop]

end

theorem setSlot_slots (k j : SlotNo) (v : RecipeSlot) :
    (r.setSlot k v).slots[j] = if k = j then v else r.slots[j] := by
  simp only [Rs.setSlot, Fin.getElem_fin, Vector.getElem_set, Fin.ext_iff]

/-- A slot cut short is torn, every other slot stays. -/
theorem interrupt_slots (j : SlotNo) :
    (r.CutsShort j → (r.interrupt draw).slots[j] = RecipeSlot.torn draw) ∧
    (¬ r.CutsShort j → (r.interrupt draw).slots[j] = r.slots[j]) := by
  cases hflight : r.inFlight with
  | none =>
    rw [interrupt_none draw hflight]
    exact ⟨fun ⟨g, hg, _⟩ => absurd (hflight.symm.trans hg) nofun, fun _ => rfl⟩
  | some f =>
    have hcuts : r.CutsShort j ↔ (∃ bank, f.op = .store j bank) ∨ f.op = .erase j := by
      unfold Rs.CutsShort
      simp only [hflight, Option.some.injEq, exists_eq_left']
    rw [hcuts]
    cases hop : f.op with
    | load k =>
      rw [interrupt_load draw hflight hop]
      exact ⟨by simp, fun _ => rfl⟩
    | store k bank =>
      rw [interrupt_store draw hflight hop, setSlot_slots]
      simp +contextual
    | erase k =>
      rw [interrupt_erase draw hflight hop, setSlot_slots]
      simp +contextual
    | options o =>
      rw [interrupt_options draw hflight hop]
      refine ⟨by simp, fun _ => ?_⟩
      split <;> rfl

/-- Only an option write touches the copies. -/
theorem interrupt_copies (hop : ∀ f, r.inFlight = some f → ∀ o, f.op ≠ .options o) :
    (r.interrupt draw).copy1 = r.copy1 ∧ (r.interrupt draw).copy2 = r.copy2 := by
  unfold Rs.interrupt
  split
  · exact ⟨rfl, rfl⟩
  · next f hflight =>
    split
    · exact ⟨rfl, rfl⟩
    · exact ⟨rfl, rfl⟩
    · exact ⟨rfl, rfl⟩
    · next o hoptions => exact absurd hoptions (hop f hflight o)

end

/-! ## The reset (R39, R46, R47) -/

theorem interruptOp_rs (s : State) : s.interruptOp.rs = s.rs.interrupt s.freeCount := by
  unfold State.interruptOp
  split <;> rfl

/-- The store after a power-on reset: slots and copies as the interruption leaves them, judged, and the start-up load
begun at cell time 0. -/
theorem powerOn_rs (e : ResetEnd) (s : State) :
    (∀ k : SlotNo, (s.powerOn e).rs.slots[k] = judgedSlot (s.rs.interrupt s.freeCount).slots[k]) ∧
    (s.powerOn e).rs.copy1 = (s.rs.interrupt s.freeCount).copy1 ∧
    (s.powerOn e).rs.copy2 = (s.rs.interrupt s.freeCount).copy2 ∧ StoreRestarted 0 (s.powerOn e).rs := by
  obtain ⟨hslots, hcopy1, hcopy2, -⟩ := startUpLoad_store (s.interruptOp.powerOnBlocks e)
  rw [← interruptOp_rs]
  refine ⟨fun k => ?_, hcopy1, hcopy2, startUpLoad_restarted (s.interruptOp.powerOnBlocks e) rfl rfl⟩
  unfold State.powerOn
  rw [hslots]
  exact storeReset_slot s.interruptOp.rs k

/-- Settles O6. -/
theorem powerOnResetOfTheStore : Obligations.PowerOnResetOfTheStore := by
  intro e s cutShort
  obtain ⟨hslots, hcopy1, hcopy2, hrestarted⟩ := powerOn_rs e s
  refine ⟨s.powerOn e, rfl, fun k => ⟨fun hcut => ?_, fun hwhole => ?_⟩, fun hop => ?_, fun f o hflight hop => ?_,
    hrestarted⟩
  · rw [hslots, (interrupt_slots s.freeCount k).1 hcut, ← judge_eq, judge_torn]
    exact torn_disagrees s.freeCount
  · rw [hslots, (interrupt_slots s.freeCount k).2 hwhole]
  · rw [hcopy1, hcopy2]
    exact interrupt_copies s.freeCount hop
  · rw [hcopy1, hcopy2, interrupt_options s.freeCount hflight hop]
    refine ⟨fun hfirst => ?_, fun hsecond => ?_⟩
    · rw [if_pos hfirst]
      exact ⟨rfl, rfl⟩
    · rw [if_neg (Bool.eq_false_iff.1 hsecond)]
      exact ⟨rfl, rfl⟩

end Sys2Proof.Machine
end

section
/-! PROOF. The set-points of an update stay within the recipe (O17): what validation says of header and zones, the
bounds of the arithmetic, and the operations through which an update may enter another state. -/

namespace Sys2Proof.Machine

/-! ## What a passed validation says of the zones (R35, R36) -/

theorem fieldFailure_eq_none {h : RecipeHeader} {zones : List ZoneEntry} : ∀ {i : Nat},
    fieldFailure h i zones = none → ∀ e ∈ zones, ∀ c ∈ zoneChecks h e, c.2 = true := by
  induction zones with
  | nil => exact fun _ _ he => absurd he List.not_mem_nil
  | cons z rest ih =>
    intro i hnone e he c hc
    unfold fieldFailure at hnone
    split at hnone
    · exact absurd hnone nofun
    · next hchecks =>
      rcases List.mem_cons.1 he with rfl | hrest
      · simpa using List.find?_eq_none.1 hchecks c hc
      · exact ih hnone e hrest c hc

theorem firstZone_eq_none {bad : ZoneEntry → Bool} {zones : List ZoneEntry} : ∀ {i : Nat},
    firstZone (fun _ z => bad z) i zones = none → ∀ e ∈ zones, bad e = false := by
  induction zones with
  | nil => exact fun _ _ he => absurd he List.not_mem_nil
  | cons z rest ih =>
    intro i hnone e he
    unfold firstZone at hnone
    split at hnone
    · exact absurd hnone nofun
    · next hgood =>
      rcases List.mem_cons.1 he with rfl | hrest
      · exact Bool.eq_false_iff.2 hgood
      · exact ih hnone e hrest

/-- After a RAMP comes a zone that holds an energy. -/
theorem rampFailure_eq_none {zones : List ZoneEntry} : ∀ {i : Nat}, rampFailure i zones = none →
    ∀ {z : Nat} {e n : ZoneEntry}, zones[z]? = some e → e.kind = .ramp → zones[z + 1]? = some n →
      n.kind.hasEnergy = true := by
  induction zones with
  | nil => exact fun _ _ _ _ he => absurd he nofun
  | cons first rest ih =>
    cases rest with
    | nil => exact fun _ z _ _ _ _ hn => absurd hn nofun
    | cons next later =>
      intro i hnone z e n he hramp hn
      unfold rampFailure at hnone
      dsimp only at hnone
      split at hnone
      · next hgood =>
        cases z with
        | zero =>
          obtain rfl : first = e := Option.some.inj he
          obtain rfl : next = n := Option.some.inj hn
          rw [hramp] at hgood
          cases hkind : next.kind with
          | heat | ramp | dwell | finish => rfl
          | gap =>
            rw [hkind] at hgood
            exact absurd hgood (by decide)
        | succ z => exact ih hnone he hramp hn
      · exact absurd hnone nofun

/-- The zones of a bank that validates, as the arithmetic of an update uses them: each one's speed and power within the
header's limits, its energy reached at no less than v_min, its flow within q_max, and the starts in order. -/
structure ZonesFit (h : RecipeHeader) (zones : List ZoneEntry) : Prop where
  speed : ∀ e ∈ zones, e.kind.hasSpeed = true → ∃ v, e.zoneSpeed = some v ∧ h.vMin ≤ v ∧ v ≤ h.vMax
  dwell : ∀ e ∈ zones, e.kind = .dwell → e.dwellPower.getD 0 ≤ h.pMax
  energy : ∀ e ∈ zones, e.kind.hasEnergy = true → 0 < e.energy.getD 0 → h.vMin ≤ h.pMax * 1000 / e.energy.getD 0
  flow : ∀ e ∈ zones, sectorCount e.mask * e.flow ≤ h.qMax
  ramp : ∀ {z : Nat} {e n : ZoneEntry}, zones[z]? = some e → e.kind = .ramp → zones[z + 1]? = some n →
    n.kind.hasEnergy = true
  first : zones[0]?.map (·.startX) = some 0

theorem fieldOk_some {v : Option Nat} {ok : Nat → Bool} (h : fieldOk true v ok = true) :
    ∃ n, v = some n ∧ ok n = true := by
  cases v with
  | none => exact absurd h Bool.false_ne_true
  | some n => exact ⟨n, rfl, h⟩

theorem inRange_iff {lo hi v : Nat} : inRange lo hi v = true ↔ lo ≤ v ∧ v ≤ hi := by
  simp [inRange]

theorem checks_of_validate {k : Nat} {b : Bank} {h : RecipeHeader} (hvalid : validate k b = none)
    (hheader : b.header = some h) :
    fieldFailure h 0 b.zoneList = none ∧ neighbourFailure h b.zoneList = none := by
  unfold validate at hvalid
  rw [hheader] at hvalid
  split at hvalid
  · exact absurd hvalid nofun
  · split at hvalid
    · exact absurd hvalid nofun
    · dsimp only at hvalid
      split at hvalid
      · exact absurd hvalid nofun
      · next hfields => exact ⟨hfields, hvalid⟩

/-- Checks 9, 10 and 12; check 11 bounds a spindle speed that the arithmetic bounds itself. -/
theorem neighbourFailure_eq_none {h : RecipeHeader} {zones : List ZoneEntry} (hnone : neighbourFailure h zones = none) :
    rampFailure 0 zones = none ∧
    (∀ e ∈ zones, (e.kind.hasEnergy && 0 < e.energy.getD 0 && h.pMax * 1000 / e.energy.getD 0 < h.vMin) = false) ∧
    (∀ e ∈ zones, decide (h.qMax < sectorCount e.mask * e.flow) = false) := by
  unfold neighbourFailure at hnone
  dsimp only at hnone
  split at hnone
  · exact absurd hnone nofun
  · next hramps =>
    split at hnone
    · exact absurd hnone nofun
    · next hslow =>
      split at hnone
      · exact absurd hnone nofun
      · split at hnone
        · exact absurd hnone nofun
        · next hwet => exact ⟨hramps, firstZone_eq_none hslow, firstZone_eq_none hwet⟩

theorem zonesFit_of_validate {k : Nat} {b : Bank} {h : RecipeHeader} (hvalid : validate k b = none)
    (hheader : b.header = some h) : ZonesFit h b.zoneList := by
  obtain ⟨hfields, hneighbours⟩ := checks_of_validate hvalid hheader
  obtain ⟨hramps, hslow, hwet⟩ := neighbourFailure_eq_none hneighbours
  obtain ⟨⟨e, hlast, -⟩, hstarts⟩ := zoneList_of_layout (layoutFailure_of_validate hvalid)
  have hne : b.zoneList ≠ [] := by
    intro hnil
    rw [hnil] at hlast
    exact absurd hlast nofun
  have hcheck {e : ZoneEntry} (he : e ∈ b.zoneList) {n : Nat} {ok : Bool} (hmem : (n, ok) ∈ zoneChecks h e) :
      ok = true := fieldFailure_eq_none hfields e he (n, ok) hmem
  refine ⟨fun e he hspeed => ?_, fun e he hdwell => ?_, fun e he henergy hpos => ?_, fun e he => ?_,
    rampFailure_eq_none hramps, (starts_of_startFailure hne hstarts).1⟩
  · have hfield := hcheck he (n := 35) (ok := fieldOk e.kind.hasSpeed e.zoneSpeed (inRange h.vMin h.vMax))
      (by simp [zoneChecks])
    rw [hspeed] at hfield
    obtain ⟨v, hv, hok⟩ := fieldOk_some hfield
    exact ⟨v, hv, inRange_iff.1 hok⟩
  · have hfield := hcheck he (n := 36) (ok := fieldOk e.kind.isDwell e.dwellPower (inRange 1 h.pMax))
      (by simp [zoneChecks])
    rw [hdwell] at hfield
    obtain ⟨v, hv, hok⟩ := fieldOk_some hfield
    rw [hv]
    exact (inRange_iff.1 hok).2
  · have hgood := hslow e he
    simp only [henergy, hpos, decide_true, Bool.true_and, decide_eq_false_iff_not, Nat.not_lt] at hgood
    exact hgood
  · exact Nat.not_lt.1 (of_decide_eq_false (hwet e he))

/-! ## The header's own limits (R26, R33) -/

/-- The limits of the header that the set-points are made of. -/
structure HeaderFits (h : RecipeHeader) : Prop where
  vMin : h.vMin ≤ 50000
  vMax : h.vMax ≤ 50000
  seek : h.seekSpeed ≤ 50000
  approach : h.approachSpeed ≤ 50000
  runout : h.runoutSpeed ≤ 50000
  flood : h.floodFlow ≤ h.qMax
  base : h.nBase ≤ h.nMax

theorem headerFits_of_validate {k : Nat} {b : Bank} {h : RecipeHeader} (hvalid : validate k b = none)
    (hheader : b.header = some h) : HeaderFits h := by
  obtain ⟨hchecks, -⟩ := header_of_validate hvalid hheader
  have hupper {n lo hi v : Nat} (hmem : (n, inRange lo hi v) ∈ headerChecks h) : v ≤ hi :=
    (inRange_iff.1 (hchecks _ hmem)).2
  exact ⟨hupper (n := 7) (lo := 500) (by simp [headerChecks]), hupper (n := 8) (lo := h.vMin) (by simp [headerChecks]),
    hupper (n := 9) (lo := 500) (by simp [headerChecks]), hupper (n := 10) (lo := 500) (by simp [headerChecks]),
    hupper (n := 11) (lo := 500) (by simp [headerChecks]), hupper (n := 18) (lo := 1) (by simp [headerChecks]),
    hupper (n := 27) (lo := 1) (by simp [headerChecks])⟩

/-! ## The energy and the speed (R53 to R56, R60, R61) -/

/-- A line between two values, its quotient truncated toward zero, stays below the greater. -/
theorem interpolated_le (a b : Nat) {p q : Int} (hp : 0 ≤ p) (hpq : p < q) :
    (a : Int) + (((b : Int) - a) * p).tdiv q ≤ max a b := by
  rcases Int.le_total (a : Int) b with hle | hle
  · have hprod : 0 ≤ ((b : Int) - a) * p := Int.mul_nonneg (Int.sub_nonneg.2 hle) hp
    have hbound : ((b : Int) - a) * p ≤ (b - a) * q :=
      Int.mul_le_mul_of_nonneg_left (Int.le_of_lt hpq) (Int.sub_nonneg.2 hle)
    have hquot : (((b : Int) - a) * p).tdiv q ≤ b - a := by
      rw [Int.tdiv_eq_ediv_of_nonneg hprod]
      exact Int.ediv_le_of_le_mul (by omega) hbound
    omega
  · have hfall : ((b : Int) - a) * p = -(((a : Int) - b) * p) := by rw [← Int.neg_mul, Int.neg_sub]
    have hquot : 0 ≤ (((a : Int) - b) * p).tdiv q :=
      Int.tdiv_nonneg (Int.mul_nonneg (Int.sub_nonneg.2 hle) hp) (by omega)
    rw [hfall, Int.neg_tdiv]
    omega

/-- The energy per length at a point of the last zone started there is no more than some zone's own. -/
theorem energyAt_le {h : RecipeHeader} {zones : List ZoneEntry} (hfit : ZonesFit h zones) {y : Int} {z : Nat}
    (hlast : IsLastStarted y zones z) (hpos : 0 < energyAt zones z y) :
    ∃ e ∈ zones, e.kind.hasEnergy = true ∧ energyAt zones z y ≤ e.energy.getD 0 := by
  obtain ⟨⟨e, he, hstarted⟩, hlater⟩ := hlast
  have hmem : e ∈ zones := List.mem_of_getElem? he
  by_cases hramp : e.kind = .ramp
  · cases hn : zones[z + 1]? with
    | none =>
      have hflat : energyAt zones z y = e.energy.getD 0 := by
        unfold energyAt
        simp only [he, hramp, hn]
      exact ⟨e, hmem, by rw [hramp]; rfl, Nat.le_of_eq hflat⟩
    | some n =>
      have hahead := hlater (z + 1) n hn (Nat.lt_succ_self z)
      have hbound := interpolated_le (e.energy.getD 0) (n.energy.getD 0) (p := y - e.startX)
        (q := n.startX - e.startX) (by omega) (by omega)
      rw [energyAt_ramp he hn y hramp]
      rcases Nat.le_total (e.energy.getD 0) (n.energy.getD 0) with hle | hle
      · exact ⟨n, List.mem_of_getElem? hn, hfit.ramp he hramp hn, by omega⟩
      · exact ⟨e, hmem, by rw [hramp]; rfl, by omega⟩
  · rw [energyAt_flat he y hramp] at hpos ⊢
    split at hpos
    · next hkind =>
      rw [if_pos hkind]
      refine ⟨e, hmem, ?_, Nat.le_refl _⟩
      rcases hkind with hkind | hkind <;> rw [hkind] <;> rfl
    · exact absurd hpos (Nat.lt_irrefl 0)

section
variable {h : RecipeHeader} {r : PeInput} (hheader : HeaderFits h) (hfit : ZonesFit h r.zones)
include hfit

/-- The energy target leaves room for v_min within p_max (R36). -/
theorem vMin_le_of_energy (hpos : 0 < r.energy h) : h.vMin ≤ h.pMax * 1000 / r.energy h := by
  unfold PeInput.energy at hpos ⊢
  cases hzone : r.heatingZone h with
  | none =>
    rw [hzone] at hpos
    exact absurd hpos (Nat.lt_irrefl 0)
  | some z =>
    rw [hzone] at hpos
    have hfrom : 0 ≤ r.lookPower h := Decidable.byContradiction fun hbefore => by
      have hnone : r.heatingZone h = none := if_pos (Int.not_le.1 hbefore)
      rw [hnone] at hzone
      exact absurd hzone nofun
    obtain ⟨z', hlast, hfound⟩ := findZone_of_first_zero hfit.first hfrom
    obtain rfl : z' = z := Option.some.inj (hfound.symm.trans hzone)
    obtain ⟨e, hmem, hkind, hle⟩ := energyAt_le hfit hlast hpos
    have hown := hfit.energy e hmem hkind (Nat.lt_of_lt_of_le hpos hle)
    exact Nat.le_trans hown (Nat.div_le_div_left hle hpos)

theorem vMin_le_zoneSpeed : h.vMin ≤ r.zoneSpeed h := by
  unfold PeInput.zoneSpeed
  cases he : r.zones[(r.heatingZone h).getD 0]? with
  | none => exact Nat.le_refl _
  | some e =>
    show h.vMin ≤ zoneSpeedOr h.vMin e
    unfold zoneSpeedOr
    split
    · next hspeed =>
      obtain ⟨v, hv, hmin, -⟩ := hfit.speed e (List.mem_of_getElem? he) hspeed
      rw [hv]
      exact hmin
    · exact Nat.le_refl _

theorem vMin_le_heatingSpeed : h.vMin ≤ min (r.zoneSpeed h) (r.speedLimit h) := by
  refine Nat.le_min.2 ⟨vMin_le_zoneSpeed hfit, ?_⟩
  unfold PeInput.speedLimit
  split
  · next hpos => exact vMin_le_of_energy hfit hpos
  · exact vMin_le_zoneSpeed hfit

include hheader

theorem zoneSpeed_le : r.zoneSpeed h ≤ 50000 := by
  unfold PeInput.zoneSpeed
  cases he : r.zones[(r.heatingZone h).getD 0]? with
  | none => exact hheader.vMin
  | some e =>
    show zoneSpeedOr h.vMin e ≤ 50000
    unfold zoneSpeedOr
    split
    · next hspeed =>
      obtain ⟨v, hv, -, hmax⟩ := hfit.speed e (List.mem_of_getElem? he) hspeed
      rw [hv]
      exact Nat.le_trans hmax hheader.vMax
    · exact hheader.vMin

theorem speed_le : r.speed h ≤ 50000 := by
  unfold PeInput.speed
  split
  · exact Nat.le_trans (Nat.min_le_left _ _) (zoneSpeed_le hheader hfit)
  · exact hheader.seek
  · exact hheader.approach
  · exact Nat.zero_le _
  · exact Nat.zero_le _
  · exact hheader.runout
  · exact Nat.zero_le _
  · exact hheader.runout
  all_goals exact Nat.zero_le _

omit hfit in
theorem spindle_le : r.spindle h ≤ h.nMax := by
  have hfor : r.spindleFor h (r.speed h) ≤ h.nMax := Nat.min_le_right _ _
  unfold PeInput.spindle
  split
  · exact hfor
  · exact hfor
  · exact hfor
  · exact hfor
  · exact hfor
  · exact hheader.base
  · exact hheader.base
  all_goals exact Nat.zero_le _

omit hheader in
theorem zonePattern_le (z : Option Nat) : (zonePattern r.zones z).flow ≤ h.qMax := by
  unfold zonePattern
  split
  · next e he =>
    obtain ⟨i, -, hi⟩ := Option.bind_eq_some_iff.1 he
    exact hfit.flow e (List.mem_of_getElem? hi)
  · exact Nat.zero_le _

end

/-! ## The set-points of an update (R51) -/

/-- The set-points within the limits of a recipe; in HEATING the carriage moves at no less than v_min. -/
structure Pe.Within (h : RecipeHeader) (p : Pe) (st : SeqState) : Prop where
  power : p.power ≤ h.pMax
  spindle : p.spindle ≤ h.nMax
  flow : p.flow ≤ h.qMax
  speed : p.speed ≤ 50000
  heats : st = .heating → h.vMin ≤ p.speed

/-- A number that, where it is one, names a DWELL zone of the bank. -/
def NamesDwell (b : Bank) (zone : Option Nat) : Prop :=
  ∀ z, zone = some z → ∃ e, b.zoneList[z]? = some e ∧ e.kind = .dwell

theorem noRecipe_within (h : RecipeHeader) (f : Int) (old : Pe) {st : SeqState} (hst : st ≠ .heating) :
    (Pe.noRecipe f old).Within h st :=
  ⟨Nat.zero_le _, Nat.zero_le _, Nat.zero_le _, Nat.zero_le _, fun hheating => absurd hheating hst⟩

section
variable {h : RecipeHeader} {b : Bank} {r : PeInput} (hheader : HeaderFits h) (hfit : ZonesFit h r.zones)
include hheader hfit

theorem quench_flow_le (latch : Bool) : (r.quench h latch).flow ≤ h.qMax := by
  have hoff : QuenchPoints.off.flow ≤ h.qMax := Nat.zero_le _
  have hlatched : (if latch then zonePattern r.zones (r.latchedZone h) else QuenchPoints.off).flow ≤ h.qMax := by
    split
    · exact zonePattern_le hfit _
    · exact hoff
  unfold PeInput.quench
  split
  · exact hheader.flood
  · split
    · exact zonePattern_le hfit _
    · exact hoff
  · exact hlatched
  · exact hlatched
  · exact hlatched
  · exact hlatched
  all_goals exact hoff

omit hheader in
/-- The power of HEATING is held at p_max, that of DWELL is the dwell zone's own. -/
theorem power_le (hdwell : NamesDwell b r.dwellZone) (hzones : r.zones = b.zoneList) : r.power h ≤ h.pMax := by
  unfold PeInput.power
  split
  · exact Nat.min_le_right _ _
  · unfold PeInput.dwellPower
    cases hzone : r.dwellZone with
    | none => exact Nat.zero_le _
    | some z =>
      obtain ⟨e, he, hkind⟩ := hdwell z hzone
      rw [Option.bind_some, hzones, he, Option.bind_some]
      exact hfit.dwell e (hzones ▸ List.mem_of_getElem? he) hkind
  all_goals exact Nat.zero_le _

theorem computePe_within (hdwell : NamesDwell b r.dwellZone) (hzones : r.zones = b.zoneList) (old : Pe) :
    (computePe r (some h) old).Within h r.st := by
  have hspeed := speed_le hheader hfit
  unfold computePe
  split
  · next _ hst => exact noRecipe_within h _ old (by rw [hst]; exact nofun)
  · next hnone _ => exact absurd hnone nofun
  · next _ h' hsome _ =>
    obtain rfl : h = h' := Option.some.inj hsome
    refine ⟨power_le hfit hdwell hzones, spindle_le hheader, quench_flow_le hheader hfit _, hspeed, fun hst => ?_⟩
    have hheating : r.speed h = min (r.zoneSpeed h) (r.speedLimit h) := by
      unfold PeInput.speed
      rw [hst]
    show h.vMin ≤ r.speed h
    rw [hheating]
    exact vMin_le_heatingSpeed hfit

end

/-! ## The operations that an update may bring (R82 to R87, R131, R139) -/

/-- A validated bank is active, and the dwell zone names a DWELL zone of it. -/
structure Underlaid (b : Bank) (s : State) : Prop where
  bank : s.zt.activeBank = b
  dwell : NamesDwell b s.sq.dwellZone

/-- The set-points held are within the limits of the recipe in force. -/
structure Limited (h : RecipeHeader) (b : Bank) (s : State) : Prop extends Underlaid b s where
  points : s.pe.Within h s.sq.st

theorem Underlaid.of_frame {b : Bank} {s t : State} (hs : Underlaid b s) (hz : t.zt = s.zt)
    (hd : t.sq.dwellZone = s.sq.dwellZone) : Underlaid b t :=
  ⟨by rw [hz]; exact hs.bank, by rw [hd]; exact hs.dwell⟩

section
variable {k : Nat} {h : RecipeHeader} {b : Bank} {s : State} (hvalid : validate k b = none)
  (hheader : b.header = some h)

section
include hvalid hheader

/-- An update finds set-points within the limits, whatever they were. -/
theorem Underlaid.updateCore (hs : Underlaid b s) : Limited h b s.updateCore := by
  have hzones : s.peInput.zones = b.zoneList := congrArg Bank.zoneList hs.bank
  have hrecipe : s.recipe = some h := (congrArg Bank.header hs.bank).trans hheader
  refine ⟨hs.of_frame (State.updateCore_zt s) (by rw [updateCore_sq]), ?_⟩
  rw [updateCore_pe, updateCore_st, hrecipe]
  exact computePe_within (headerFits_of_validate hvalid hheader) (hzones ▸ zonesFit_of_validate hvalid hheader) hs.dwell
    hzones s.pe

theorem Underlaid.handOn (hs : Underlaid b s) : Limited h b s.handOn := by
  have hannounced : Underlaid b s.clearIndications.announce :=
    hs.of_frame (by simp) (by simp)
  exact hannounced.updateCore hvalid hheader

theorem Underlaid.change (hs : Underlaid b s) (st : SeqState) : Limited h b (s.change st) := by
  have hentered : Underlaid b (s.enter st none) := hs.of_frame rfl rfl
  exact hentered.handOn hvalid hheader

end

namespace Limited

theorem keepStk (hs : Limited h b s) (v : Stk) : Limited h b (s.setStk v) := ⟨⟨hs.bank, hs.dwell⟩, hs.points⟩

/-- The sequencer written with its dwell zone as it was, in no other way into HEATING. -/
theorem keepSq (hs : Limited h b s) {v : Sq} (hd : v.dwellZone = s.sq.dwellZone)
    (hst : v.st = .heating → s.sq.st = .heating) : Limited h b (s.setSq v) := by
  obtain ⟨⟨hbank, hdwell⟩, hpower, hspindle, hflow, hspeed, hheats⟩ := hs
  refine ⟨⟨hbank, ?_⟩, hpower, hspindle, hflow, hspeed, fun hheating => hheats (hst hheating)⟩
  rw [State.setSq_sq, hd]
  exact hdwell

theorem settle (hs : Limited h b s) : Limited h b s.settle := by
  unfold State.settle
  split
  · exact hs.keepSq rfl nofun
  · exact hs

theorem judgeStart (hs : Limited h b s) (expired : Bool) : Limited h b (s.judgeStart expired) := hs.keepSq rfl id

include hvalid hheader

theorem enterFault (hs : Limited h b s) (code : FaultCode) (source : FaultSource) :
    Limited h b (s.enterFault code source) := by
  have hentered : Underlaid b (((s.enter (.fault (State.faultPhase s.sq.st))
      (some (s.recordOf code source))).dropScan).floodIf s.sq.st.inScan) := by
    unfold State.floodIf
    split <;> exact ⟨hs.bank, nofun⟩
  exact hentered.handOn hvalid hheader

theorem reportFault (hs : Limited h b s) (code : FaultCode) (source : FaultSource) :
    Limited h b (s.reportFault code source) := by
  unfold State.reportFault
  split
  · exact hs.enterFault hvalid hheader code source
  · exact hs.keepSq rfl id
  · exact hs

theorem startPostQuench (hs : Limited h b s) (st : SeqState) : Limited h b (s.startPostQuench st) := by
  have htimed : Underlaid b (s.setPhase st).startPostTimer := hs.of_frame rfl rfl
  exact htimed.updateCore hvalid hheader

theorem judgePostQuench (hs : Limited h b s) : Limited h b s.judgePostQuench := by
  unfold State.judgePostQuench
  split
  · split
    · exact hs.startPostQuench hvalid hheader _
    · exact hs
  · split
    · split
      · exact hs.startPostQuench hvalid hheader _
      · exact hs
    · exact hs

theorem enterDwell (hs : Limited h b s) {z : Nat} (hz : NamesDwell b (some z)) : Limited h b (s.enterDwell z) := by
  have hpointed : Underlaid b (s.pointDwell z) := ⟨hs.bank, hz⟩
  exact ((hpointed.change hvalid hheader _).keepStk _).settle

theorem enterRunout (hs : Limited h b s) : Limited h b s.enterRunout :=
  ((hs.change hvalid hheader _).keepStk _).judgePostQuench hvalid hheader

/-- The arrival checks of HEATING, with the zone pointed at a DWELL zone. -/
theorem arrivalChecks (hs : Limited h b s) (hnext : s.sq.st = .heating → NamesDwell b s.sq.nextDwell) :
    Limited h b s.arrivalChecks := by
  unfold State.arrivalChecks
  split
  · next hst =>
    split
    · next z hz => exact hs.enterDwell hvalid hheader ((Option.filter_eq_some_iff.1 hz).1 ▸ hnext hst)
    · split
      · exact hs.enterRunout hvalid hheader
      · exact hs
  · exact hs

/-- A reversal found at the entry leaves HEATING for FAULT. -/
theorem reversalCheck (hs : Limited h b s) (hnext : NamesDwell b s.sq.nextDwell) :
    Limited h b s.reversalCheck ∧ (s.reversalCheck.sq.st = .heating → NamesDwell b s.reversalCheck.sq.nextDwell) := by
  unfold State.reversalCheck
  split
  · next hreversed =>
    refine ⟨hs.reportFault hvalid hheader _ _, fun hst => ?_⟩
    have htaken : s.reportFault .reversal .sq = s.enterFault .reversal .sq := by
      have hheat := (Bool.and_eq_true_iff.1 hreversed).1
      unfold State.reportFault State.faultTaking State.takenIf
      rw [hheat]
      rfl
    rw [htaken, (enterFault_entered _ _ _).1] at hst
    cases hst
  · exact ⟨hs, fun _ => hnext⟩

theorem enterHeating (hs : Limited h b s) (hnext : NamesDwell b s.sq.nextDwell) : Limited h b s.enterHeating := by
  have hwatched : Underlaid b (s.enter .heating none).startWatches := hs.of_frame rfl rfl
  have hpointed : (s.enter .heating none).startWatches.handOn.noticeHeatingStart.sq.nextDwell = s.sq.nextDwell := by
    rw [State.noticeHeatingStart_sq, handOn_sq (s.enter .heating none).startWatches nofun]
    rfl
  obtain ⟨hchecked, hstill⟩ := ((hwatched.handOn hvalid hheader).keepStk _).reversalCheck hvalid hheader
    (hpointed ▸ hnext)
  exact hchecked.arrivalChecks hvalid hheader hstill

theorem rejudgeChanged (hs : Limited h b s) (hnext : s.sq.st = .approach .wait → NamesDwell b s.sq.nextDwell)
    (n : Nat) : Limited h b (s.rejudgeChanged n) := by
  unfold State.rejudgeChanged State.rejudge State.heatIfMet
  split
  · exact hs
  · split
    · next hst =>
      have hjudged := hs.judgeStart s.sq.startRecord.waitExpired
      split
      · exact hjudged.enterHeating hvalid hheader (hnext hst)
      · exact hjudged
    · exact hs

end Limited

end

/-- Settles O17: the update itself, what phase WAIT may make of it, and the read of v in phase SETTLING. -/
theorem setPointsStayWithinTheRecipe : Obligations.SetPointsStayWithinTheRecipe := by
  intro k h s hvalid hheader hdue hdwell hnext
  have hrestarted : Underlaid s.zt.activeBank (restarted s) := ⟨rfl, hdwell⟩
  have hupdated : Limited h s.zt.activeBank (updated s) := hrestarted.updateCore hvalid hheader
  have hpointed : (updated s).sq.st = .approach .wait → NamesDwell s.zt.activeBank (updated s).sq.nextDwell := by
    intro hst z hz
    rw [updated_st] at hst
    rw [updated_sq] at hz
    exact hnext z hst hz
  have hsettled := (hupdated.rejudgeChanged hvalid hheader hpointed s.pe.spindle).settle
  obtain ⟨hpower, hspindle, hflow, hspeed, hheats⟩ := hsettled.points
  exact ⟨_, exec_updateExpiry s hdue, hpower, hspindle, hflow, hspeed, hheats⟩

end Sys2Proof.Machine
end
